-- ==== Sys2Proof/Word.lean ====
section
/-! DEFINITION. The word types of the VZ9 and the one sparse container every indexed part of the machine uses. -/

namespace Sys2Proof

/-- A general, witness, operand-extension or control register (R23). -/
abbrev Word := BitVec 64
/-- One byte of memory (R4). -/
abbrev Byte := BitVec 8
/-- A 32-bit instruction word, literal or vector lane. -/
abbrev Word32 := BitVec 32
/-- A 16-bit instruction parcel (R29) or lane mask (R23). -/
abbrev Parcel := BitVec 16
/-- A vector register: 16 lanes of 32 bits (R103). -/
abbrev Vec := BitVec 512

/-- Sparse data by key: pairs of a number and a value, keys rising, no value equal to the store's default. -/
abbrev Store (α : Type) := List (Nat × α)

/-- The value of key `k`, `d` where the store lists none. -/
def Store.get {α : Type} (m : Store α) (d : α) (k : Nat) : α :=
  match m with
  | [] => d
  | (k', v) :: r => if k' = k then v else Store.get r d k

/-- Place a pair before the first larger key. -/
def Store.insert {α : Type} (m : Store α) (k : Nat) (v : α) : Store α :=
  match m with
  | [] => [(k, v)]
  | (k', v') :: r => if k < k' then (k, v) :: (k', v') :: r else (k', v') :: Store.insert r k v

/-- Every pair but those of key `k`. -/
def Store.erase {α : Type} (m : Store α) (k : Nat) : Store α :=
  match m with
  | [] => []
  | (k', v') :: r => if k' = k then Store.erase r k else (k', v') :: Store.erase r k

/-- Write key `k`; a write of the default removes the entry. -/
def Store.set {α : Type} [DecidableEq α] (m : Store α) (d : α) (k : Nat) (v : α) : Store α :=
  if v = d then m.erase k else (m.erase k).insert k v

/-- The canonical form: keys strictly rising, no default listed. -/
def Store.wf {α : Type} [DecidableEq α] (d : α) : Store α → Bool
  | [] => true
  | (_, v) :: [] => decide (v ≠ d)
  | (k, v) :: (k', v') :: r => decide (v ≠ d) && decide (k < k') && Store.wf d ((k', v') :: r)

end Sys2Proof
end

