-- ==== Sys2Proof/Machine/Digest.lean ====
section
/-! DEFINITION. Numbers as bytes, and the digests the spec names: CRC-32 of IEEE 802.3 (R248, R262, R267) and SHA-256 (R365, R366,
R392). -/

namespace Sys2Proof.Machine

/-! ### Bytes of a number -/

/-- n bytes as a list. -/
def byteList (v : Nat) : Nat → List Byte
  | 0 => []
  | n + 1 => BitVec.ofNat 8 v :: byteList (v / 256) n

/-- The number of a list of bytes, little-endian. -/
def bytesNat : List Byte → Nat
  | [] => 0
  | b :: r => b.toNat + 256 * bytesNat r

/-- The bytes of a number, most significant first. -/
def bigEndian (v n : Nat) : List Byte := (byteList v n).reverse

/-! ### CRC-32 -/

/-- n shifts of the reflected CRC-32 register. -/
def crcShift : Nat → Word32 → Word32
  | 0, c => c
  | n + 1, c => crcShift n (if c.getLsbD 0 then (c >>> 1) ^^^ 0xEDB88320#32 else c >>> 1)

/-- CRC-32 of IEEE 802.3. -/
def crc32 (bs : List Byte) : Word32 :=
  ~~~(bs.foldl (fun c b => crcShift 8 (c ^^^ b.setWidth 32)) 0xFFFFFFFF#32)

/-! ### SHA-256 -/

/-- The largest number of n bits, added to r, whose k-th power is at most x. -/
def rootOf (k x : Nat) : Nat → Nat → Nat
  | 0, r => r
  | n + 1, r => rootOf k x n (if (r + 2 ^ n) ^ k ≤ x then r + 2 ^ n else r)

/-- The primes of which the constants are roots: those below 312, 64 in number. -/
def shaPrimes : List Nat := (List.range 312).filter fun p => 2 ≤ p && (List.range p).all fun d => d < 2 || p % d != 0

/-- The first 32 bits of the fractional part of the k-th root of p. -/
def shaConst (k p : Nat) : Word32 := BitVec.ofNat 32 (rootOf k (p * 2 ^ (32 * k)) 37 0)

/-- The exclusive or of right rotations of a word. -/
def turned (x : Word32) (ns : List Nat) : Word32 := ns.foldl (fun y n => y ^^^ x.rotateRight n) 0

/-- One round with constant k, on the eight working words and the next sixteen words of the schedule: the first of them is used, and the
one that follows the sixteenth is made. -/
def shaRound (x : List Word32 × List Word32) (k : Word32) : List Word32 × List Word32 :=
  let h := fun i => x.1.getD i 0
  let w := fun i => x.2.getD i 0
  let pick := h 6 ^^^ (h 4 &&& (h 5 ^^^ h 6))
  let most := (h 0 &&& h 1) ||| (h 2 &&& (h 0 ||| h 1))
  let t := h 7 + turned (h 4) [6, 11, 25] + pick + k + w 0
  let next := w 0 + (turned (w 1) [7, 18] ^^^ (w 1 >>> 3)) + w 9 + (turned (w 14) [17, 19] ^^^ (w 14 >>> 10))
  ((t + turned (h 0) [2, 13, 22] + most) :: x.1.take 3 ++ [h 3 + t, h 4, h 5, h 6], x.2.drop 1 ++ [next])

/-- A hash value after one block of 64 bytes. -/
def shaBlock (h : List Word32) (bs : List Byte) : List Word32 :=
  let words := (List.range 16).map fun i => BitVec.ofNat 32 (bytesNat ((bs.drop (4 * i)).take 4).reverse)
  let r := (shaPrimes.map (shaConst 3)).foldl shaRound (h, words)
  h.zipWith (· + ·) r.1

/-- SHA-256: a one bit, zeros and the length in bits complete the last block. -/
def sha256 (bs : List Byte) : List Byte :=
  let m := bs ++ 0x80#8 :: List.replicate ((119 - bs.length % 64) % 64) 0#8 ++ bigEndian (8 * bs.length) 8
  let first := (shaPrimes.take 8).map (shaConst 2)
  ((List.range (m.length / 64)).foldl (fun h i => shaBlock h ((m.drop (64 * i)).take 64)) first).flatMap fun w => bigEndian w.toNat 4

end Sys2Proof.Machine
end

