-- ==== Sys2Proof/Syntax.lean ====
section
/-! DEFINITION. The instructions and events of the VZ9: one constructor per row of the opcode table. An instruction keeps
every field its format gives it, the unused ones too, because a nonzero unused field has an effect (R51). An event carries
what tells it from other events of its kind. -/

namespace Sys2Proof

/-- The b source of format V, func bits 6:5 (R34). -/
inductive VSrc where
  | reg
  | bank
  | lit (l : Word32)
  deriving DecidableEq, Repr

/-- The operand fields of format V (R34). -/
structure VF where
  d : BitVec 5
  a : BitVec 5
  b : BitVec 5
  k : BitVec 3
  src : VSrc
  deriving DecidableEq, Repr

/-- One entry of the order log (R262). -/
structure LogEntry where
  kind : Nat
  site : Nat
  arg : Nat
  val : Word
  deriving DecidableEq, Repr

/-- What every Twiral flit carries beside its payload (R267); `crcOk` says whether bytes 60-63 match. -/
structure FlitHdr where
  seq : BitVec 32
  aseq : BitVec 32
  nak : Bool
  crcOk : Bool
  known : Bool
  deriving DecidableEq, Repr

/-- The payload of a HEART flit (R267). -/
structure HeartBody where
  lwr : Nat
  time : Nat
  role : Nat
  ready : Bool
  cycles : List Nat
  v : Nat
  markPos : Nat
  deriving DecidableEq, Repr

/-- A tenant descriptor (R371). -/
structure TenantDesc where
  valid : Bool
  conf : Bool
  mode : BitVec 5
  clown : BitVec 8
  l2own : Bool
  bmap : Word
  l0 : Nat
  ttbase : Nat
  gtbase : Nat
  csbase : Nat
  swbase : Nat
  ojbase : Nat
  imgw : List (Nat × Nat)
  trbase : Nat
  trsize : Nat
  svq : Nat
  deriving DecidableEq, Repr

/-- One range of a mapping policy (R338). -/
structure MapRange where
  va : Nat
  len : Nat
  r : Bool
  w : Bool
  x : Bool
  u : Bool
  deriving DecidableEq, Repr

/-- An 802.1Qci stream filter with the identification of its stream, and the 802.1CB recovery function of the stream (R240, R253). -/
structure StreamFilter where
  mac : Nat
  vlan : Nat
  bySource : Bool
  gate : Nat
  maxSdu : Nat
  recovery : Option Nat
  deriving DecidableEq, Repr

/-- A stream gate: its class and its open intervals, ns after the start of the class period (R240). -/
structure StreamGate where
  cls : Nat
  windows : List (Nat × Nat)
  deriving DecidableEq, Repr

/-- An 802.1Qbv gate control list: base time and cycle in ns, and for each entry the open traffic classes and an interval in ns (R253). -/
structure GateList where
  base : Nat
  cycle : Nat
  entries : List (BitVec 8 × Nat)
  deriving DecidableEq, Repr

/-- A configuration-mailbox request after the firmware has read it (R371, R380). -/
inductive CfgReq where
  | tenant (t : Nat) (d : TenantDesc)
  | policy (t : Nat) (rs : List MapRange)
  | classReg (t n which : Nat) (v : Word)
  | l2lk (t : Nat) (v : Word)
  | portMac (port : Nat) (mac : Nat)
  | rtag (entry : Nat) (on : Bool)
  | filter (i : Nat) (f : StreamFilter)
  | gate (i : Nat) (g : StreamGate)
  | recovery (i history timeout : Nat)
  | gateList (port : Nat) (g : GateList)
  | preempt (port : Nat) (classes : BitVec 8) (fragment : BitVec 2) (verify : Bool)
  | split (entry : Nat) (port : Option Nat)
  | ingress (i word : Nat) (v : Word)
  | egress (e word : Nat) (v : Word)
  | fallback (e : Nat) (bytes : List Byte)
  | pgov (die : Nat) (v : Word)
  | rcfg (v : Word)
  | migrate (t va : Nat)
  | resetCore (core : Nat)
  | resetBench (bench : Nat)
  | switch (bench : Nat) (t : Option Nat)
  | streams (t : Nat) (list : List Word)
  | handOff (n : Nat)
  deriving DecidableEq, Repr

/-- A received Ethernet frame (R240): its port, the fields stream identification reads, the sequence number of its R-tag, its length
from destination MAC to FCS, its timestamp and its payload. -/
structure Frame where
  port : Nat
  dst : Nat
  srcMac : Nat
  vlan : Option Nat
  rtag : Option Nat
  size : Nat
  fcsOk : Bool
  time : Nat
  complete : Nat
  payload : List Byte
  deriving DecidableEq, Repr

/-- What a debugger asks through the open port (R394). -/
inductive DebugReq where
  | readMem (addr len : Nat)
  | writeMem (addr : Nat) (bytes : List Byte)
  | readCtl (t n : Nat)
  | writeCtl (t n : Nat) (v : Word)
  | haltOnBrk (on : Bool)
  deriving DecidableEq, Repr

/-- The instructions and events of the VZ9. -/
inductive Instr where
  /-- 16-bit move of one of g0–g15 into another. (R41) -/
  | mov16 (d a : BitVec 4)
  /-- 16-bit add of a signed 7-bit immediate to g[d]. (R41) -/
  | addi16 (d : BitVec 4) (i : BitVec 7)
  /-- 16-bit add of g[a] to g[d]. (R41) -/
  | add16 (d a : BitVec 4)
  /-- 16-bit form of the 8-byte sign-extending load with offset 8 × off3. (R41) -/
  | ldD16 (d a : BitVec 4) (o : BitVec 3)
  /-- 16-bit form of the 8-byte store with witness discarded. (R41) -/
  | stD16 (d a : BitVec 4) (o : BitVec 3)
  /-- 16-bit branch taken when g[a] is zero. (R41) -/
  | bz16 (a : BitVec 4) (o : BitVec 7)
  /-- 16-bit branch taken when g[a] is nonzero. (R41) -/
  | bnz16 (a : BitVec 4) (o : BitVec 7)
  /-- 16-bit unconditional jump by an 11-bit parcel offset. (R41) -/
  | j16 (o : BitVec 11)
  /-- 16-bit shift left of g[d] by 1–32. (R41) -/
  | shl16 (d : BitVec 4) (n : BitVec 5)
  /-- 16-bit logical shift right of g[d] by 1–32. (R41) -/
  | shr16 (d : BitVec 4) (n : BitVec 5)
  /-- 16-bit arithmetic shift right of g[d] by 1–32. (R41) -/
  | sar16 (d : BitVec 4) (n : BitVec 5)
  /-- 16-bit rotate right of g[d] by 1–32. (R41) -/
  | ror16 (d : BitVec 4) (n : BitVec 5)
  /-- 16-bit compare of g[d] with g[a] under cc, writing 1 or 0 to g[d]. (R41) -/
  | cmp16 (d a : BitVec 4) (cc : BitVec 3)
  /-- Short counter wait: stalls until every masked counter is at or below n. (R41) -/
  | wait16 (m : BitVec 4) (n : BitVec 6)
  /-- 16-bit jump through g[a], or g63 when a = 0 (ret). (R41) -/
  | jr16 (a : BitVec 4)
  /-- 16-bit call through g[a], linking in g63. (R41) -/
  | callr16 (a : BitVec 4)
  /-- No operation, only the parcel 0x6800. (R41) -/
  | nop
  /-- Prefix that sets pending operand formats, accumulator, saturate and plane for the next instruction. (R44) -/
  | fmt (a b : BitVec 3) (acc sat : Bool) (pl : BitVec 2)
  /-- 64-bit wrapping add. (R82) -/
  | add (d a b : BitVec 6)
  /-- 64-bit wrapping subtract. (R82) -/
  | sub (d a b : BitVec 6)
  /-- Bitwise AND. (R82) -/
  | and (d a b : BitVec 6)
  /-- Bitwise OR. (R82) -/
  | or (d a b : BitVec 6)
  /-- Bitwise exclusive OR. (R82) -/
  | xor (d a b : BitVec 6)
  /-- AND with the complement of g[b]. (R82) -/
  | andn (d a b : BitVec 6)
  /-- OR with the complement of g[b]. (R82) -/
  | orn (d a b : BitVec 6)
  /-- Complement of exclusive OR. (R82) -/
  | xnor (d a b : BitVec 6)
  /-- Shift left by bits 5:0 of g[b]. (R82) -/
  | shl (d a b : BitVec 6)
  /-- Logical shift right by bits 5:0 of g[b]. (R82) -/
  | shr (d a b : BitVec 6)
  /-- Arithmetic shift right by bits 5:0 of g[b]. (R82) -/
  | sar (d a b : BitVec 6)
  /-- Rotate right by bits 5:0 of g[b]. (R82) -/
  | ror (d a b : BitVec 6)
  /-- Shift left by the immediate in the b field. (R82) -/
  | shli (d a n : BitVec 6)
  /-- Logical shift right by the immediate in the b field. (R82) -/
  | shri (d a n : BitVec 6)
  /-- Arithmetic shift right by the immediate in the b field. (R82) -/
  | sari (d a n : BitVec 6)
  /-- Rotate right by the immediate in the b field. (R82) -/
  | rori (d a n : BitVec 6)
  /-- 32-bit add, sign-extended result. (R82) -/
  | addW (d a b : BitVec 6)
  /-- 32-bit subtract, sign-extended result. (R82) -/
  | subW (d a b : BitVec 6)
  /-- 32-bit shift left, sign-extended result. (R82) -/
  | shlW (d a b : BitVec 6)
  /-- 32-bit logical shift right, sign-extended result. (R82) -/
  | shrW (d a b : BitVec 6)
  /-- 32-bit arithmetic shift right, sign-extended result. (R82) -/
  | sarW (d a b : BitVec 6)
  /-- 32-bit rotate right, sign-extended result. (R82) -/
  | rorW (d a b : BitVec 6)
  /-- Signed saturating 64-bit add. (R82) -/
  | addS (d a b : BitVec 6)
  /-- Signed saturating 64-bit subtract. (R82) -/
  | subS (d a b : BitVec 6)
  /-- Unsigned saturating 64-bit add. (R82) -/
  | addUs (d a b : BitVec 6)
  /-- Unsigned saturating 64-bit subtract. (R82) -/
  | subUs (d a b : BitVec 6)
  /-- Address arithmetic g[a] + 2 × g[b]. (R82) -/
  | lea2 (d a b : BitVec 6)
  /-- Address arithmetic g[a] + 4 × g[b]. (R82) -/
  | lea4 (d a b : BitVec 6)
  /-- Address arithmetic g[a] + 8 × g[b]. (R82) -/
  | lea8 (d a b : BitVec 6)
  /-- Address arithmetic g[a] + 16 × g[b]. (R82) -/
  | lea16 (d a b : BitVec 6)
  /-- Address arithmetic g[a] + 64 × g[b]. (R82) -/
  | lea64 (d a b : BitVec 6)
  /-- Low 64 bits of the product. (R84) -/
  | mul (d a b : BitVec 6)
  /-- High 64 bits of the signed product. (R84) -/
  | mulh (d a b : BitVec 6)
  /-- High 64 bits of the unsigned product. (R84) -/
  | mulhu (d a b : BitVec 6)
  /-- High 64 bits of the signed-by-unsigned product. (R84) -/
  | mulhsu (d a b : BitVec 6)
  /-- 32-bit product, sign-extended. (R84) -/
  | mulW (d a b : BitVec 6)
  /-- Signed saturating 64-bit product. (R84) -/
  | mulS (d a b : BitVec 6)
  /-- Signed 64-bit quotient with the fixed by-zero and overflow results. (R85) -/
  | div (d a b : BitVec 6)
  /-- Unsigned 64-bit quotient. (R85) -/
  | divu (d a b : BitVec 6)
  /-- Signed 64-bit remainder. (R85) -/
  | rem (d a b : BitVec 6)
  /-- Unsigned 64-bit remainder. (R85) -/
  | remu (d a b : BitVec 6)
  /-- Signed 32-bit quotient, sign-extended. (R85) -/
  | divW (d a b : BitVec 6)
  /-- Unsigned 32-bit quotient, sign-extended. (R85) -/
  | divuW (d a b : BitVec 6)
  /-- Signed 32-bit remainder, sign-extended. (R85) -/
  | remW (d a b : BitVec 6)
  /-- Unsigned 32-bit remainder, sign-extended. (R85) -/
  | remuW (d a b : BitVec 6)
  /-- Compare g[a] with g[b] under cc, writing 1 or 0. (R86) -/
  | cmp (d a b : BitVec 6) (cc : BitVec 3)
  /-- Signed minimum. (R86) -/
  | min (d a b : BitVec 6)
  /-- Signed maximum. (R86) -/
  | max (d a b : BitVec 6)
  /-- Unsigned minimum. (R86) -/
  | minu (d a b : BitVec 6)
  /-- Unsigned maximum. (R86) -/
  | maxu (d a b : BitVec 6)
  /-- Moves g[a] to g[d] when g[b] is zero. (R86) -/
  | movz (d a b : BitVec 6)
  /-- Moves g[a] to g[d] when g[b] is nonzero. (R86) -/
  | movnz (d a b : BitVec 6)
  /-- Count of leading zero bits. (R87) -/
  | clz (d a b : BitVec 6)
  /-- Count of trailing zero bits. (R87) -/
  | ctz (d a b : BitVec 6)
  /-- Count of one bits. (R87) -/
  | popc (d a b : BitVec 6)
  /-- Byte reversal of 64 bits. (R87) -/
  | rev8 (d a b : BitVec 6)
  /-- Byte reversal of the low 32 bits, zero-extended. (R87) -/
  | rev8W (d a b : BitVec 6)
  /-- Bit-field extract, zero-extended. (R87) -/
  | bfx (d a b : BitVec 6)
  /-- Bit-field extract, sign-extended. (R87) -/
  | bfxs (d a b : BitVec 6)
  /-- Bit-field insert into g[d]. (R87) -/
  | bfi (d a b : BitVec 6)
  /-- Add of a direct 13-bit signed immediate. (R83) -/
  | addi (d a : BitVec 6) (i : BitVec 13)
  /-- Add of a sign-extended 32-bit literal word (escape 0x1000). (R83) -/
  | addiLit32 (d a : BitVec 6) (l : Word32)
  /-- Add of a 64-bit literal in two words (escape 0x1001). (R83) -/
  | addiLit64 (d a : BitVec 6) (l : Word)
  /-- AND with a direct 13-bit signed immediate. (R83) -/
  | andi (d a : BitVec 6) (i : BitVec 13)
  /-- AND with a sign-extended 32-bit literal word. (R83) -/
  | andiLit32 (d a : BitVec 6) (l : Word32)
  /-- AND with a 64-bit literal. (R83) -/
  | andiLit64 (d a : BitVec 6) (l : Word)
  /-- OR with a direct 13-bit signed immediate. (R83) -/
  | ori (d a : BitVec 6) (i : BitVec 13)
  /-- OR with a sign-extended 32-bit literal word. (R83) -/
  | oriLit32 (d a : BitVec 6) (l : Word32)
  /-- OR with a 64-bit literal. (R83) -/
  | oriLit64 (d a : BitVec 6) (l : Word)
  /-- XOR with a direct 13-bit signed immediate. (R83) -/
  | xori (d a : BitVec 6) (i : BitVec 13)
  /-- XOR with a sign-extended 32-bit literal word. (R83) -/
  | xoriLit32 (d a : BitVec 6) (l : Word32)
  /-- XOR with a 64-bit literal. (R83) -/
  | xoriLit64 (d a : BitVec 6) (l : Word)
  /-- Loads constant-bank word (g[a] + n) mod 256, sign- or zero-extended. (R88) -/
  | ldcb (d a : BitVec 6) (z : Bool) (n : BitVec 8)
  /-- Moves a sign-extended 19-bit immediate into g[d]. (R83) -/
  | movi (d : BitVec 6) (i : BitVec 19)
  /-- Branch when g[a] = 0. (R89) -/
  | bz (a : BitVec 6) (o : BitVec 16)
  /-- Branch when g[a] ≠ 0. (R89) -/
  | bnz (a : BitVec 6) (o : BitVec 16)
  /-- Branch when g[a] < 0. (R89) -/
  | bltz (a : BitVec 6) (o : BitVec 16)
  /-- Branch when g[a] ≥ 0. (R89) -/
  | bgez (a : BitVec 6) (o : BitVec 16)
  /-- Branch when g[a] ≤ 0. (R89) -/
  | blez (a : BitVec 6) (o : BitVec 16)
  /-- Branch when g[a] > 0. (R89) -/
  | bgtz (a : BitVec 6) (o : BitVec 16)
  /-- Unconditional branch by a 16-bit parcel offset. (R89) -/
  | br (a : BitVec 6) (o : BitVec 16)
  /-- Jump by a 25-bit parcel offset. (R90) -/
  | j (o : BitVec 25)
  /-- Call by a 25-bit parcel offset, linking PC + 4 in g63. (R90) -/
  | call (o : BitVec 25)
  /-- Jump through g[a] with an alignment check. (R91) -/
  | jr (d a b : BitVec 6)
  /-- Call through g[a], linking in g[d]. (R91) -/
  | callr (d a b : BitVec 6)
  /-- Writes the address of the getpc itself to g[d]. (R91) -/
  | getpc (d a b : BitVec 6)
  /-- Reads control register n into g[d]. (R93) -/
  | rdctl (d a : BitVec 6) (n : BitVec 10)
  /-- Writes g[a] to the writable fields of control register n, returning the old value. (R93) -/
  | wrctl (d a : BitVec 6) (n : BitVec 10)
  /-- ORs g[a] into control register n, returning the old value. (R93) -/
  | setctl (d a : BitVec 6) (n : BitVec 10)
  /-- Clears the bits of g[a] in control register n, returning the old value. (R93) -/
  | clrctl (d a : BitVec 6) (n : BitVec 10)
  /-- Stalls until OL, OS, OC and OT are all at or below their limits. (R95) -/
  | wait (d a b : BitVec 6) (ot : BitVec 6)
  /-- Requests a TRAPI trap with code n, resuming after the instruction. (R97) -/
  | trapi (d a b : BitVec 6)
  /-- Breakpoint trap BRK at the instruction. (R97) -/
  | brk (d a b : BitVec 6)
  /-- Returns from a trap, restoring tstat, prog and PC. (R98) -/
  | tret (d a b : BitVec 6)
  /-- Waits for own stores, then discards fetched parcels and invalidates the instruction cache. (R99) -/
  | ifence (d a b : BitVec 6)
  /-- Stalls until an interrupt is pending or g[a] ticks pass. (R100) -/
  | idle (d a b : BitVec 6)
  /-- Moves g[d] into operand-extension register x[n]. (R101) -/
  | movx (d : BitVec 6) (x : BitVec 3) (i : BitVec 13)
  /-- Moves x[n] into g[d]. (R101) -/
  | movg (d : BitVec 6) (x : BitVec 3) (i : BitVec 13)
  /-- Plain 8-byte load into x[n]. (R101) -/
  | ldx (d : BitVec 6) (x : BitVec 3) (i : BitVec 13)
  /-- Writes g[d] plus a 13-bit immediate into x[n]. (R101) -/
  | addx (d : BitVec 6) (x : BitVec 3) (i : BitVec 13)
  /-- binary32 add per active lane. (R109) -/
  | fadd (f : VF)
  /-- binary32 subtract per active lane. (R109) -/
  | fsub (f : VF)
  /-- binary32 multiply per active lane. (R109) -/
  | fmul (f : VF)
  /-- binary32 divide, long form run in four lane groups under ctl.prog. (R108) -/
  | fdiv (f : VF)
  /-- binary32 square root, long form in four lane groups. (R108) -/
  | fsqrt (f : VF)
  /-- binary32 minimum with the VZ9 NaN rules. (R110) -/
  | fmin (f : VF)
  /-- binary32 maximum with the VZ9 NaN rules. (R110) -/
  | fmax (f : VF)
  /-- Clears the sign bit. (R109) -/
  | fabs (f : VF)
  /-- Inverts the sign bit. (R109) -/
  | fneg (f : VF)
  /-- Takes the sign bit of b. (R109) -/
  | fsgn (f : VF)
  /-- Rounds to an integral value in RM. (R109) -/
  | fround (f : VF)
  /-- Fused a × b + d. (R111) -/
  | fmac (f : VF)
  /-- Fused a × b − d. (R111) -/
  | fmsc (f : VF)
  /-- Fused −(a × b) + d. (R111) -/
  | fnmac (f : VF)
  /-- Fused −(a × b) − d. (R111) -/
  | fnmsc (f : VF)
  /-- Fused Horner step d × a + b. (R111) -/
  | fmah (f : VF)
  /-- Fused d × a + b with b a trailing literal word. (R111) -/
  | fmahLit (d a b : BitVec 5) (k : BitVec 3) (l : Word32)
  /-- Fused d × a − b. (R111) -/
  | fmsh (f : VF)
  /-- Fused −(d × a) + b. (R111) -/
  | fnmah (f : VF)
  /-- Fused −(d × a) − b. (R111) -/
  | fnmsh (f : VF)
  /-- binary16 or bfloat16 add per element. (R113) -/
  | fadd16 (f : VF) (bf : Bool)
  /-- binary16 or bfloat16 subtract per element. (R113) -/
  | fsub16 (f : VF) (bf : Bool)
  /-- binary16 or bfloat16 multiply per element. (R113) -/
  | fmul16 (f : VF) (bf : Bool)
  /-- binary16 or bfloat16 minimum. (R113) -/
  | fmin16 (f : VF) (bf : Bool)
  /-- binary16 or bfloat16 maximum. (R113) -/
  | fmax16 (f : VF) (bf : Bool)
  /-- binary16 or bfloat16 fused a × b + d. (R113) -/
  | fmac16 (f : VF) (bf : Bool)
  /-- binary16 or bfloat16 fused −(a × b) + d. (R113) -/
  | fnmac16 (f : VF) (bf : Bool)
  /-- binary16 or bfloat16 fused d × a + b. (R113) -/
  | fmah16 (f : VF) (bf : Bool)
  /-- Broadcasts a 20-bit binary32 immediate to all lanes. (R114) -/
  | vmovImm (d : BitVec 5) (i : BitVec 20)
  /-- Horner step with the pair register as multiplicand and a 20-bit immediate addend. (R112) -/
  | fmahImm (d : BitVec 5) (i : BitVec 20)
  /-- binary32 compare of lanes into a mask register. (R115) -/
  | fcmp (f : VF) (c : BitVec 3)
  /-- i32 or n32 compare of lanes into a mask register. (R115) -/
  | icmp (f : VF) (c : BitVec 3)
  /-- Selects per lane between va and b under mask k. (R116) -/
  | vsel (f : VF)
  /-- Mask AND. (R116) -/
  | kand (f : VF)
  /-- Mask OR. (R116) -/
  | kor (f : VF)
  /-- Mask XOR. (R116) -/
  | kxor (f : VF)
  /-- Mask AND NOT. (R116) -/
  | kandn (f : VF)
  /-- Mask complement. (R116) -/
  | knot (f : VF)
  /-- Narrows two binary32 registers into binary16 elements. (R117) -/
  | fcvtF16F32 (f : VF)
  /-- Narrows two binary32 registers into bfloat16 elements. (R117) -/
  | fcvtBf16F32 (f : VF)
  /-- Widens half h of binary16 elements to binary32. (R117) -/
  | fcvtF32F16 (f : VF)
  /-- Widens half h of bfloat16 elements to binary32. (R117) -/
  | fcvtF32Bf16 (f : VF)
  /-- binary32 to i32, rounded in RM. (R117) -/
  | fcvtI32F32 (f : VF)
  /-- binary32 to i32, truncated. (R117) -/
  | fcvtI32F32Z (f : VF)
  /-- binary32 to n32, rounded in RM. (R117) -/
  | fcvtN32F32 (f : VF)
  /-- binary32 to n32, truncated. (R117) -/
  | fcvtN32F32Z (f : VF)
  /-- i32 to binary32. (R117) -/
  | fcvtF32I32 (f : VF)
  /-- n32 to binary32. (R117) -/
  | fcvtF32N32 (f : VF)
  /-- Narrows lanes to signed bytes of quarter q. (R118) -/
  | vnarrowI8 (f : VF)
  /-- Narrows lanes to unsigned bytes of quarter q. (R118) -/
  | vnarrowN8 (f : VF)
  /-- Sign-extends bytes of quarter q into lanes. (R118) -/
  | vwidenI8 (f : VF)
  /-- Zero-extends bytes of quarter q into lanes. (R118) -/
  | vwidenN8 (f : VF)
  /-- Quantizes 32 binary32 values into q4 block q with the given scale byte. (R120) -/
  | vq4 (f : VF) (q : BitVec 2)
  /-- Quantizes into q4 block q, choosing the exponent and writing the scale byte. (R120) -/
  | vq4a (f : VF) (q : BitVec 2)
  /-- Dequantizes half h of q4 block q into binary32 lanes. (R121) -/
  | vdq4 (f : VF)
  /-- i32 lane add, saturating with SAT. (R122) -/
  | vadd (f : VF)
  /-- i32 lane subtract. (R122) -/
  | vsub (f : VF)
  /-- Low 32 bits of the lane product. (R122) -/
  | vmul (f : VF)
  /-- High 32 bits of the signed lane product. (R122) -/
  | vmulh (f : VF)
  /-- Signed lane minimum. (R122) -/
  | vmin (f : VF)
  /-- Signed lane maximum. (R122) -/
  | vmax (f : VF)
  /-- Unsigned lane minimum. (R122) -/
  | vminu (f : VF)
  /-- Unsigned lane maximum. (R122) -/
  | vmaxu (f : VF)
  /-- Lane AND. (R122) -/
  | vand (f : VF)
  /-- Lane OR. (R122) -/
  | vor (f : VF)
  /-- Lane XOR. (R122) -/
  | vxor (f : VF)
  /-- Lane AND NOT. (R122) -/
  | vandn (f : VF)
  /-- Lane shift left. (R122) -/
  | vshl (f : VF)
  /-- Lane logical shift right. (R122) -/
  | vshr (f : VF)
  /-- Lane arithmetic shift right. (R122) -/
  | vsar (f : VF)
  /-- Lane absolute value. (R122) -/
  | vabs (f : VF)
  /-- i16 element add. (R122) -/
  | vaddI16 (f : VF)
  /-- i16 element subtract. (R122) -/
  | vsubI16 (f : VF)
  /-- Signed-by-signed four-way byte dot product accumulated into vd. (R123) -/
  | vdot4Ss (f : VF)
  /-- Unsigned-by-unsigned four-way byte dot product. (R123) -/
  | vdot4Uu (f : VF)
  /-- Unsigned-by-signed four-way byte dot product. (R123) -/
  | vdot4Us (f : VF)
  /-- Lane permute by indices in b. (R124) -/
  | vperm (f : VF)
  /-- Broadcasts lane n. (R124) -/
  | vbcast (f : VF)
  /-- Slides lanes up by n, filling zero. (R124) -/
  | vslup (f : VF)
  /-- Slides lanes down by n, filling zero. (R124) -/
  | vsldn (f : VF)
  /-- Rotates lanes by n. (R124) -/
  | vrot (f : VF)
  /-- Reverses lane order. (R124) -/
  | vrev (f : VF)
  /-- Interleaves the low halves of va and b. (R124) -/
  | vzipLo (f : VF)
  /-- Interleaves the high halves of va and b. (R124) -/
  | vzipHi (f : VF)
  /-- Gathers even lanes of va and b. (R124) -/
  | vuzpEv (f : VF)
  /-- Gathers odd lanes of va and b. (R124) -/
  | vuzpOd (f : VF)
  /-- Fixed-tree binary32 sum of active lanes into lane 0. (R125) -/
  | fsum (f : VF)
  /-- Fixed-tree binary32 maximum reduction. (R125) -/
  | fmaxr (f : VF)
  /-- Fixed-tree binary32 minimum reduction. (R125) -/
  | fminr (f : VF)
  /-- Exact i32 sum reduction, wrapped or saturated. (R125) -/
  | isum (f : VF)
  /-- Signed maximum reduction. (R125) -/
  | imaxr (f : VF)
  /-- Signed minimum reduction. (R125) -/
  | iminr (f : VF)
  /-- Unsigned maximum reduction. (R125) -/
  | imaxur (f : VF)
  /-- Unsigned minimum reduction. (R125) -/
  | iminur (f : VF)
  /-- 8-bit reciprocal estimate. (R126) -/
  | frcp (f : VF)
  /-- 8-bit reciprocal square-root estimate. (R127) -/
  | frsqrt (f : VF)
  /-- Moves the b operand into vd per active lane. (R128) -/
  | vmov (f : VF)
  /-- Moves a trailing literal word into every active lane. (R128) -/
  | vmovLit (d a b : BitVec 5) (k : BitVec 3) (l : Word32)
  /-- Broadcasts the low 32 bits of a general register. (R128) -/
  | vbcg (f : VF)
  /-- Inserts the low 32 bits of a general register into lane n. (R128) -/
  | vins (f : VF)
  /-- Extracts lane n sign-extended into a general register. (R128) -/
  | vext (f : VF)
  /-- Extracts lane n zero-extended into a general register. (R128) -/
  | vextu (f : VF)
  /-- Moves a mask into a general register. (R128) -/
  | kmovg (f : VF)
  /-- Moves the low 16 bits of a general register into a mask. (R128) -/
  | kmovk (f : VF)
  /-- Plain sign-extending load of 1, 2, 4 or 8 bytes. (R140) -/
  | ld (d b : BitVec 6) (s : BitVec 2) (w : BitVec 4) (o : BitVec 6)
  /-- Plain 64-byte load into a vector register. (R140) -/
  | ldV (d : BitVec 5) (b : BitVec 6) (w : BitVec 4) (o : BitVec 6)
  /-- Plain zero-extending load of 1, 2, 4 or 8 bytes. (R140) -/
  | ldu (d b : BitVec 6) (s : BitVec 2) (w : BitVec 4) (o : BitVec 6)
  /-- Store of 1, 2, 4 or 8 bytes, witness to w[w]. (R141) -/
  | st (d b : BitVec 6) (s : BitVec 2) (w : BitVec 4) (o : BitVec 6)
  /-- Store of 64 bytes from a vector register. (R141) -/
  | stV (d : BitVec 5) (b : BitVec 6) (w : BitVec 4) (o : BitVec 6)
  /-- Witness-ordered load read at the home after w[w] is satisfied. (R143) -/
  | ldw (d b : BitVec 6) (s : BitVec 2) (w : BitVec 4) (o : BitVec 6)
  /-- Witness-ordered 64-byte vector load. (R143) -/
  | ldwV (d : BitVec 5) (b : BitVec 6) (w : BitVec 4) (o : BitVec 6)
  /-- Stamp-checked load returning the region stamp in g[gs], or trap STALE. (R144) -/
  | ldc (d b : BitVec 6) (s : BitVec 2) (w : BitVec 4) (o : BitVec 6)
  /-- Stamp-checked 64-byte vector load. (R144) -/
  | ldcV (d : BitVec 5) (b : BitVec 6) (w : BitVec 4) (o : BitVec 6)
  /-- Gathers 4-byte lanes from g[b] + offsets, optionally ordered by w[n]. (R145) -/
  | vgather (f : VF) (n : BitVec 4)
  /-- Scatters 4-byte lanes, merging their witnesses into w[n]. (R145) -/
  | vscatter (f : VF) (n : BitVec 4)
  /-- Merges two witnesses. (R146) -/
  | wmerge (d a b : BitVec 6)
  /-- Copies a witness register into a general register unchecked. (R138) -/
  | wmovg (d a b : BitVec 6)
  /-- Copies a general register into a witness register unchecked. (R138) -/
  | wmovw (d a b : BitVec 6)
  /-- Stalls until w[a] is satisfied. (R147) -/
  | wwait (d a b : BitVec 6)
  /-- Waits for OS = 0 and writes the fence witness FW. (R147) -/
  | wfence (d a b : BitVec 6)
  /-- Writes 1 if w[a] is satisfied, else 0. (R139) -/
  | wtest (d a b : BitVec 6)
  /-- Atomic swap at the home. (R148) -/
  | amoSwap (d b : BitVec 6) (dw : Bool) (w : BitVec 4) (win : Bool)
  /-- Atomic compare-and-swap with the register pair. (R148) -/
  | amoCas (d b : BitVec 6) (dw : Bool) (w : BitVec 4) (win : Bool)
  /-- Atomic wrapping add. (R148) -/
  | amoAdd (d b : BitVec 6) (dw : Bool) (w : BitVec 4) (win : Bool)
  /-- Atomic AND. (R148) -/
  | amoAnd (d b : BitVec 6) (dw : Bool) (w : BitVec 4) (win : Bool)
  /-- Atomic OR. (R148) -/
  | amoOr (d b : BitVec 6) (dw : Bool) (w : BitVec 4) (win : Bool)
  /-- Atomic XOR. (R148) -/
  | amoXor (d b : BitVec 6) (dw : Bool) (w : BitVec 4) (win : Bool)
  /-- Atomic signed minimum. (R148) -/
  | amoMin (d b : BitVec 6) (dw : Bool) (w : BitVec 4) (win : Bool)
  /-- Atomic signed maximum. (R148) -/
  | amoMax (d b : BitVec 6) (dw : Bool) (w : BitVec 4) (win : Bool)
  /-- Atomic unsigned minimum. (R148) -/
  | amoMinu (d b : BitVec 6) (dw : Bool) (w : BitVec 4) (win : Bool)
  /-- Atomic unsigned maximum. (R148) -/
  | amoMaxu (d b : BitVec 6) (dw : Bool) (w : BitVec 4) (win : Bool)
  /-- Atomic binary32 add, round to nearest even. (R148) -/
  | amoFadd (d b : BitVec 6) (w : BitVec 4) (win : Bool)
  /-- Takes the oldest filled drawer slot, suspending when none is filled. (R150) -/
  | dtake (d a b : BitVec 6)
  /-- Takes a filled slot or returns 0. (R150) -/
  | dtakeTry (d a b : BitVec 6)
  /-- Frees the oldest taken drawer slot. (R150) -/
  | dfree (d a b : BitVec 6)
  /-- Claims a free drawer slot, stalling while none is free. (R150) -/
  | dclaim (d a b : BitVec 6)
  /-- Claims a free slot or returns 0. (R150) -/
  | dclaimTry (d a b : BitVec 6)
  /-- Posts the oldest claimed slot with witness w[b]. (R150) -/
  | dpost (d a b : BitVec 6)
  /-- Reads DSTATE with EN in bit 63. (R150) -/
  | dprobe (d a b : BitVec 6)
  /-- Joins a bench-wide rotate of shelf tiles to the next core. (R153) -/
  | rrot (d a b : BitVec 6)
  /-- Joins a bench-wide rotate of shelf tiles to the previous core. (R153) -/
  | rrotDn (d a b : BitVec 6)
  /-- Prefetches a DRAM line into the read cache. (R154) -/
  | pfRc (d a b : BitVec 6)
  /-- Prefetches a DRAM line into its home slice. (R154) -/
  | pfL2 (d a b : BitVec 6)
  /-- Invalidates one read-cache line. (R154) -/
  | rcinv (d a b : BitVec 6)
  /-- Invalidates the whole read cache. (R154) -/
  | rcinvAll (d a b : BitVec 6)
  /-- Creates a READY child record and hands it to a thief or the deque. (R161) -/
  | spawn (d a b : BitVec 6)
  /-- Completes with JWIT when COUNT is 0, else suspends as WAITER. (R163) -/
  | join (d a b : BitVec 6)
  /-- Suspends READY at the oldest end of the core's deque. (R165) -/
  | yield (d a b : BitVec 6)
  /-- Ends the task, reaping ops and updating the join block. (R164) -/
  | exit (d a b : BitVec 6)
  /-- Sends an active message, stalling while the mailbox priority is full. (R167) -/
  | send (d a b : BitVec 6)
  /-- Sends an active message or returns 0. (R167) -/
  | sendTry (d a b : BitVec 6)
  /-- Suspends until a matching WT = 1 message arrives. (R169) -/
  | recv (d a b : BitVec 6)
  /-- Sets a task-table blocked bit. (R170) -/
  | tbset (d a b : BitVec 6)
  /-- Clears a task-table blocked bit. (R170) -/
  | tbclr (d a b : BitVec 6)
  /-- Reads a task-table blocked bit. (R170) -/
  | tbrd (d a b : BitVec 6)
  /-- Advances a job's generation and broadcasts it to the benches. (R171) -/
  | cancel (d a b : BitVec 6)
  /-- Reports whether the task's generation is stale. (R172) -/
  | ccheck (d a b : BitVec 6)
  /-- As ccheck, trapping CANCEL when stale. (R172) -/
  | ccheckX (d a b : BitVec 6)
  /-- Joins a bench barrier with a participant mask. (R174) -/
  | bbar (d a b : BitVec 6)
  /-- Waits for OS = 0 and for the epoch witness of Ecur. (R175) -/
  | mbar (d a b : BitVec 6)
  /-- Adds to a signal counter of a core if its reset generation matches. (R176) -/
  | sigb (d a b : BitVec 6)
  /-- Stalls until an own signal counter reaches an amount, then subtracts it. (R176) -/
  | swait (d a b : BitVec 6)
  /-- Reads a core's reset generation. (R176) -/
  | rgen (d a b : BitVec 6)
  /-- Suspends until cycle C + n of the task's class starts. (R177) -/
  | cwait (d a b : BitVec 6)
  /-- Reads the current cycle number of a class. (R237) -/
  | rdcyc (d a b : BitVec 6)
  /-- Stalls until the horizon exceeds g[a]. (R178) -/
  | hwait (d a b : BitVec 6)
  /-- Reads the horizon of the task's class at the bench node. (R255) -/
  | rdhor (d a b : BitVec 6)
  /-- Reads V at the bench node. (R316) -/
  | rdvis (d a b : BitVec 6)
  /-- Sets the stamp of a memory region to min(g[b], TS). (R180) -/
  | stset (d a b : BitVec 6)
  /-- Returns the age of a stamp region. (R180) -/
  | stchk (d a b : BitVec 6)
  /-- Returns the age of a region, trapping STALE when stale. (R180) -/
  | stchkX (d a b : BitVec 6)
  /-- Lowers the task stamp to min(TS, g[a]). (R179) -/
  | tsmin (d a b : BitVec 6)
  /-- Reads the task stamp. (R179) -/
  | tsrd (d a b : BitVec 6)
  /-- Publishes an output region with stamp min(g[b], TS). (R181) -/
  | pub (d a b : BitVec 6)
  /-- Pushes a four-word command, stalling for a slot or FIFO room. (R191) -/
  | cq (d : BitVec 6) (x : BitVec 3)
  /-- Pushes a four-word command or returns 0. (R191) -/
  | cqTry (d : BitVec 6) (x : BitVec 3)
  /-- Pushes a tensor copy op. (R194) -/
  | copy (d : BitVec 6) (x : BitVec 3) (det : Bool) (q : BitVec 2)
  /-- Pushes a reducing copy op. (R196) -/
  | copyRed (d : BitVec 6) (x : BitVec 3) (det : Bool) (q : BitVec 2) (rop : BitVec 4)
  /-- Pushes a multicast copy op. (R194) -/
  | copyMc (d : BitVec 6) (x : BitVec 3) (det : Bool) (q : BitVec 2)
  /-- Pushes a Beryl weight-slot load. (R200) -/
  | bwl (d : BitVec 6) (x : BitVec 3) (g : BitVec 6) (q : BitVec 2) (slot : BitVec 3) (det : Bool)
  /-- Pushes a Beryl matrix multiply. (R201) -/
  | bmm (d : BitVec 6) (x : BitVec 3) (g : BitVec 6) (q : BitVec 2) (slot : BitVec 3) (tile : BitVec 2) (det : Bool)
  /-- Pushes a Beryl accumulator drain. (R202) -/
  | bdr (d : BitVec 6) (x : BitVec 3) (g : BitVec 6) (q : BitVec 2) (clr raw : Bool) (tile : BitVec 2) (mode det : Bool)
  /-- Pushes a Beryl tile clear. (R202) -/
  | bclr (d : BitVec 6) (x : BitVec 3) (g : BitVec 6) (q : BitVec 2) (clr raw : Bool) (tile : BitVec 2) (mode det : Bool)
  /-- Waits for an op to end, suspending, then reaps it if owned. (R206) -/
  | twait (d a b : BitVec 6)
  /-- Stalls until an op ends, then reaps it if owned. (R206) -/
  | twaitS (d a b : BitVec 6)
  /-- Returns an op's state, DET and PRI. (R206) -/
  | tpoll (d a b : BitVec 6)
  /-- Cancels an op. (R207) -/
  | tcancel (d a b : BitVec 6)
  /-- Detaches an owned op. (R208) -/
  | tdet (d a b : BitVec 6)
  /-- Adopts a detached op. (R208) -/
  | tadopt (d a b : BitVec 6)
  /-- Changes the priority of a live op. (R208) -/
  | tpri (d a b : BitVec 6)
  /-- Places fence markers in the named copy and Beryl queues. (R205) -/
  | qfence (d a b : BitVec 6)
  /-- Reads word n of an op's fault record. (R210) -/
  | tfrec (d a n : BitVec 6)
  /-- An access arrives at its home, is given a sequence number and performed. (R314) -/
  | accessAtHome (id : Nat) (ages : List Nat)
  /-- Load data arrive and are written to the destination, decrementing OL. (R132) -/
  | loadReply (id : Nat)
  /-- A store's witness is written to w[w] and merged into FW, decrementing OS. (R141) -/
  | witnessReturn (id : Nat)
  /-- A store setting EN enables a drawer and resets its state if the layout fits. (R149) -/
  | drawerEnable (core n : Nat)
  /-- A store clearing EN disables a drawer and readies its dtake waiters. (R149) -/
  | drawerDisable (core n : Nat)
  /-- A store to a stamp-table region validates, invalidates or updates it. (R245) -/
  | stampRegionWrite (tenant region word : Nat) (v : Word)
  /-- A command leaves the core FIFO and enters its engine queue. (R280) -/
  | commandEnqueue (core : Nat)
  /-- A queue-head copy whose WIT is satisfied reads and judges its descriptor. (R197) -/
  | copyDescRead (op : Nat)
  /-- The governor grants a waiting request once it fits. (R383) -/
  | leaveGrant (die : Nat)
  /-- The engine starts the chosen ready queue head. (R204) -/
  | opStart (bench engine : Nat)
  /-- A copy checks and writes one chunk whole, faults or suspends. (R195) -/
  | copyChunk (op : Nat)
  /-- A home applies a reducing chunk's line once, keeping an apply record. (R289) -/
  | reduceApply (op line : Nat)
  /-- A step refused RETRY is resent after 32 ticks. (R291) -/
  | applyRetry (op line : Nat)
  /-- A fully acknowledged chunk is closed and CLOSE frees its records. (R290) -/
  | chunkClose (op : Nat)
  /-- A drawer copy suspended on FREE = 0 claims a slot once one frees. (R197) -/
  | copyClaimResume (op : Nat)
  /-- A running weight load, multiply, drain or clear finishes on the engine. (R203) -/
  | berylOpComplete (op : Nat)
  /-- An op ends once all its writes are performed, forming WITN and releasing waiters. (R186) -/
  | opEnd (op : Nat)
  /-- A push stalled 2^20 ticks traps ENGINE_STARVED. (R191) -/
  | engineStarved (t : Nat)
  /-- A spawn stalled 2^20 ticks on a full pool traps ENGINE_STARVED. (R296) -/
  | spawnStarved (t : Nat)
  /-- The tick limit of an idle expires and it completes with 0. (R100) -/
  | idleTimeout (t : Nat)
  /-- A pending interrupt is taken at a boundary with S = 0. (R347) -/
  | interrupt (t : Nat)
  /-- A host doorbell write makes INT pending for a thread. (R376) -/
  | hostDoorbell (tenant t : Nat)
  /-- The steward fails a parked task and sends a failure message. (R350) -/
  | taskFail (t : Nat)
  /-- A due pre-emption saves the context and writes the record. (R352) -/
  | preempt (t : Nat)
  /-- A free thread takes the first candidate of the dispatch order. (R301) -/
  | threadDispatch (core : Nat)
  /-- The sample period expires and a PC sample record is written. (R388) -/
  | traceSample (t : Nat)
  /-- A candidate waiting 256 ticks without a free thread is offered to its domain. (R302) -/
  | candidateForward (core slot thief : Nat)
  /-- A core idle without candidates for 32 ticks sends a steal request. (R303) -/
  | thiefStart (core : Nat)
  /-- A steal request arrives at a victim and waits or is refused. (R303) -/
  | stealRequest (core : Nat)
  /-- A request waiting 2,048 ticks is withdrawn and the thief moves on. (R303) -/
  | stealWithdraw (core : Nat)
  /-- After the last victim the thief waits 4,096 ticks and starts again. (R303) -/
  | thiefBackoffEnd (core : Nat)
  /-- A rank-3 candidate waiting 2^16 ticks is aged ahead of others. (R309) -/
  | candidateAgeing (core slot : Nat)
  /-- A message arrives at the destination mailbox and is accepted, refused, delivered or held. (R305) -/
  | messageArrival (id : Nat)
  /-- A cancel's new generation reaches a bench and ends its suspended tasks of the job. (R308) -/
  | cancelBroadcast (tenant job bench : Nat)
  /-- A signal add arrives at the target bench controller. (R176) -/
  | signalAdd (id : Nat)
  /-- A launch record written to a launch window creates READY records on the named cores. (R306) -/
  | launchRecord (tenant window offset : Nat) (bytes : List Byte)
  /-- A zero write to the launch window status line clears BADLNCH. (R379) -/
  | badlnchClear (tenant window : Nat)
  /-- A host answer with a known sequence answers a service, cancel or policy request. (R374) -/
  | hostAnswer (tenant : Nat) (seq answer : Word)
  /-- A 256-byte configuration request is taken by the stewards. (R380) -/
  | configMailboxRequest (r : CfgReq)
  /-- A host read or write of image SRAM through a tenant's windows. (R378) -/
  | hostImageAccess (tenant offset len : Nat) (data : Option (List Byte))
  /-- A buffered host or peer store is sent out once committed and acknowledged. (R257) -/
  | releaseBufferSend
  /-- The pager answers MAPPED and every held requester walks again. (R337) -/
  | pageMapped (req : Nat)
  /-- The pager answers REFUSED and held requesters fault XLAT_PERM. (R337) -/
  | pageRefused (req : Nat)
  /-- Invalidates translations and drains accesses for a changed range. (R339) -/
  | shootdown (tenant va len : Nat)
  /-- The steward moves a page into a gated bench's shelf. (R340) -/
  | spareShelfMove (tenant va core i : Nat)
  /-- A MIG page moves between packages. (R341) -/
  | migrationMove (tenant va : Nat)
  /-- After 16 ms a SETTLED page is unsettled and its count reset. (R342) -/
  | settleExpiry (tenant va : Nat)
  /-- Ecur advances by 1 every 400 ticks. (R316) -/
  | epochAdvance
  /-- The root publishes V once all accesses of an epoch are performed. (R316) -/
  | visibilityPublish
  /-- The root publishes the eight horizons with V every 250 ns. (R255) -/
  | horizonPublish (bench : Nat)
  /-- A cycle of a running class starts. (R237) -/
  | cycleStart (n : Nat)
  /-- A received frame is admitted to a filling bank or dropped and counted. (R240) -/
  | frameIngress (f : Frame)
  /-- At the cut-off, each egress entry snapshots its region's bytes and stamp. (R249) -/
  | pubCutoff (n : Nat)
  /-- Each taking-part entry sends one frame, committed, repeated or fallback. (R249) -/
  | publishInstant (n : Nat)
  /-- A gPTP offset correction slews or steps package time. (R233) -/
  | timeCorrection (ns : Int)
  /-- No valid sync for 3 intervals puts T into holdover. (R233) -/
  | holdoverEntry
  /-- A write setting EN starts a class if its parameters are valid. (R235) -/
  | classStart (n : Nat) (v : Word)
  /-- A write clearing EN stops a class and releases its waiting work. (R236) -/
  | classStop (n : Nat)
  /-- A budget account reaches 0 and the 10 µs grace begins. (R252) -/
  | budgetExhausted (tenant entry : Nat)
  /-- The grace ends and a still-running task is pre-empted STOPPED. (R252) -/
  | budgetGraceEnd (t : Nat)
  /-- A recovery mark opens every MPER × 31.25 µs. (R258) -/
  | recoveryMarkOpen
  /-- A mark closes once every open item has crossed it. (R258) -/
  | recoveryMarkClose
  /-- A mark open 1 ms pre-empts the segments holding it. (R258) -/
  | markHoldTimeout
  /-- An uncorrectable error rolls the package back to the last closed mark. (R260) -/
  | machineCheck (addr : Nat)
  /-- A steward write to ctl.pair sets role and judges LAGMAX, LOSS and HBI. (R264) -/
  | pairWrite (v : Word)
  /-- A LOG flit delivers up to three order-log entries to the standby. (R267) -/
  | logFlit (h : FlitHdr) (es : List LogEntry)
  /-- A PROG flit delivers progress marks that let standby threads pass suspension points. (R265) -/
  | progFlit (h : FlitHdr) (ts : List Nat)
  /-- An ACK flit updates the primary's ctl.lack. (R266) -/
  | ackFlit (h : FlitHdr) (pos : Word)
  /-- A HEART flit carries log position, time, role, READY, instants and V. (R267) -/
  | heartFlit (h : FlitHdr) (b : HeartBody)
  /-- The standby asks for a latched bank it could not match. (R267) -/
  | fillReq (h : FlitHdr) (pos tenant region : Nat)
  /-- A FILL flit delivers 32 bytes of a latched bank. (R267) -/
  | fillFlit (h : FlitHdr) (pos tenant region offset : Nat) (data : List Byte)
  /-- The primary's frame CRC is compared with the standby's built frame. (R265) -/
  | fcrcFlit (h : FlitHdr) (entry : Nat) (cycle : Word) (crc : Word32)
  /-- A PEER flit is received over the Twiral link. (R267) -/
  | peerFlit (h : FlitHdr) (payload : List Byte)
  /-- The peer resigns and the standby takes over. (R269) -/
  | resign (h : FlitHdr)
  /-- The standby acknowledges stored entries within 2 µs. (R266) -/
  | standbyAck
  /-- A HEART is sent every HBI. (R268) -/
  | heartTimer
  /-- On NAK or 2 µs without ASEQ progress the sender resends; after 16 the lanes retrain. (R268) -/
  | flitResend
  /-- Twiral lane retraining completes. (R268) -/
  | laneRetrainDone
  /-- No valid flit for LOSS clears PEER. (R268) -/
  | peerLossTimeout
  /-- An entry unacknowledged longer than LAGMAX clears READY. (R265) -/
  | lagmaxTimeout
  /-- Firmware switches a bench from one tenant to another. (R357) -/
  | tenantSwitch (bench : Nat) (tenant : Option Nat)
  /-- Setting EN locks ways and fills the region from DRAM. (R327) -/
  | l2LockEnable (v : Word)
  /-- Clearing EN writes back locked lines and frees the ways. (R327) -/
  | l2LockDisable
  /-- The fill or write-back completes and BUSY clears. (R327) -/
  | l2LockDone
  /-- The bench controller gates a bench, clearing weight slots and tiles. (R278) -/
  | benchGate (bench : Nat)
  /-- Work aimed at a gated bench wakes it and is dispatched. (R307) -/
  | benchWake (bench : Nat)
  /-- TJ ≥ 115 °C for 100 µs forces gates on benches of the die. (R386) -/
  | thermalEmergency (die tj : Nat)
  /-- Firmware lowers or raises die CAP on the 1 ms package power average. (R384) -/
  | powerCapAdjust (milliwatts : Nat)
  /-- Power good starts bring-up of the package. (R395) -/
  | packageReset
  /-- A host writes a new image in the recovery window, which Onyx verifies and programs. (R392) -/
  | firmwareRecoveryWrite (image : List Byte)
  /-- Firmware resets one core. (R396) -/
  | coreReset (core : Nat)
  /-- Firmware resets one bench and its engines. (R396) -/
  | benchReset (bench : Nat)
  /-- Debug packet halting dispatch of a job on a bench. (R391) -/
  | stopJob (id : Nat)
  /-- Debug packet ending a STOP. (R391) -/
  | goJob (id : Nat)
  /-- Debug packet reading words of a task record. (R391) -/
  | rdrec (id : Nat)
  /-- Debug packet reading a stopped job's context save area. (R391) -/
  | rdctx (id : Nat)
  /-- A debugger halts a thread through the open debug port. (R394) -/
  | debugHalt (t : Nat)
  /-- A debugger releases a halted or parked thread. (R394) -/
  | debugRelease (t : Nat)
  /-- A debugger reads or writes memory or a control register. (R394) -/
  | debugAccess (r : DebugReq)
  /-- Onyx verifies an unlock token and sets PENDING. (R365) -/
  | unlock (die : Nat)
  /-- Onyx zeroizes the named tenant key slots. (R363) -/
  | wipe (die : Nat)
  /-- Onyx burns UNLOCKCNT and LC and opens the debug port. (R367) -/
  | openPort (die : Nat)
  /-- Onyx writes a signed attestation report. (R368) -/
  | attest (die : Nat)
  /-- Onyx unwraps a tenant key into its slot. (R393) -/
  | keyload (die : Nat)
  /-- Onyx moves LC from PROVISIONED to DEPLOYED. (R393) -/
  | deploy (die : Nat)
  /-- Onyx wipes every key and moves LC to RETIRED. (R393) -/
  | retire (die : Nat)
  /-- The package loses power, possibly mid fuse burn or mid flash programming, leaving the readings the rules name. (R367) -/
  | powerLoss (burned : Nat)
  /-- A port's Qbv gate opens under its gate control list, and a frame that waited for it is transmitted. (R250) -/
  | qbvGateOpen (port : Nat)
  /-- A Twiral flit with a bad CRC, an unexpected SEQ or an unknown TYPE is discarded and counted, and the next flit sent carries NAK.
  (R268) -/
  | flitDiscard (h : FlitHdr)
  /-- A steward notice makes INT pending for a thread, with ctl.tval 0x2 when it is taken. (R376) -/
  | stewardNotice (t : Nat)
  /-- Release of the PERST# line starts the interval within which the host port must become ready for configuration requests. (R395) -/
  | perstRelease
  /-- A host PCIe configuration request is answered with Configuration Request Retry Status until the port is ready, and served normally
  after that. (R395) -/
  | pcieConfigRequest
  deriving DecidableEq, Repr

/-- Who moves next: a hardware thread issues, or an event of the package comes about. In a `part` an interrupt or a pre-emption comes
while the thread's instruction runs: one that may stop part-way (R108, R145) stops after the group or lane `last`. -/
inductive Turn where
  | thread (n : Nat)
  | part (n last : Nat)
  | event (e : Instr)
  deriving DecidableEq, Repr

end Sys2Proof
end

