-- ==== Sys2Proof/WellFormed.lean ====
section
/-! DEFINITION. Which terms are instructions: a register field lies in the range of its kind, a sub-operation is a listed
one, an escape is no immediate (R35, R37, R47, R48); an event names a thread, core, bench, die, tenant or class that exists (R11). -/

namespace Sys2Proof

/-- The b source is a literal word. -/
def VF.isLit (f : VF) : Bool :=
  match f.src with
  | .lit _ => true
  | .reg => false
  | .bank => false

/-- The constructor is an event of the package, with no encoding. -/
def Instr.isEvent : Instr → Bool
  | .mov16 _ _ => false
  | .addi16 _ _ => false
  | .add16 _ _ => false
  | .ldD16 _ _ _ => false
  | .stD16 _ _ _ => false
  | .bz16 _ _ => false
  | .bnz16 _ _ => false
  | .j16 _ => false
  | .shl16 _ _ => false
  | .shr16 _ _ => false
  | .sar16 _ _ => false
  | .ror16 _ _ => false
  | .cmp16 _ _ _ => false
  | .wait16 _ _ => false
  | .jr16 _ => false
  | .callr16 _ => false
  | .nop => false
  | .fmt _ _ _ _ _ => false
  | .add _ _ _ => false
  | .sub _ _ _ => false
  | .and _ _ _ => false
  | .or _ _ _ => false
  | .xor _ _ _ => false
  | .andn _ _ _ => false
  | .orn _ _ _ => false
  | .xnor _ _ _ => false
  | .shl _ _ _ => false
  | .shr _ _ _ => false
  | .sar _ _ _ => false
  | .ror _ _ _ => false
  | .shli _ _ _ => false
  | .shri _ _ _ => false
  | .sari _ _ _ => false
  | .rori _ _ _ => false
  | .addW _ _ _ => false
  | .subW _ _ _ => false
  | .shlW _ _ _ => false
  | .shrW _ _ _ => false
  | .sarW _ _ _ => false
  | .rorW _ _ _ => false
  | .addS _ _ _ => false
  | .subS _ _ _ => false
  | .addUs _ _ _ => false
  | .subUs _ _ _ => false
  | .lea2 _ _ _ => false
  | .lea4 _ _ _ => false
  | .lea8 _ _ _ => false
  | .lea16 _ _ _ => false
  | .lea64 _ _ _ => false
  | .mul _ _ _ => false
  | .mulh _ _ _ => false
  | .mulhu _ _ _ => false
  | .mulhsu _ _ _ => false
  | .mulW _ _ _ => false
  | .mulS _ _ _ => false
  | .div _ _ _ => false
  | .divu _ _ _ => false
  | .rem _ _ _ => false
  | .remu _ _ _ => false
  | .divW _ _ _ => false
  | .divuW _ _ _ => false
  | .remW _ _ _ => false
  | .remuW _ _ _ => false
  | .cmp _ _ _ _ => false
  | .min _ _ _ => false
  | .max _ _ _ => false
  | .minu _ _ _ => false
  | .maxu _ _ _ => false
  | .movz _ _ _ => false
  | .movnz _ _ _ => false
  | .clz _ _ _ => false
  | .ctz _ _ _ => false
  | .popc _ _ _ => false
  | .rev8 _ _ _ => false
  | .rev8W _ _ _ => false
  | .bfx _ _ _ => false
  | .bfxs _ _ _ => false
  | .bfi _ _ _ => false
  | .addi _ _ _ => false
  | .addiLit32 _ _ _ => false
  | .addiLit64 _ _ _ => false
  | .andi _ _ _ => false
  | .andiLit32 _ _ _ => false
  | .andiLit64 _ _ _ => false
  | .ori _ _ _ => false
  | .oriLit32 _ _ _ => false
  | .oriLit64 _ _ _ => false
  | .xori _ _ _ => false
  | .xoriLit32 _ _ _ => false
  | .xoriLit64 _ _ _ => false
  | .ldcb _ _ _ _ => false
  | .movi _ _ => false
  | .bz _ _ => false
  | .bnz _ _ => false
  | .bltz _ _ => false
  | .bgez _ _ => false
  | .blez _ _ => false
  | .bgtz _ _ => false
  | .br _ _ => false
  | .j _ => false
  | .call _ => false
  | .jr _ _ _ => false
  | .callr _ _ _ => false
  | .getpc _ _ _ => false
  | .rdctl _ _ _ => false
  | .wrctl _ _ _ => false
  | .setctl _ _ _ => false
  | .clrctl _ _ _ => false
  | .wait _ _ _ _ => false
  | .trapi _ _ _ => false
  | .brk _ _ _ => false
  | .tret _ _ _ => false
  | .ifence _ _ _ => false
  | .idle _ _ _ => false
  | .movx _ _ _ => false
  | .movg _ _ _ => false
  | .ldx _ _ _ => false
  | .addx _ _ _ => false
  | .fadd _ => false
  | .fsub _ => false
  | .fmul _ => false
  | .fdiv _ => false
  | .fsqrt _ => false
  | .fmin _ => false
  | .fmax _ => false
  | .fabs _ => false
  | .fneg _ => false
  | .fsgn _ => false
  | .fround _ => false
  | .fmac _ => false
  | .fmsc _ => false
  | .fnmac _ => false
  | .fnmsc _ => false
  | .fmah _ => false
  | .fmahLit _ _ _ _ _ => false
  | .fmsh _ => false
  | .fnmah _ => false
  | .fnmsh _ => false
  | .fadd16 _ _ => false
  | .fsub16 _ _ => false
  | .fmul16 _ _ => false
  | .fmin16 _ _ => false
  | .fmax16 _ _ => false
  | .fmac16 _ _ => false
  | .fnmac16 _ _ => false
  | .fmah16 _ _ => false
  | .vmovImm _ _ => false
  | .fmahImm _ _ => false
  | .fcmp _ _ => false
  | .icmp _ _ => false
  | .vsel _ => false
  | .kand _ => false
  | .kor _ => false
  | .kxor _ => false
  | .kandn _ => false
  | .knot _ => false
  | .fcvtF16F32 _ => false
  | .fcvtBf16F32 _ => false
  | .fcvtF32F16 _ => false
  | .fcvtF32Bf16 _ => false
  | .fcvtI32F32 _ => false
  | .fcvtI32F32Z _ => false
  | .fcvtN32F32 _ => false
  | .fcvtN32F32Z _ => false
  | .fcvtF32I32 _ => false
  | .fcvtF32N32 _ => false
  | .vnarrowI8 _ => false
  | .vnarrowN8 _ => false
  | .vwidenI8 _ => false
  | .vwidenN8 _ => false
  | .vq4 _ _ => false
  | .vq4a _ _ => false
  | .vdq4 _ => false
  | .vadd _ => false
  | .vsub _ => false
  | .vmul _ => false
  | .vmulh _ => false
  | .vmin _ => false
  | .vmax _ => false
  | .vminu _ => false
  | .vmaxu _ => false
  | .vand _ => false
  | .vor _ => false
  | .vxor _ => false
  | .vandn _ => false
  | .vshl _ => false
  | .vshr _ => false
  | .vsar _ => false
  | .vabs _ => false
  | .vaddI16 _ => false
  | .vsubI16 _ => false
  | .vdot4Ss _ => false
  | .vdot4Uu _ => false
  | .vdot4Us _ => false
  | .vperm _ => false
  | .vbcast _ => false
  | .vslup _ => false
  | .vsldn _ => false
  | .vrot _ => false
  | .vrev _ => false
  | .vzipLo _ => false
  | .vzipHi _ => false
  | .vuzpEv _ => false
  | .vuzpOd _ => false
  | .fsum _ => false
  | .fmaxr _ => false
  | .fminr _ => false
  | .isum _ => false
  | .imaxr _ => false
  | .iminr _ => false
  | .imaxur _ => false
  | .iminur _ => false
  | .frcp _ => false
  | .frsqrt _ => false
  | .vmov _ => false
  | .vmovLit _ _ _ _ _ => false
  | .vbcg _ => false
  | .vins _ => false
  | .vext _ => false
  | .vextu _ => false
  | .kmovg _ => false
  | .kmovk _ => false
  | .ld _ _ _ _ _ => false
  | .ldV _ _ _ _ => false
  | .ldu _ _ _ _ _ => false
  | .st _ _ _ _ _ => false
  | .stV _ _ _ _ => false
  | .ldw _ _ _ _ _ => false
  | .ldwV _ _ _ _ => false
  | .ldc _ _ _ _ _ => false
  | .ldcV _ _ _ _ => false
  | .vgather _ _ => false
  | .vscatter _ _ => false
  | .wmerge _ _ _ => false
  | .wmovg _ _ _ => false
  | .wmovw _ _ _ => false
  | .wwait _ _ _ => false
  | .wfence _ _ _ => false
  | .wtest _ _ _ => false
  | .amoSwap _ _ _ _ _ => false
  | .amoCas _ _ _ _ _ => false
  | .amoAdd _ _ _ _ _ => false
  | .amoAnd _ _ _ _ _ => false
  | .amoOr _ _ _ _ _ => false
  | .amoXor _ _ _ _ _ => false
  | .amoMin _ _ _ _ _ => false
  | .amoMax _ _ _ _ _ => false
  | .amoMinu _ _ _ _ _ => false
  | .amoMaxu _ _ _ _ _ => false
  | .amoFadd _ _ _ _ => false
  | .dtake _ _ _ => false
  | .dtakeTry _ _ _ => false
  | .dfree _ _ _ => false
  | .dclaim _ _ _ => false
  | .dclaimTry _ _ _ => false
  | .dpost _ _ _ => false
  | .dprobe _ _ _ => false
  | .rrot _ _ _ => false
  | .rrotDn _ _ _ => false
  | .pfRc _ _ _ => false
  | .pfL2 _ _ _ => false
  | .rcinv _ _ _ => false
  | .rcinvAll _ _ _ => false
  | .spawn _ _ _ => false
  | .join _ _ _ => false
  | .yield _ _ _ => false
  | .exit _ _ _ => false
  | .send _ _ _ => false
  | .sendTry _ _ _ => false
  | .recv _ _ _ => false
  | .tbset _ _ _ => false
  | .tbclr _ _ _ => false
  | .tbrd _ _ _ => false
  | .cancel _ _ _ => false
  | .ccheck _ _ _ => false
  | .ccheckX _ _ _ => false
  | .bbar _ _ _ => false
  | .mbar _ _ _ => false
  | .sigb _ _ _ => false
  | .swait _ _ _ => false
  | .rgen _ _ _ => false
  | .cwait _ _ _ => false
  | .rdcyc _ _ _ => false
  | .hwait _ _ _ => false
  | .rdhor _ _ _ => false
  | .rdvis _ _ _ => false
  | .stset _ _ _ => false
  | .stchk _ _ _ => false
  | .stchkX _ _ _ => false
  | .tsmin _ _ _ => false
  | .tsrd _ _ _ => false
  | .pub _ _ _ => false
  | .cq _ _ => false
  | .cqTry _ _ => false
  | .copy _ _ _ _ => false
  | .copyRed _ _ _ _ _ => false
  | .copyMc _ _ _ _ => false
  | .bwl _ _ _ _ _ _ => false
  | .bmm _ _ _ _ _ _ _ => false
  | .bdr _ _ _ _ _ _ _ _ _ => false
  | .bclr _ _ _ _ _ _ _ _ _ => false
  | .twait _ _ _ => false
  | .twaitS _ _ _ => false
  | .tpoll _ _ _ => false
  | .tcancel _ _ _ => false
  | .tdet _ _ _ => false
  | .tadopt _ _ _ => false
  | .tpri _ _ _ => false
  | .qfence _ _ _ => false
  | .tfrec _ _ _ => false
  | .accessAtHome _ _ => true
  | .loadReply _ => true
  | .witnessReturn _ => true
  | .drawerEnable _ _ => true
  | .drawerDisable _ _ => true
  | .stampRegionWrite _ _ _ _ => true
  | .commandEnqueue _ => true
  | .copyDescRead _ => true
  | .leaveGrant _ => true
  | .opStart _ _ => true
  | .copyChunk _ => true
  | .reduceApply _ _ => true
  | .applyRetry _ _ => true
  | .chunkClose _ => true
  | .copyClaimResume _ => true
  | .berylOpComplete _ => true
  | .opEnd _ => true
  | .engineStarved _ => true
  | .spawnStarved _ => true
  | .idleTimeout _ => true
  | .interrupt _ => true
  | .hostDoorbell _ _ => true
  | .taskFail _ => true
  | .preempt _ => true
  | .threadDispatch _ => true
  | .traceSample _ => true
  | .candidateForward _ _ _ => true
  | .thiefStart _ => true
  | .stealRequest _ => true
  | .stealWithdraw _ => true
  | .thiefBackoffEnd _ => true
  | .candidateAgeing _ _ => true
  | .messageArrival _ => true
  | .cancelBroadcast _ _ _ => true
  | .signalAdd _ => true
  | .launchRecord _ _ _ _ => true
  | .badlnchClear _ _ => true
  | .hostAnswer _ _ _ => true
  | .configMailboxRequest _ => true
  | .hostImageAccess _ _ _ _ => true
  | .releaseBufferSend => true
  | .pageMapped _ => true
  | .pageRefused _ => true
  | .shootdown _ _ _ => true
  | .spareShelfMove _ _ _ _ => true
  | .migrationMove _ _ => true
  | .settleExpiry _ _ => true
  | .epochAdvance => true
  | .visibilityPublish => true
  | .horizonPublish _ => true
  | .cycleStart _ => true
  | .frameIngress _ => true
  | .pubCutoff _ => true
  | .publishInstant _ => true
  | .timeCorrection _ => true
  | .holdoverEntry => true
  | .classStart _ _ => true
  | .classStop _ => true
  | .budgetExhausted _ _ => true
  | .budgetGraceEnd _ => true
  | .recoveryMarkOpen => true
  | .recoveryMarkClose => true
  | .markHoldTimeout => true
  | .machineCheck _ => true
  | .pairWrite _ => true
  | .logFlit _ _ => true
  | .progFlit _ _ => true
  | .ackFlit _ _ => true
  | .heartFlit _ _ => true
  | .fillReq _ _ _ _ => true
  | .fillFlit _ _ _ _ _ _ => true
  | .fcrcFlit _ _ _ _ => true
  | .peerFlit _ _ => true
  | .resign _ => true
  | .standbyAck => true
  | .heartTimer => true
  | .flitResend => true
  | .laneRetrainDone => true
  | .peerLossTimeout => true
  | .lagmaxTimeout => true
  | .tenantSwitch _ _ => true
  | .l2LockEnable _ => true
  | .l2LockDisable => true
  | .l2LockDone => true
  | .benchGate _ => true
  | .benchWake _ => true
  | .thermalEmergency _ _ => true
  | .powerCapAdjust _ => true
  | .packageReset => true
  | .firmwareRecoveryWrite _ => true
  | .coreReset _ => true
  | .benchReset _ => true
  | .stopJob _ => true
  | .goJob _ => true
  | .rdrec _ => true
  | .rdctx _ => true
  | .debugHalt _ => true
  | .debugRelease _ => true
  | .debugAccess _ => true
  | .unlock _ => true
  | .wipe _ => true
  | .openPort _ => true
  | .attest _ => true
  | .keyload _ => true
  | .deploy _ => true
  | .retire _ => true
  | .powerLoss _ => true
  | .qbvGateOpen _ => true
  | .flitDiscard _ => true
  | .stewardNotice _ => true
  | .perstRelease => true
  | .pcieConfigRequest => true

/-- The fields lie in the ranges the formats give them. -/
def Instr.wf : Instr → Bool
  | .mov16 _ _ => true
  | .addi16 _ _ => true
  | .add16 _ _ => true
  | .ldD16 _ _ _ => true
  | .stD16 _ _ _ => true
  | .bz16 _ _ => true
  | .bnz16 _ _ => true
  | .j16 _ => true
  | .shl16 _ _ => true
  | .shr16 _ _ => true
  | .sar16 _ _ => true
  | .ror16 _ _ => true
  | .cmp16 _ _ cc => decide (cc < 6#3)
  | .wait16 _ _ => true
  | .jr16 _ => true
  | .callr16 _ => true
  | .nop => true
  | .fmt a b _ _ _ => decide (a < 6#3) && decide (b < 6#3)
  | .add _ _ _ => true
  | .sub _ _ _ => true
  | .and _ _ _ => true
  | .or _ _ _ => true
  | .xor _ _ _ => true
  | .andn _ _ _ => true
  | .orn _ _ _ => true
  | .xnor _ _ _ => true
  | .shl _ _ _ => true
  | .shr _ _ _ => true
  | .sar _ _ _ => true
  | .ror _ _ _ => true
  | .shli _ _ _ => true
  | .shri _ _ _ => true
  | .sari _ _ _ => true
  | .rori _ _ _ => true
  | .addW _ _ _ => true
  | .subW _ _ _ => true
  | .shlW _ _ _ => true
  | .shrW _ _ _ => true
  | .sarW _ _ _ => true
  | .rorW _ _ _ => true
  | .addS _ _ _ => true
  | .subS _ _ _ => true
  | .addUs _ _ _ => true
  | .subUs _ _ _ => true
  | .lea2 _ _ _ => true
  | .lea4 _ _ _ => true
  | .lea8 _ _ _ => true
  | .lea16 _ _ _ => true
  | .lea64 _ _ _ => true
  | .mul _ _ _ => true
  | .mulh _ _ _ => true
  | .mulhu _ _ _ => true
  | .mulhsu _ _ _ => true
  | .mulW _ _ _ => true
  | .mulS _ _ _ => true
  | .div _ _ _ => true
  | .divu _ _ _ => true
  | .rem _ _ _ => true
  | .remu _ _ _ => true
  | .divW _ _ _ => true
  | .divuW _ _ _ => true
  | .remW _ _ _ => true
  | .remuW _ _ _ => true
  | .cmp _ _ _ cc => decide (cc < 6#3)
  | .min _ _ _ => true
  | .max _ _ _ => true
  | .minu _ _ _ => true
  | .maxu _ _ _ => true
  | .movz _ _ _ => true
  | .movnz _ _ _ => true
  | .clz _ _ _ => true
  | .ctz _ _ _ => true
  | .popc _ _ _ => true
  | .rev8 _ _ _ => true
  | .rev8W _ _ _ => true
  | .bfx _ _ _ => true
  | .bfxs _ _ _ => true
  | .bfi _ _ _ => true
  | .addi _ _ i => i != 0x1000#13 && i != 0x1001#13
  | .addiLit32 _ _ _ => true
  | .addiLit64 _ _ _ => true
  | .andi _ _ i => i != 0x1000#13 && i != 0x1001#13
  | .andiLit32 _ _ _ => true
  | .andiLit64 _ _ _ => true
  | .ori _ _ i => i != 0x1000#13 && i != 0x1001#13
  | .oriLit32 _ _ _ => true
  | .oriLit64 _ _ _ => true
  | .xori _ _ i => i != 0x1000#13 && i != 0x1001#13
  | .xoriLit32 _ _ _ => true
  | .xoriLit64 _ _ _ => true
  | .ldcb _ _ _ _ => true
  | .movi _ _ => true
  | .bz _ _ => true
  | .bnz _ _ => true
  | .bltz _ _ => true
  | .bgez _ _ => true
  | .blez _ _ => true
  | .bgtz _ _ => true
  | .br _ _ => true
  | .j _ => true
  | .call _ => true
  | .jr _ _ _ => true
  | .callr _ _ _ => true
  | .getpc _ _ _ => true
  | .rdctl _ _ _ => true
  | .wrctl _ _ _ => true
  | .setctl _ _ _ => true
  | .clrctl _ _ _ => true
  | .wait _ _ _ _ => true
  | .trapi _ _ _ => true
  | .brk _ _ _ => true
  | .tret _ _ _ => true
  | .ifence _ _ _ => true
  | .idle _ _ _ => true
  | .movx _ _ _ => true
  | .movg _ _ _ => true
  | .ldx _ _ _ => true
  | .addx _ _ _ => true
  | .fadd _ => true
  | .fsub _ => true
  | .fmul _ => true
  | .fdiv _ => true
  | .fsqrt _ => true
  | .fmin _ => true
  | .fmax _ => true
  | .fabs _ => true
  | .fneg _ => true
  | .fsgn _ => true
  | .fround _ => true
  | .fmac _ => true
  | .fmsc _ => true
  | .fnmac _ => true
  | .fnmsc _ => true
  | .fmah f => !f.isLit
  | .fmahLit _ _ _ _ _ => true
  | .fmsh _ => true
  | .fnmah _ => true
  | .fnmsh _ => true
  | .fadd16 _ _ => true
  | .fsub16 _ _ => true
  | .fmul16 _ _ => true
  | .fmin16 _ _ => true
  | .fmax16 _ _ => true
  | .fmac16 _ _ => true
  | .fnmac16 _ _ => true
  | .fmah16 _ _ => true
  | .vmovImm _ _ => true
  | .fmahImm _ _ => true
  | .fcmp f c => decide (f.d < 8#5) && decide (c < 7#3)
  | .icmp f c => decide (f.d < 8#5) && decide (c < 6#3)
  | .vsel _ => true
  | .kand f => decide (f.d < 8#5) && decide (f.a < 8#5) && decide (f.b < 8#5)
  | .kor f => decide (f.d < 8#5) && decide (f.a < 8#5) && decide (f.b < 8#5)
  | .kxor f => decide (f.d < 8#5) && decide (f.a < 8#5) && decide (f.b < 8#5)
  | .kandn f => decide (f.d < 8#5) && decide (f.a < 8#5) && decide (f.b < 8#5)
  | .knot f => decide (f.d < 8#5) && decide (f.a < 8#5)
  | .fcvtF16F32 _ => true
  | .fcvtBf16F32 _ => true
  | .fcvtF32F16 f => decide (f.b < 2#5)
  | .fcvtF32Bf16 f => decide (f.b < 2#5)
  | .fcvtI32F32 _ => true
  | .fcvtI32F32Z _ => true
  | .fcvtN32F32 _ => true
  | .fcvtN32F32Z _ => true
  | .fcvtF32I32 _ => true
  | .fcvtF32N32 _ => true
  | .vnarrowI8 f => decide (f.b < 4#5)
  | .vnarrowN8 f => decide (f.b < 4#5)
  | .vwidenI8 f => decide (f.b < 4#5)
  | .vwidenN8 f => decide (f.b < 4#5)
  | .vq4 _ _ => true
  | .vq4a _ _ => true
  | .vdq4 f => decide (f.b < 8#5)
  | .vadd _ => true
  | .vsub _ => true
  | .vmul _ => true
  | .vmulh _ => true
  | .vmin _ => true
  | .vmax _ => true
  | .vminu _ => true
  | .vmaxu _ => true
  | .vand _ => true
  | .vor _ => true
  | .vxor _ => true
  | .vandn _ => true
  | .vshl _ => true
  | .vshr _ => true
  | .vsar _ => true
  | .vabs _ => true
  | .vaddI16 _ => true
  | .vsubI16 _ => true
  | .vdot4Ss _ => true
  | .vdot4Uu _ => true
  | .vdot4Us _ => true
  | .vperm _ => true
  | .vbcast f => decide (f.b < 16#5)
  | .vslup f => decide (f.b < 16#5)
  | .vsldn f => decide (f.b < 16#5)
  | .vrot f => decide (f.b < 16#5)
  | .vrev _ => true
  | .vzipLo _ => true
  | .vzipHi _ => true
  | .vuzpEv _ => true
  | .vuzpOd _ => true
  | .fsum _ => true
  | .fmaxr _ => true
  | .fminr _ => true
  | .isum _ => true
  | .imaxr _ => true
  | .iminr _ => true
  | .imaxur _ => true
  | .iminur _ => true
  | .frcp _ => true
  | .frsqrt _ => true
  | .vmov f => !f.isLit
  | .vmovLit _ _ _ _ _ => true
  | .vbcg _ => true
  | .vins f => decide (f.b < 16#5)
  | .vext f => decide (f.b < 16#5)
  | .vextu f => decide (f.b < 16#5)
  | .kmovg f => decide (f.a < 8#5)
  | .kmovk f => decide (f.d < 8#5)
  | .ld _ _ _ _ _ => true
  | .ldV _ _ _ _ => true
  | .ldu _ _ _ _ _ => true
  | .st _ _ _ _ _ => true
  | .stV _ _ _ _ => true
  | .ldw _ _ _ _ _ => true
  | .ldwV _ _ _ _ => true
  | .ldc _ _ _ _ _ => true
  | .ldcV _ _ _ _ => true
  | .vgather f _ => f.d != f.a
  | .vscatter _ _ => true
  | .wmerge d a b => decide (d < 16#6) && decide (a < 16#6) && decide (b < 16#6)
  | .wmovg _ a _ => decide (a < 16#6)
  | .wmovw d _ _ => decide (d < 16#6)
  | .wwait _ a _ => decide (a < 16#6)
  | .wfence d _ _ => decide (d < 16#6)
  | .wtest _ a _ => decide (a < 16#6)
  | .amoSwap _ _ _ _ _ => true
  | .amoCas d _ _ _ _ => d.getLsbD 0 == false
  | .amoAdd _ _ _ _ _ => true
  | .amoAnd _ _ _ _ _ => true
  | .amoOr _ _ _ _ _ => true
  | .amoXor _ _ _ _ _ => true
  | .amoMin _ _ _ _ _ => true
  | .amoMax _ _ _ _ _ => true
  | .amoMinu _ _ _ _ _ => true
  | .amoMaxu _ _ _ _ _ => true
  | .amoFadd _ _ _ _ => true
  | .dtake _ _ b => decide (b < 16#6)
  | .dtakeTry _ _ b => decide (b < 16#6)
  | .dfree _ _ _ => true
  | .dclaim _ _ _ => true
  | .dclaimTry _ _ _ => true
  | .dpost _ _ b => decide (b < 16#6)
  | .dprobe _ _ _ => true
  | .rrot d _ _ => decide (d < 16#6)
  | .rrotDn d _ _ => decide (d < 16#6)
  | .pfRc _ _ _ => true
  | .pfL2 _ _ _ => true
  | .rcinv _ _ _ => true
  | .rcinvAll _ _ _ => true
  | .spawn _ _ _ => true
  | .join d a _ => decide (d < 16#6) && decide (1#6 ≤ a) && decide (a ≤ 4#6)
  | .yield _ _ _ => true
  | .exit _ _ _ => true
  | .send _ a _ => decide (a < 32#6)
  | .sendTry _ a _ => decide (a < 32#6)
  | .recv _ _ _ => true
  | .tbset _ _ _ => true
  | .tbclr _ _ _ => true
  | .tbrd _ _ _ => true
  | .cancel _ _ _ => true
  | .ccheck _ _ _ => true
  | .ccheckX _ _ _ => true
  | .bbar _ _ _ => true
  | .mbar d _ _ => decide (d < 16#6)
  | .sigb _ _ _ => true
  | .swait _ _ _ => true
  | .rgen _ _ _ => true
  | .cwait _ _ _ => true
  | .rdcyc _ _ _ => true
  | .hwait _ _ _ => true
  | .rdhor _ _ _ => true
  | .rdvis _ _ _ => true
  | .stset _ _ _ => true
  | .stchk _ _ _ => true
  | .stchkX _ _ _ => true
  | .tsmin _ _ _ => true
  | .tsrd _ _ _ => true
  | .pub _ _ _ => true
  | .cq _ x => decide (x ≤ 4#3)
  | .cqTry _ x => decide (x ≤ 4#3)
  | .copy _ x _ _ => decide (x ≤ 5#3)
  | .copyRed _ x _ _ _ => decide (x ≤ 5#3)
  | .copyMc _ x _ _ => decide (x ≤ 5#3)
  | .bwl _ x _ _ _ _ => decide (x ≤ 5#3)
  | .bmm _ x _ _ _ _ _ => decide (x ≤ 5#3)
  | .bdr _ x _ _ _ _ _ _ _ => decide (x ≤ 5#3)
  | .bclr _ _ _ _ _ _ _ _ _ => true
  | .twait _ a b => decide (1#6 ≤ a) && decide (a ≤ 4#6) && decide (b < 16#6)
  | .twaitS _ _ b => decide (b < 16#6)
  | .tpoll _ _ _ => true
  | .tcancel _ _ _ => true
  | .tdet _ _ _ => true
  | .tadopt _ _ _ => true
  | .tpri _ _ _ => true
  | .qfence _ _ _ => true
  | .tfrec _ _ n => decide (n < 4#6)
  | .accessAtHome _ _ => true
  | .loadReply _ => true
  | .witnessReturn _ => true
  | .drawerEnable core n => decide (core < 512) && decide (n < 64)
  | .drawerDisable core n => decide (core < 512) && decide (n < 64)
  | .stampRegionWrite tenant region word _ => decide (tenant < 8) && decide (region < 256) && decide (word < 4)
  | .commandEnqueue core => decide (core < 512)
  | .copyDescRead op => decide (op < 53248)
  | .leaveGrant die => decide (die < 4)
  | .opStart bench engine => decide (bench < 64) && decide (engine < 2)
  | .copyChunk op => decide (op < 53248)
  | .reduceApply op _ => decide (op < 53248)
  | .applyRetry op _ => decide (op < 53248)
  | .chunkClose op => decide (op < 53248)
  | .copyClaimResume op => decide (op < 53248)
  | .berylOpComplete op => decide (op < 53248)
  | .opEnd op => decide (op < 53248)
  | .engineStarved t => decide (t < 2052)
  | .spawnStarved t => decide (t < 2052)
  | .idleTimeout t => decide (t < 2052)
  | .interrupt t => decide (t < 2052)
  | .hostDoorbell tenant t => decide (tenant < 8) && decide (t < 2052)
  | .taskFail t => decide (t < 2052)
  | .preempt t => decide (t < 2052)
  | .threadDispatch core => decide (core < 512)
  | .traceSample t => decide (t < 2052)
  | .candidateForward core _ thief => decide (core < 512) && decide (thief < 512)
  | .thiefStart core => decide (core < 512)
  | .stealRequest core => decide (core < 512)
  | .stealWithdraw core => decide (core < 512)
  | .thiefBackoffEnd core => decide (core < 512)
  | .candidateAgeing core _ => decide (core < 512)
  | .messageArrival _ => true
  | .cancelBroadcast tenant job bench => decide (tenant < 8) && decide (job < 65536) && decide (bench < 64)
  | .signalAdd _ => true
  | .launchRecord tenant window _ _ => decide (tenant < 8) && decide (window < 4)
  | .badlnchClear tenant window => decide (tenant < 8) && decide (window < 4)
  | .hostAnswer tenant _ _ => decide (tenant < 8)
  | .configMailboxRequest _ => true
  | .hostImageAccess tenant _ _ _ => decide (tenant < 8)
  | .releaseBufferSend => true
  | .pageMapped _ => true
  | .pageRefused _ => true
  | .shootdown tenant _ _ => decide (tenant < 8)
  | .spareShelfMove tenant _ core i => decide (tenant < 8) && decide (core < 512) && decide (i < 4)
  | .migrationMove tenant _ => decide (tenant < 8)
  | .settleExpiry tenant _ => decide (tenant < 8)
  | .epochAdvance => true
  | .visibilityPublish => true
  | .horizonPublish bench => decide (bench < 64)
  | .cycleStart n => decide (n < 8)
  | .frameIngress _ => true
  | .pubCutoff n => decide (n < 8)
  | .publishInstant n => decide (n < 8)
  | .timeCorrection _ => true
  | .holdoverEntry => true
  | .classStart n _ => decide (n < 8)
  | .classStop n => decide (n < 8)
  | .budgetExhausted tenant entry => decide (tenant < 8) && decide (entry < 1024)
  | .budgetGraceEnd t => decide (t < 2052)
  | .recoveryMarkOpen => true
  | .recoveryMarkClose => true
  | .markHoldTimeout => true
  | .machineCheck _ => true
  | .pairWrite _ => true
  | .logFlit _ _ => true
  | .progFlit _ _ => true
  | .ackFlit _ _ => true
  | .heartFlit _ _ => true
  | .fillReq _ _ tenant region => decide (tenant < 8) && decide (region < 256)
  | .fillFlit _ _ tenant region _ _ => decide (tenant < 8) && decide (region < 256)
  | .fcrcFlit _ entry _ _ => decide (entry < 256)
  | .peerFlit _ _ => true
  | .resign _ => true
  | .standbyAck => true
  | .heartTimer => true
  | .flitResend => true
  | .laneRetrainDone => true
  | .peerLossTimeout => true
  | .lagmaxTimeout => true
  | .tenantSwitch bench _ => decide (bench < 64)
  | .l2LockEnable _ => true
  | .l2LockDisable => true
  | .l2LockDone => true
  | .benchGate bench => decide (bench < 64)
  | .benchWake bench => decide (bench < 64)
  | .thermalEmergency die _ => decide (die < 4)
  | .powerCapAdjust _ => true
  | .packageReset => true
  | .firmwareRecoveryWrite _ => true
  | .coreReset core => decide (core < 512)
  | .benchReset bench => decide (bench < 64)
  | .stopJob _ => true
  | .goJob _ => true
  | .rdrec _ => true
  | .rdctx _ => true
  | .debugHalt t => decide (t < 2052)
  | .debugRelease t => decide (t < 2052)
  | .debugAccess _ => true
  | .unlock die => decide (die < 4)
  | .wipe die => decide (die < 4)
  | .openPort die => decide (die < 4)
  | .attest die => decide (die < 4)
  | .keyload die => decide (die < 4)
  | .deploy die => decide (die < 4)
  | .retire die => decide (die < 4)
  | .powerLoss _ => true
  | .qbvGateOpen port => decide (port < 10)
  | .flitDiscard _ => true
  | .stewardNotice t => decide (t < 2052)
  | .perstRelease => true
  | .pcieConfigRequest => true

/-- A well-formed instruction or event. -/
abbrev WellFormed (i : Instr) : Prop := i.wf = true

end Sys2Proof
end

