-- ==== Sys2Proof/Decode.lean ====
section
/-! DEFINITION. From parcels to an instruction and back (R29-R37, R41, R43, R46-R48, and the encoding tables of the
instruction chapters). `decode` reads the first instruction of a list of parcels; a pattern that is no instruction is
`illegal`. `encode` gives the parcels of a well-formed instruction. -/

namespace Sys2Proof

/-- What the decoder finds at the head of a list of parcels. -/
inductive Decoded where
  | instr (i : Instr)
  | illegal
  | short
  deriving DecidableEq, Repr

/-- A one-bit field. -/
def bit (x : Bool) : BitVec 1 := if x then 1#1 else 0#1

/-! ### Encoding -/

/-- The two parcels of a 32-bit instruction, bits 31:16 first (R29). -/
def wordParcels (w : Word32) : List Parcel := [w.extractLsb' 16 16, w.extractLsb' 0 16]

/-- The two parcels of a literal word: it lies little-endian, so bits 15:0 come first (R37, R52). -/
def litParcels (l : Word32) : List Parcel := [l.extractLsb' 0 16, l.extractLsb' 16 16]

/-- Format R (R34). -/
def encR (m d a b : BitVec 6) (f : BitVec 7) : Word32 := 1#1 ++ m ++ d ++ a ++ b ++ f

/-- Format I (R34). -/
def encI (m d a : BitVec 6) (i : BitVec 13) : Word32 := 1#1 ++ m ++ d ++ a ++ i

/-- Format M (R34). -/
def encM (m d b : BitVec 6) (s : BitVec 3) (w : BitVec 4) (o : BitVec 6) : Word32 := 1#1 ++ m ++ d ++ b ++ s ++ w ++ o

/-- Format E (R34). -/
def encE (m d : BitVec 6) (x : BitVec 3) (f : BitVec 16) : Word32 := 1#1 ++ m ++ d ++ x ++ f

/-- func bits 6:5 of a b source (R34). -/
def VSrc.code : VSrc → BitVec 2
  | .reg => 0#2
  | .bank => 1#2
  | .lit _ => 2#2

/-- Format V with operation `f`, and its literal word where the source is one (R34). -/
def encV (m : BitVec 6) (v : VF) (f : BitVec 5) : List Parcel :=
  wordParcels (1#1 ++ m ++ v.d ++ v.a ++ v.b ++ v.k ++ v.src.code ++ f) ++
    match v.src with
    | .lit l => litParcels l
    | .reg => []
    | .bank => []

/-- The parcels of an instruction; an event has none. -/
def encode : Instr → List Parcel
  | .mov16 d a => [(0#1 ++ 1#4 ++ (d ++ a ++ 0#3 : BitVec 11) : BitVec 16)]
  | .addi16 d i => [(0#1 ++ 2#4 ++ (d ++ i : BitVec 11) : BitVec 16)]
  | .add16 d a => [(0#1 ++ 3#4 ++ (d ++ a ++ 0#3 : BitVec 11) : BitVec 16)]
  | .ldD16 d a o => [(0#1 ++ 4#4 ++ (d ++ a ++ o : BitVec 11) : BitVec 16)]
  | .stD16 d a o => [(0#1 ++ 5#4 ++ (d ++ a ++ o : BitVec 11) : BitVec 16)]
  | .bz16 a o => [(0#1 ++ 6#4 ++ (a ++ o : BitVec 11) : BitVec 16)]
  | .bnz16 a o => [(0#1 ++ 7#4 ++ (a ++ o : BitVec 11) : BitVec 16)]
  | .j16 o => [(0#1 ++ 8#4 ++ (o : BitVec 11) : BitVec 16)]
  | .shl16 d n => [(0#1 ++ 9#4 ++ (d ++ 0#2 ++ n : BitVec 11) : BitVec 16)]
  | .shr16 d n => [(0#1 ++ 9#4 ++ (d ++ 1#2 ++ n : BitVec 11) : BitVec 16)]
  | .sar16 d n => [(0#1 ++ 9#4 ++ (d ++ 2#2 ++ n : BitVec 11) : BitVec 16)]
  | .ror16 d n => [(0#1 ++ 9#4 ++ (d ++ 3#2 ++ n : BitVec 11) : BitVec 16)]
  | .cmp16 d a cc => [(0#1 ++ 10#4 ++ (d ++ a ++ cc : BitVec 11) : BitVec 16)]
  | .wait16 m n => [(0#1 ++ 11#4 ++ (m ++ n ++ 0#1 : BitVec 11) : BitVec 16)]
  | .jr16 a => [(0#1 ++ 12#4 ++ (a ++ 0#7 : BitVec 11) : BitVec 16)]
  | .callr16 a => [(0#1 ++ 12#4 ++ (a ++ 0x40#7 : BitVec 11) : BitVec 16)]
  | .nop => [(0#1 ++ 13#4 ++ (0#11 : BitVec 11) : BitVec 16)]
  | .fmt a b acc sat pl => [(0#1 ++ 15#4 ++ (a ++ b ++ bit acc ++ bit sat ++ pl ++ 0#1 : BitVec 11) : BitVec 16)]
  | .add d a b => wordParcels (encR 0x0#6 d a b 0x0#7)
  | .sub d a b => wordParcels (encR 0x0#6 d a b 0x1#7)
  | .and d a b => wordParcels (encR 0x0#6 d a b 0x2#7)
  | .or d a b => wordParcels (encR 0x0#6 d a b 0x3#7)
  | .xor d a b => wordParcels (encR 0x0#6 d a b 0x4#7)
  | .andn d a b => wordParcels (encR 0x0#6 d a b 0x5#7)
  | .orn d a b => wordParcels (encR 0x0#6 d a b 0x6#7)
  | .xnor d a b => wordParcels (encR 0x0#6 d a b 0x7#7)
  | .shl d a b => wordParcels (encR 0x0#6 d a b 0x8#7)
  | .shr d a b => wordParcels (encR 0x0#6 d a b 0x9#7)
  | .sar d a b => wordParcels (encR 0x0#6 d a b 0xA#7)
  | .ror d a b => wordParcels (encR 0x0#6 d a b 0xB#7)
  | .shli d a n => wordParcels (encR 0x0#6 d a n 0xC#7)
  | .shri d a n => wordParcels (encR 0x0#6 d a n 0xD#7)
  | .sari d a n => wordParcels (encR 0x0#6 d a n 0xE#7)
  | .rori d a n => wordParcels (encR 0x0#6 d a n 0xF#7)
  | .addW d a b => wordParcels (encR 0x0#6 d a b 0x10#7)
  | .subW d a b => wordParcels (encR 0x0#6 d a b 0x11#7)
  | .shlW d a b => wordParcels (encR 0x0#6 d a b 0x18#7)
  | .shrW d a b => wordParcels (encR 0x0#6 d a b 0x19#7)
  | .sarW d a b => wordParcels (encR 0x0#6 d a b 0x1A#7)
  | .rorW d a b => wordParcels (encR 0x0#6 d a b 0x1B#7)
  | .addS d a b => wordParcels (encR 0x0#6 d a b 0x20#7)
  | .subS d a b => wordParcels (encR 0x0#6 d a b 0x21#7)
  | .addUs d a b => wordParcels (encR 0x0#6 d a b 0x22#7)
  | .subUs d a b => wordParcels (encR 0x0#6 d a b 0x23#7)
  | .lea2 d a b => wordParcels (encR 0x0#6 d a b 0x28#7)
  | .lea4 d a b => wordParcels (encR 0x0#6 d a b 0x29#7)
  | .lea8 d a b => wordParcels (encR 0x0#6 d a b 0x2A#7)
  | .lea16 d a b => wordParcels (encR 0x0#6 d a b 0x2B#7)
  | .lea64 d a b => wordParcels (encR 0x0#6 d a b 0x2C#7)
  | .mul d a b => wordParcels (encR 0x1#6 d a b 0x0#7)
  | .mulh d a b => wordParcels (encR 0x1#6 d a b 0x1#7)
  | .mulhu d a b => wordParcels (encR 0x1#6 d a b 0x2#7)
  | .mulhsu d a b => wordParcels (encR 0x1#6 d a b 0x3#7)
  | .mulW d a b => wordParcels (encR 0x1#6 d a b 0x4#7)
  | .mulS d a b => wordParcels (encR 0x1#6 d a b 0x5#7)
  | .div d a b => wordParcels (encR 0x1#6 d a b 0x8#7)
  | .divu d a b => wordParcels (encR 0x1#6 d a b 0x9#7)
  | .rem d a b => wordParcels (encR 0x1#6 d a b 0xA#7)
  | .remu d a b => wordParcels (encR 0x1#6 d a b 0xB#7)
  | .divW d a b => wordParcels (encR 0x1#6 d a b 0xC#7)
  | .divuW d a b => wordParcels (encR 0x1#6 d a b 0xD#7)
  | .remW d a b => wordParcels (encR 0x1#6 d a b 0xE#7)
  | .remuW d a b => wordParcels (encR 0x1#6 d a b 0xF#7)
  | .cmp d a b cc => wordParcels (encR 0x2#6 d a b (0#4 ++ cc))
  | .min d a b => wordParcels (encR 0x2#6 d a b 0x8#7)
  | .max d a b => wordParcels (encR 0x2#6 d a b 0x9#7)
  | .minu d a b => wordParcels (encR 0x2#6 d a b 0xA#7)
  | .maxu d a b => wordParcels (encR 0x2#6 d a b 0xB#7)
  | .movz d a b => wordParcels (encR 0x2#6 d a b 0x10#7)
  | .movnz d a b => wordParcels (encR 0x2#6 d a b 0x11#7)
  | .clz d a b => wordParcels (encR 0x3#6 d a b 0x0#7)
  | .ctz d a b => wordParcels (encR 0x3#6 d a b 0x1#7)
  | .popc d a b => wordParcels (encR 0x3#6 d a b 0x2#7)
  | .rev8 d a b => wordParcels (encR 0x3#6 d a b 0x3#7)
  | .rev8W d a b => wordParcels (encR 0x3#6 d a b 0x4#7)
  | .bfx d a b => wordParcels (encR 0x3#6 d a b 0x8#7)
  | .bfxs d a b => wordParcels (encR 0x3#6 d a b 0x9#7)
  | .bfi d a b => wordParcels (encR 0x3#6 d a b 0xA#7)
  | .addi d a i => wordParcels (encI 0x4#6 d a i)
  | .addiLit32 d a l => wordParcels (encI 4#6 d a 0x1000#13) ++ litParcels l
  | .addiLit64 d a l => wordParcels (encI 4#6 d a 0x1001#13) ++ litParcels (l.extractLsb' 0 32) ++ litParcels (l.extractLsb' 32 32)
  | .andi d a i => wordParcels (encI 0x5#6 d a i)
  | .andiLit32 d a l => wordParcels (encI 5#6 d a 0x1000#13) ++ litParcels l
  | .andiLit64 d a l => wordParcels (encI 5#6 d a 0x1001#13) ++ litParcels (l.extractLsb' 0 32) ++ litParcels (l.extractLsb' 32 32)
  | .ori d a i => wordParcels (encI 0x6#6 d a i)
  | .oriLit32 d a l => wordParcels (encI 6#6 d a 0x1000#13) ++ litParcels l
  | .oriLit64 d a l => wordParcels (encI 6#6 d a 0x1001#13) ++ litParcels (l.extractLsb' 0 32) ++ litParcels (l.extractLsb' 32 32)
  | .xori d a i => wordParcels (encI 0x7#6 d a i)
  | .xoriLit32 d a l => wordParcels (encI 7#6 d a 0x1000#13) ++ litParcels l
  | .xoriLit64 d a l => wordParcels (encI 7#6 d a 0x1001#13) ++ litParcels (l.extractLsb' 0 32) ++ litParcels (l.extractLsb' 32 32)
  | .ldcb d a z n => wordParcels (encI 0x8#6 d a (0#4 ++ bit z ++ n))
  | .movi d i => wordParcels (1#1 ++ 0x9#6 ++ d ++ i)
  | .bz a o => wordParcels (1#1 ++ 0xA#6 ++ a ++ 0#3 ++ o)
  | .bnz a o => wordParcels (1#1 ++ 0xA#6 ++ a ++ 1#3 ++ o)
  | .bltz a o => wordParcels (1#1 ++ 0xA#6 ++ a ++ 2#3 ++ o)
  | .bgez a o => wordParcels (1#1 ++ 0xA#6 ++ a ++ 3#3 ++ o)
  | .blez a o => wordParcels (1#1 ++ 0xA#6 ++ a ++ 4#3 ++ o)
  | .bgtz a o => wordParcels (1#1 ++ 0xA#6 ++ a ++ 5#3 ++ o)
  | .br a o => wordParcels (1#1 ++ 0xA#6 ++ a ++ 6#3 ++ o)
  | .j o => wordParcels (1#1 ++ 0xB#6 ++ o)
  | .call o => wordParcels (1#1 ++ 0xC#6 ++ o)
  | .jr d a b => wordParcels (encR 0xD#6 d a b 0x0#7)
  | .callr d a b => wordParcels (encR 0xD#6 d a b 0x1#7)
  | .getpc d a b => wordParcels (encR 0xD#6 d a b 0x2#7)
  | .rdctl d a n => wordParcels (encI 0xE#6 d a (0#3 ++ n))
  | .wrctl d a n => wordParcels (encI 0xF#6 d a (0#3 ++ n))
  | .setctl d a n => wordParcels (encI 0xF#6 d a (1#3 ++ n))
  | .clrctl d a n => wordParcels (encI 0xF#6 d a (2#3 ++ n))
  | .wait d a b ot => wordParcels (encR 0x10#6 d a b (0#1 ++ ot))
  | .trapi d a b => wordParcels (encR 0x10#6 d a b 0x40#7)
  | .brk d a b => wordParcels (encR 0x10#6 d a b 0x41#7)
  | .tret d a b => wordParcels (encR 0x10#6 d a b 0x42#7)
  | .ifence d a b => wordParcels (encR 0x10#6 d a b 0x43#7)
  | .idle d a b => wordParcels (encR 0x10#6 d a b 0x44#7)
  | .movx d x i => wordParcels (1#1 ++ 0x11#6 ++ d ++ x ++ 0#3 ++ i)
  | .movg d x i => wordParcels (1#1 ++ 0x11#6 ++ d ++ x ++ 1#3 ++ i)
  | .ldx d x i => wordParcels (1#1 ++ 0x11#6 ++ d ++ x ++ 2#3 ++ i)
  | .addx d x i => wordParcels (1#1 ++ 0x11#6 ++ d ++ x ++ 3#3 ++ i)
  | .fadd f => encV 0x12#6 f 0#5
  | .fsub f => encV 0x12#6 f 1#5
  | .fmul f => encV 0x12#6 f 2#5
  | .fdiv f => encV 0x12#6 f 3#5
  | .fsqrt f => encV 0x12#6 f 4#5
  | .fmin f => encV 0x12#6 f 5#5
  | .fmax f => encV 0x12#6 f 6#5
  | .fabs f => encV 0x12#6 f 7#5
  | .fneg f => encV 0x12#6 f 8#5
  | .fsgn f => encV 0x12#6 f 9#5
  | .fround f => encV 0x12#6 f 10#5
  | .fmac f => encV 0x13#6 f 0#5
  | .fmsc f => encV 0x13#6 f 1#5
  | .fnmac f => encV 0x13#6 f 2#5
  | .fnmsc f => encV 0x13#6 f 3#5
  | .fmah f => encV 0x13#6 f 4#5
  | .fmahLit d a b k l => encV 0x13#6 ⟨d, a, b, k, .lit l⟩ 4#5
  | .fmsh f => encV 0x13#6 f 5#5
  | .fnmah f => encV 0x13#6 f 6#5
  | .fnmsh f => encV 0x13#6 f 7#5
  | .fadd16 f bf => encV 0x14#6 f (bit bf ++ 0#4)
  | .fsub16 f bf => encV 0x14#6 f (bit bf ++ 1#4)
  | .fmul16 f bf => encV 0x14#6 f (bit bf ++ 2#4)
  | .fmin16 f bf => encV 0x14#6 f (bit bf ++ 3#4)
  | .fmax16 f bf => encV 0x14#6 f (bit bf ++ 4#4)
  | .fmac16 f bf => encV 0x14#6 f (bit bf ++ 5#4)
  | .fnmac16 f bf => encV 0x14#6 f (bit bf ++ 6#4)
  | .fmah16 f bf => encV 0x14#6 f (bit bf ++ 7#4)
  | .vmovImm d i => wordParcels (1#1 ++ 0x15#6 ++ d ++ i)
  | .fmahImm d i => wordParcels (1#1 ++ 0x16#6 ++ d ++ i)
  | .fcmp f c => encV 0x17#6 f (0#2 ++ c)
  | .icmp f c => encV 0x17#6 f (1#2 ++ c)
  | .vsel f => encV 0x17#6 f 16#5
  | .kand f => encV 0x17#6 f 24#5
  | .kor f => encV 0x17#6 f 25#5
  | .kxor f => encV 0x17#6 f 26#5
  | .kandn f => encV 0x17#6 f 27#5
  | .knot f => encV 0x17#6 f 28#5
  | .fcvtF16F32 f => encV 0x18#6 f 0#5
  | .fcvtBf16F32 f => encV 0x18#6 f 1#5
  | .fcvtF32F16 f => encV 0x18#6 f 2#5
  | .fcvtF32Bf16 f => encV 0x18#6 f 3#5
  | .fcvtI32F32 f => encV 0x18#6 f 4#5
  | .fcvtI32F32Z f => encV 0x18#6 f 5#5
  | .fcvtN32F32 f => encV 0x18#6 f 6#5
  | .fcvtN32F32Z f => encV 0x18#6 f 7#5
  | .fcvtF32I32 f => encV 0x18#6 f 8#5
  | .fcvtF32N32 f => encV 0x18#6 f 9#5
  | .vnarrowI8 f => encV 0x18#6 f 10#5
  | .vnarrowN8 f => encV 0x18#6 f 11#5
  | .vwidenI8 f => encV 0x18#6 f 12#5
  | .vwidenN8 f => encV 0x18#6 f 13#5
  | .vq4 f q => encV 0x18#6 f (4#3 ++ q)
  | .vq4a f q => encV 0x18#6 f (5#3 ++ q)
  | .vdq4 f => encV 0x18#6 f 24#5
  | .vadd f => encV 0x19#6 f 0#5
  | .vsub f => encV 0x19#6 f 1#5
  | .vmul f => encV 0x19#6 f 2#5
  | .vmulh f => encV 0x19#6 f 3#5
  | .vmin f => encV 0x19#6 f 4#5
  | .vmax f => encV 0x19#6 f 5#5
  | .vminu f => encV 0x19#6 f 6#5
  | .vmaxu f => encV 0x19#6 f 7#5
  | .vand f => encV 0x19#6 f 8#5
  | .vor f => encV 0x19#6 f 9#5
  | .vxor f => encV 0x19#6 f 10#5
  | .vandn f => encV 0x19#6 f 11#5
  | .vshl f => encV 0x19#6 f 12#5
  | .vshr f => encV 0x19#6 f 13#5
  | .vsar f => encV 0x19#6 f 14#5
  | .vabs f => encV 0x19#6 f 15#5
  | .vaddI16 f => encV 0x19#6 f 16#5
  | .vsubI16 f => encV 0x19#6 f 17#5
  | .vdot4Ss f => encV 0x19#6 f 20#5
  | .vdot4Uu f => encV 0x19#6 f 21#5
  | .vdot4Us f => encV 0x19#6 f 22#5
  | .vperm f => encV 0x1A#6 f 0#5
  | .vbcast f => encV 0x1A#6 f 1#5
  | .vslup f => encV 0x1A#6 f 2#5
  | .vsldn f => encV 0x1A#6 f 3#5
  | .vrot f => encV 0x1A#6 f 4#5
  | .vrev f => encV 0x1A#6 f 5#5
  | .vzipLo f => encV 0x1A#6 f 6#5
  | .vzipHi f => encV 0x1A#6 f 7#5
  | .vuzpEv f => encV 0x1A#6 f 8#5
  | .vuzpOd f => encV 0x1A#6 f 9#5
  | .fsum f => encV 0x1B#6 f 0#5
  | .fmaxr f => encV 0x1B#6 f 1#5
  | .fminr f => encV 0x1B#6 f 2#5
  | .isum f => encV 0x1B#6 f 8#5
  | .imaxr f => encV 0x1B#6 f 9#5
  | .iminr f => encV 0x1B#6 f 10#5
  | .imaxur f => encV 0x1B#6 f 11#5
  | .iminur f => encV 0x1B#6 f 12#5
  | .frcp f => encV 0x1C#6 f 0#5
  | .frsqrt f => encV 0x1C#6 f 1#5
  | .vmov f => encV 0x1D#6 f 0#5
  | .vmovLit d a b k l => encV 0x1D#6 ⟨d, a, b, k, .lit l⟩ 0#5
  | .vbcg f => encV 0x1D#6 f 1#5
  | .vins f => encV 0x1D#6 f 2#5
  | .vext f => encV 0x1D#6 f 3#5
  | .vextu f => encV 0x1D#6 f 4#5
  | .kmovg f => encV 0x1D#6 f 5#5
  | .kmovk f => encV 0x1D#6 f 6#5
  | .ld d b s w o => wordParcels (encM 0x1E#6 d b (0#1 ++ s) w o)
  | .ldV d b w o => wordParcels (encM 0x1E#6 (0#1 ++ d) b 4#3 w o)
  | .ldu d b s w o => wordParcels (encM 0x1F#6 d b (0#1 ++ s) w o)
  | .st d b s w o => wordParcels (encM 0x20#6 d b (0#1 ++ s) w o)
  | .stV d b w o => wordParcels (encM 0x20#6 (0#1 ++ d) b 4#3 w o)
  | .ldw d b s w o => wordParcels (encM 0x21#6 d b (0#1 ++ s) w o)
  | .ldwV d b w o => wordParcels (encM 0x21#6 (0#1 ++ d) b 4#3 w o)
  | .ldc d b s w o => wordParcels (encM 0x22#6 d b (0#1 ++ s) w o)
  | .ldcV d b w o => wordParcels (encM 0x22#6 (0#1 ++ d) b 4#3 w o)
  | .vgather f n => encV 0x23#6 f (0#1 ++ n)
  | .vscatter f n => encV 0x23#6 f (1#1 ++ n)
  | .wmerge d a b => wordParcels (encR 0x24#6 d a b 0x0#7)
  | .wmovg d a b => wordParcels (encR 0x24#6 d a b 0x1#7)
  | .wmovw d a b => wordParcels (encR 0x24#6 d a b 0x2#7)
  | .wwait d a b => wordParcels (encR 0x24#6 d a b 0x3#7)
  | .wfence d a b => wordParcels (encR 0x24#6 d a b 0x4#7)
  | .wtest d a b => wordParcels (encR 0x24#6 d a b 0x5#7)
  | .amoSwap d b dw w win => wordParcels (encM 0x25#6 d b (1#2 ++ bit dw) w (0#1 ++ bit win ++ 0#4))
  | .amoCas d b dw w win => wordParcels (encM 0x25#6 d b (1#2 ++ bit dw) w (0#1 ++ bit win ++ 1#4))
  | .amoAdd d b dw w win => wordParcels (encM 0x25#6 d b (1#2 ++ bit dw) w (0#1 ++ bit win ++ 2#4))
  | .amoAnd d b dw w win => wordParcels (encM 0x25#6 d b (1#2 ++ bit dw) w (0#1 ++ bit win ++ 3#4))
  | .amoOr d b dw w win => wordParcels (encM 0x25#6 d b (1#2 ++ bit dw) w (0#1 ++ bit win ++ 4#4))
  | .amoXor d b dw w win => wordParcels (encM 0x25#6 d b (1#2 ++ bit dw) w (0#1 ++ bit win ++ 5#4))
  | .amoMin d b dw w win => wordParcels (encM 0x25#6 d b (1#2 ++ bit dw) w (0#1 ++ bit win ++ 6#4))
  | .amoMax d b dw w win => wordParcels (encM 0x25#6 d b (1#2 ++ bit dw) w (0#1 ++ bit win ++ 7#4))
  | .amoMinu d b dw w win => wordParcels (encM 0x25#6 d b (1#2 ++ bit dw) w (0#1 ++ bit win ++ 8#4))
  | .amoMaxu d b dw w win => wordParcels (encM 0x25#6 d b (1#2 ++ bit dw) w (0#1 ++ bit win ++ 9#4))
  | .amoFadd d b w win => wordParcels (encM 0x25#6 d b 2#3 w (0#1 ++ bit win ++ 10#4))
  | .dtake d a b => wordParcels (encR 0x26#6 d a b 0x0#7)
  | .dtakeTry d a b => wordParcels (encR 0x26#6 d a b 0x1#7)
  | .dfree d a b => wordParcels (encR 0x26#6 d a b 0x2#7)
  | .dclaim d a b => wordParcels (encR 0x26#6 d a b 0x3#7)
  | .dclaimTry d a b => wordParcels (encR 0x26#6 d a b 0x4#7)
  | .dpost d a b => wordParcels (encR 0x26#6 d a b 0x5#7)
  | .dprobe d a b => wordParcels (encR 0x26#6 d a b 0x6#7)
  | .rrot d a b => wordParcels (encR 0x27#6 d a b 0x0#7)
  | .rrotDn d a b => wordParcels (encR 0x27#6 d a b 0x1#7)
  | .pfRc d a b => wordParcels (encR 0x27#6 d a b 0x8#7)
  | .pfL2 d a b => wordParcels (encR 0x27#6 d a b 0x9#7)
  | .rcinv d a b => wordParcels (encR 0x27#6 d a b 0xA#7)
  | .rcinvAll d a b => wordParcels (encR 0x27#6 d a b 0xB#7)
  | .spawn d a b => wordParcels (encR 0x28#6 d a b 0x0#7)
  | .join d a b => wordParcels (encR 0x28#6 d a b 0x1#7)
  | .yield d a b => wordParcels (encR 0x28#6 d a b 0x2#7)
  | .exit d a b => wordParcels (encR 0x28#6 d a b 0x3#7)
  | .send d a b => wordParcels (encR 0x29#6 d a b 0x0#7)
  | .sendTry d a b => wordParcels (encR 0x29#6 d a b 0x1#7)
  | .recv d a b => wordParcels (encR 0x29#6 d a b 0x2#7)
  | .tbset d a b => wordParcels (encR 0x2A#6 d a b 0x0#7)
  | .tbclr d a b => wordParcels (encR 0x2A#6 d a b 0x1#7)
  | .tbrd d a b => wordParcels (encR 0x2A#6 d a b 0x2#7)
  | .cancel d a b => wordParcels (encR 0x2B#6 d a b 0x0#7)
  | .ccheck d a b => wordParcels (encR 0x2B#6 d a b 0x1#7)
  | .ccheckX d a b => wordParcels (encR 0x2B#6 d a b 0x2#7)
  | .bbar d a b => wordParcels (encR 0x2C#6 d a b 0x0#7)
  | .mbar d a b => wordParcels (encR 0x2C#6 d a b 0x1#7)
  | .sigb d a b => wordParcels (encR 0x2C#6 d a b 0x2#7)
  | .swait d a b => wordParcels (encR 0x2C#6 d a b 0x3#7)
  | .rgen d a b => wordParcels (encR 0x2C#6 d a b 0x4#7)
  | .cwait d a b => wordParcels (encR 0x2D#6 d a b 0x0#7)
  | .rdcyc d a b => wordParcels (encR 0x2D#6 d a b 0x1#7)
  | .hwait d a b => wordParcels (encR 0x2D#6 d a b 0x2#7)
  | .rdhor d a b => wordParcels (encR 0x2D#6 d a b 0x3#7)
  | .rdvis d a b => wordParcels (encR 0x2D#6 d a b 0x4#7)
  | .stset d a b => wordParcels (encR 0x2E#6 d a b 0x0#7)
  | .stchk d a b => wordParcels (encR 0x2E#6 d a b 0x1#7)
  | .stchkX d a b => wordParcels (encR 0x2E#6 d a b 0x2#7)
  | .tsmin d a b => wordParcels (encR 0x2E#6 d a b 0x3#7)
  | .tsrd d a b => wordParcels (encR 0x2E#6 d a b 0x4#7)
  | .pub d a b => wordParcels (encR 0x2F#6 d a b 0x0#7)
  | .cq d x => wordParcels (encE 0x30#6 d x 0#16)
  | .cqTry d x => wordParcels (encE 0x30#6 d x 1#16)
  | .copy d x det q => wordParcels (encE 0x31#6 d x (0#7 ++ bit det ++ q ++ 0#4 ++ 0#2))
  | .copyRed d x det q rop => wordParcels (encE 0x31#6 d x (0#7 ++ bit det ++ q ++ rop ++ 1#2))
  | .copyMc d x det q => wordParcels (encE 0x31#6 d x (0#7 ++ bit det ++ q ++ 0#4 ++ 2#2))
  | .bwl d x g q slot det => wordParcels (encE 0x32#6 d x (g ++ q ++ slot ++ bit det ++ 0#4))
  | .bmm d x g q slot tile det => wordParcels (encE 0x33#6 d x (g ++ q ++ slot ++ tile ++ bit det ++ 0#2))
  | .bdr d x g q clr raw tile mode det => wordParcels (encE 0x34#6 d x (g ++ q ++ bit clr ++ bit raw ++ 0#1 ++ tile ++ bit mode ++ bit det ++ 0#1))
  | .bclr d x g q clr raw tile mode det => wordParcels (encE 0x34#6 d x (g ++ q ++ bit clr ++ bit raw ++ 1#1 ++ tile ++ bit mode ++ bit det ++ 0#1))
  | .twait d a b => wordParcels (encR 0x35#6 d a b 0x0#7)
  | .twaitS d a b => wordParcels (encR 0x35#6 d a b 0x1#7)
  | .tpoll d a b => wordParcels (encR 0x35#6 d a b 0x2#7)
  | .tcancel d a b => wordParcels (encR 0x36#6 d a b 0x0#7)
  | .tdet d a b => wordParcels (encR 0x36#6 d a b 0x1#7)
  | .tadopt d a b => wordParcels (encR 0x36#6 d a b 0x2#7)
  | .tpri d a b => wordParcels (encR 0x36#6 d a b 0x3#7)
  | .qfence d a b => wordParcels (encR 0x37#6 d a b 0x0#7)
  | .tfrec d a n => wordParcels (encR 0x37#6 d a n 0x1#7)
  | .accessAtHome _ _ => []
  | .loadReply _ => []
  | .witnessReturn _ => []
  | .drawerEnable _ _ => []
  | .drawerDisable _ _ => []
  | .stampRegionWrite _ _ _ _ => []
  | .commandEnqueue _ => []
  | .copyDescRead _ => []
  | .leaveGrant _ => []
  | .opStart _ _ => []
  | .copyChunk _ => []
  | .reduceApply _ _ => []
  | .applyRetry _ _ => []
  | .chunkClose _ => []
  | .copyClaimResume _ => []
  | .berylOpComplete _ => []
  | .opEnd _ => []
  | .engineStarved _ => []
  | .spawnStarved _ => []
  | .idleTimeout _ => []
  | .interrupt _ => []
  | .hostDoorbell _ _ => []
  | .taskFail _ => []
  | .preempt _ => []
  | .threadDispatch _ => []
  | .traceSample _ => []
  | .candidateForward _ _ _ => []
  | .thiefStart _ => []
  | .stealRequest _ => []
  | .stealWithdraw _ => []
  | .thiefBackoffEnd _ => []
  | .candidateAgeing _ _ => []
  | .messageArrival _ => []
  | .cancelBroadcast _ _ _ => []
  | .signalAdd _ => []
  | .launchRecord _ _ _ _ => []
  | .badlnchClear _ _ => []
  | .hostAnswer _ _ _ => []
  | .configMailboxRequest _ => []
  | .hostImageAccess _ _ _ _ => []
  | .releaseBufferSend => []
  | .pageMapped _ => []
  | .pageRefused _ => []
  | .shootdown _ _ _ => []
  | .spareShelfMove _ _ _ _ => []
  | .migrationMove _ _ => []
  | .settleExpiry _ _ => []
  | .epochAdvance => []
  | .visibilityPublish => []
  | .horizonPublish _ => []
  | .cycleStart _ => []
  | .frameIngress _ => []
  | .pubCutoff _ => []
  | .publishInstant _ => []
  | .timeCorrection _ => []
  | .holdoverEntry => []
  | .classStart _ _ => []
  | .classStop _ => []
  | .budgetExhausted _ _ => []
  | .budgetGraceEnd _ => []
  | .recoveryMarkOpen => []
  | .recoveryMarkClose => []
  | .markHoldTimeout => []
  | .machineCheck _ => []
  | .pairWrite _ => []
  | .logFlit _ _ => []
  | .progFlit _ _ => []
  | .ackFlit _ _ => []
  | .heartFlit _ _ => []
  | .fillReq _ _ _ _ => []
  | .fillFlit _ _ _ _ _ _ => []
  | .fcrcFlit _ _ _ _ => []
  | .peerFlit _ _ => []
  | .resign _ => []
  | .standbyAck => []
  | .heartTimer => []
  | .flitResend => []
  | .laneRetrainDone => []
  | .peerLossTimeout => []
  | .lagmaxTimeout => []
  | .tenantSwitch _ _ => []
  | .l2LockEnable _ => []
  | .l2LockDisable => []
  | .l2LockDone => []
  | .benchGate _ => []
  | .benchWake _ => []
  | .thermalEmergency _ _ => []
  | .powerCapAdjust _ => []
  | .packageReset => []
  | .firmwareRecoveryWrite _ => []
  | .coreReset _ => []
  | .benchReset _ => []
  | .stopJob _ => []
  | .goJob _ => []
  | .rdrec _ => []
  | .rdctx _ => []
  | .debugHalt _ => []
  | .debugRelease _ => []
  | .debugAccess _ => []
  | .unlock _ => []
  | .wipe _ => []
  | .openPort _ => []
  | .attest _ => []
  | .keyload _ => []
  | .deploy _ => []
  | .retire _ => []
  | .powerLoss _ => []
  | .qbvGateOpen _ => []
  | .flitDiscard _ => []
  | .stewardNotice _ => []
  | .perstRelease => []
  | .pcieConfigRequest => []

/-- The length in bytes (R30). -/
def Instr.len (i : Instr) : Nat := 2 * (encode i).length

/-- The instruction word a trap reports: the 16-bit parcel alone, or both parcels of a 32-bit word (R49). -/
def Instr.trapWord (i : Instr) : Word :=
  match encode i with
  | [] => 0
  | [p] => p.setWidth 64
  | p :: q :: _ => (p ++ q).setWidth 64

/-! ### Decoding -/

/-- A 16-bit instruction (R41, R43); `none` is ILLEGAL. -/
def decode16 (p : Parcel) : Option Instr :=
  let d := p.extractLsb' 7 4
  let a := p.extractLsb' 3 4
  let lo := p.extractLsb' 0 3
  match (p.extractLsb' 11 4).toNat with
  | 1 => if lo = 0 then some (.mov16 d a) else none
  | 2 => some (.addi16 d (p.extractLsb' 0 7))
  | 3 => if lo = 0 then some (.add16 d a) else none
  | 4 => some (.ldD16 d a lo)
  | 5 => some (.stD16 d a lo)
  | 6 => some (.bz16 d (p.extractLsb' 0 7))
  | 7 => some (.bnz16 d (p.extractLsb' 0 7))
  | 8 => some (.j16 (p.extractLsb' 0 11))
  | 9 =>
    let n := p.extractLsb' 0 5
    match (p.extractLsb' 5 2).toNat with
    | 0 => some (.shl16 d n)
    | 1 => some (.shr16 d n)
    | 2 => some (.sar16 d n)
    | _ => some (.ror16 d n)
  | 10 => if lo < 6#3 then some (.cmp16 d a lo) else none
  | 11 => if p.getLsbD 0 then none else some (.wait16 d (p.extractLsb' 1 6))
  | 12 =>
    if p.extractLsb' 0 6 ≠ 0 then none
    else if p.getLsbD 6 then some (.callr16 d) else some (.jr16 d)
  | 13 => if p.extractLsb' 0 11 = 0 then some .nop else none
  | 15 =>
    let fa := p.extractLsb' 8 3
    let fb := p.extractLsb' 5 3
    if p.getLsbD 0 || !(decide (fa < 6#3)) || !(decide (fb < 6#3)) then none
    else some (.fmt fa fb (p.getLsbD 4) (p.getLsbD 3) (p.extractLsb' 1 2))
  | _ => none

/-- An instruction if its fields are in range. -/
def checked (i : Instr) : Option Instr := if i.wf then some i else none

/-- Major 0x00, format R. -/
def decode00 (d a b : BitVec 6) (f : BitVec 7) : Option Instr :=
  match f.toNat with
  | 0 => some (.add d a b)
  | 1 => some (.sub d a b)
  | 2 => some (.and d a b)
  | 3 => some (.or d a b)
  | 4 => some (.xor d a b)
  | 5 => some (.andn d a b)
  | 6 => some (.orn d a b)
  | 7 => some (.xnor d a b)
  | 8 => some (.shl d a b)
  | 9 => some (.shr d a b)
  | 10 => some (.sar d a b)
  | 11 => some (.ror d a b)
  | 12 => some (.shli d a b)
  | 13 => some (.shri d a b)
  | 14 => some (.sari d a b)
  | 15 => some (.rori d a b)
  | 16 => some (.addW d a b)
  | 17 => some (.subW d a b)
  | 24 => some (.shlW d a b)
  | 25 => some (.shrW d a b)
  | 26 => some (.sarW d a b)
  | 27 => some (.rorW d a b)
  | 32 => some (.addS d a b)
  | 33 => some (.subS d a b)
  | 34 => some (.addUs d a b)
  | 35 => some (.subUs d a b)
  | 40 => some (.lea2 d a b)
  | 41 => some (.lea4 d a b)
  | 42 => some (.lea8 d a b)
  | 43 => some (.lea16 d a b)
  | 44 => some (.lea64 d a b)
  | _ => none

/-- Major 0x01, format R. -/
def decode01 (d a b : BitVec 6) (f : BitVec 7) : Option Instr :=
  match f.toNat with
  | 0 => some (.mul d a b)
  | 1 => some (.mulh d a b)
  | 2 => some (.mulhu d a b)
  | 3 => some (.mulhsu d a b)
  | 4 => some (.mulW d a b)
  | 5 => some (.mulS d a b)
  | 8 => some (.div d a b)
  | 9 => some (.divu d a b)
  | 10 => some (.rem d a b)
  | 11 => some (.remu d a b)
  | 12 => some (.divW d a b)
  | 13 => some (.divuW d a b)
  | 14 => some (.remW d a b)
  | 15 => some (.remuW d a b)
  | _ => none

/-- Major 0x02, format R. -/
def decode02 (d a b : BitVec 6) (f : BitVec 7) : Option Instr :=
  if f.extractLsb' 3 4 = 0 then checked (.cmp d a b (f.extractLsb' 0 3)) else
  match f.toNat with
  | 8 => some (.min d a b)
  | 9 => some (.max d a b)
  | 10 => some (.minu d a b)
  | 11 => some (.maxu d a b)
  | 16 => some (.movz d a b)
  | 17 => some (.movnz d a b)
  | _ => none

/-- Major 0x03, format R. -/
def decode03 (d a b : BitVec 6) (f : BitVec 7) : Option Instr :=
  match f.toNat with
  | 0 => some (.clz d a b)
  | 1 => some (.ctz d a b)
  | 2 => some (.popc d a b)
  | 3 => some (.rev8 d a b)
  | 4 => some (.rev8W d a b)
  | 8 => some (.bfx d a b)
  | 9 => some (.bfxs d a b)
  | 10 => some (.bfi d a b)
  | _ => none

/-- Major 0x0D, format R. -/
def decode0D (d a b : BitVec 6) (f : BitVec 7) : Option Instr :=
  match f.toNat with
  | 0 => some (.jr d a b)
  | 1 => some (.callr d a b)
  | 2 => some (.getpc d a b)
  | _ => none

/-- Major 0x10, format R. -/
def decode10 (d a b : BitVec 6) (f : BitVec 7) : Option Instr :=
  if !(f.getLsbD 6) then some (.wait d a b (f.extractLsb' 0 6)) else
  match f.toNat with
  | 64 => some (.trapi d a b)
  | 65 => some (.brk d a b)
  | 66 => some (.tret d a b)
  | 67 => some (.ifence d a b)
  | 68 => some (.idle d a b)
  | _ => none

/-- Major 0x24, format R. -/
def decode24 (d a b : BitVec 6) (f : BitVec 7) : Option Instr :=
  match f.toNat with
  | 0 => checked (.wmerge d a b)
  | 1 => checked (.wmovg d a b)
  | 2 => checked (.wmovw d a b)
  | 3 => checked (.wwait d a b)
  | 4 => checked (.wfence d a b)
  | 5 => checked (.wtest d a b)
  | _ => none

/-- Major 0x26, format R. -/
noncomputable def decode26 (d a b : BitVec 6) (f : BitVec 7) : Option Instr :=
  match f.toNat with
  | 0 => checked (.dtake d a b)
  | 1 => checked (.dtakeTry d a b)
  | 2 => some (.dfree d a b)
  | 3 => some (.dclaim d a b)
  | 4 => some (.dclaimTry d a b)
  | 5 => checked (.dpost d a b)
  | 6 => some (.dprobe d a b)
  | _ => none

/-- Major 0x27, format R. -/
noncomputable def decode27 (d a b : BitVec 6) (f : BitVec 7) : Option Instr :=
  match f.toNat with
  | 0 => checked (.rrot d a b)
  | 1 => checked (.rrotDn d a b)
  | 8 => some (.pfRc d a b)
  | 9 => some (.pfL2 d a b)
  | 10 => some (.rcinv d a b)
  | 11 => some (.rcinvAll d a b)
  | _ => none

/-- Major 0x28, format R. -/
noncomputable def decode28 (d a b : BitVec 6) (f : BitVec 7) : Option Instr :=
  match f.toNat with
  | 0 => some (.spawn d a b)
  | 1 => checked (.join d a b)
  | 2 => some (.yield d a b)
  | 3 => some (.exit d a b)
  | _ => none

/-- Major 0x29, format R. -/
noncomputable def decode29 (d a b : BitVec 6) (f : BitVec 7) : Option Instr :=
  match f.toNat with
  | 0 => checked (.send d a b)
  | 1 => checked (.sendTry d a b)
  | 2 => some (.recv d a b)
  | _ => none

/-- Major 0x2A, format R. -/
noncomputable def decode2A (d a b : BitVec 6) (f : BitVec 7) : Option Instr :=
  match f.toNat with
  | 0 => some (.tbset d a b)
  | 1 => some (.tbclr d a b)
  | 2 => some (.tbrd d a b)
  | _ => none

/-- Major 0x2B, format R. -/
noncomputable def decode2B (d a b : BitVec 6) (f : BitVec 7) : Option Instr :=
  match f.toNat with
  | 0 => some (.cancel d a b)
  | 1 => some (.ccheck d a b)
  | 2 => some (.ccheckX d a b)
  | _ => none

/-- Major 0x2C, format R. -/
noncomputable def decode2C (d a b : BitVec 6) (f : BitVec 7) : Option Instr :=
  match f.toNat with
  | 0 => some (.bbar d a b)
  | 1 => checked (.mbar d a b)
  | 2 => some (.sigb d a b)
  | 3 => some (.swait d a b)
  | 4 => some (.rgen d a b)
  | _ => none

/-- Major 0x2D, format R. -/
noncomputable def decode2D (d a b : BitVec 6) (f : BitVec 7) : Option Instr :=
  match f.toNat with
  | 0 => some (.cwait d a b)
  | 1 => some (.rdcyc d a b)
  | 2 => some (.hwait d a b)
  | 3 => some (.rdhor d a b)
  | 4 => some (.rdvis d a b)
  | _ => none

/-- Major 0x2E, format R. -/
noncomputable def decode2E (d a b : BitVec 6) (f : BitVec 7) : Option Instr :=
  match f.toNat with
  | 0 => some (.stset d a b)
  | 1 => some (.stchk d a b)
  | 2 => some (.stchkX d a b)
  | 3 => some (.tsmin d a b)
  | 4 => some (.tsrd d a b)
  | _ => none

/-- Major 0x2F, format R. -/
noncomputable def decode2F (d a b : BitVec 6) (f : BitVec 7) : Option Instr :=
  match f.toNat with
  | 0 => some (.pub d a b)
  | _ => none

/-- Major 0x35, format R. -/
noncomputable def decode35 (d a b : BitVec 6) (f : BitVec 7) : Option Instr :=
  match f.toNat with
  | 0 => checked (.twait d a b)
  | 1 => checked (.twaitS d a b)
  | 2 => some (.tpoll d a b)
  | _ => none

/-- Major 0x36, format R. -/
noncomputable def decode36 (d a b : BitVec 6) (f : BitVec 7) : Option Instr :=
  match f.toNat with
  | 0 => some (.tcancel d a b)
  | 1 => some (.tdet d a b)
  | 2 => some (.tadopt d a b)
  | 3 => some (.tpri d a b)
  | _ => none

/-- Major 0x37, format R. -/
noncomputable def decode37 (d a b : BitVec 6) (f : BitVec 7) : Option Instr :=
  match f.toNat with
  | 0 => some (.qfence d a b)
  | 1 => checked (.tfrec d a b)
  | _ => none

/-- Major 0x12, format V. -/
def decode12 (v : VF) (f : BitVec 5) : Option Instr :=
  match f.toNat with
  | 0 => some (.fadd v)
  | 1 => some (.fsub v)
  | 2 => some (.fmul v)
  | 3 => some (.fdiv v)
  | 4 => some (.fsqrt v)
  | 5 => some (.fmin v)
  | 6 => some (.fmax v)
  | 7 => some (.fabs v)
  | 8 => some (.fneg v)
  | 9 => some (.fsgn v)
  | 10 => some (.fround v)
  | _ => none

/-- Major 0x13, format V. -/
def decode13 (v : VF) (f : BitVec 5) : Option Instr :=
  match f.toNat with
  | 0 => some (.fmac v)
  | 1 => some (.fmsc v)
  | 2 => some (.fnmac v)
  | 3 => some (.fnmsc v)
  | 4 =>
    match v.src with
    | .lit l => some (.fmahLit v.d v.a v.b v.k l)
    | .reg => some (.fmah v)
    | .bank => some (.fmah v)
  | 5 => some (.fmsh v)
  | 6 => some (.fnmah v)
  | 7 => some (.fnmsh v)
  | _ => none

/-- Major 0x14, format V. -/
def decode14 (v : VF) (f : BitVec 5) : Option Instr :=
  let bf := f.getLsbD 4
  match (f.extractLsb' 0 4).toNat with
  | 0 => some (.fadd16 v bf)
  | 1 => some (.fsub16 v bf)
  | 2 => some (.fmul16 v bf)
  | 3 => some (.fmin16 v bf)
  | 4 => some (.fmax16 v bf)
  | 5 => some (.fmac16 v bf)
  | 6 => some (.fnmac16 v bf)
  | 7 => some (.fmah16 v bf)
  | _ => none

/-- Major 0x17, format V. -/
def decode17 (v : VF) (f : BitVec 5) : Option Instr :=
  let c := f.extractLsb' 0 3
  match f.toNat with
  | 16 => some (.vsel v)
  | 24 => checked (.kand v)
  | 25 => checked (.kor v)
  | 26 => checked (.kxor v)
  | 27 => checked (.kandn v)
  | 28 => checked (.knot v)
  | _ =>
    match (f.extractLsb' 3 2).toNat with
    | 0 => checked (.fcmp v c)
    | 1 => checked (.icmp v c)
    | _ => none

/-- Major 0x18, format V. -/
def decode18 (v : VF) (f : BitVec 5) : Option Instr :=
  if f.extractLsb' 2 3 = 4#3 then some (.vq4 v (f.extractLsb' 0 2)) else
  if f.extractLsb' 2 3 = 5#3 then some (.vq4a v (f.extractLsb' 0 2)) else
  match f.toNat with
  | 0 => some (.fcvtF16F32 v)
  | 1 => some (.fcvtBf16F32 v)
  | 2 => checked (.fcvtF32F16 v)
  | 3 => checked (.fcvtF32Bf16 v)
  | 4 => some (.fcvtI32F32 v)
  | 5 => some (.fcvtI32F32Z v)
  | 6 => some (.fcvtN32F32 v)
  | 7 => some (.fcvtN32F32Z v)
  | 8 => some (.fcvtF32I32 v)
  | 9 => some (.fcvtF32N32 v)
  | 10 => checked (.vnarrowI8 v)
  | 11 => checked (.vnarrowN8 v)
  | 12 => checked (.vwidenI8 v)
  | 13 => checked (.vwidenN8 v)
  | 24 => checked (.vdq4 v)
  | _ => none

/-- Major 0x19, format V. -/
def decode19 (v : VF) (f : BitVec 5) : Option Instr :=
  match f.toNat with
  | 0 => some (.vadd v)
  | 1 => some (.vsub v)
  | 2 => some (.vmul v)
  | 3 => some (.vmulh v)
  | 4 => some (.vmin v)
  | 5 => some (.vmax v)
  | 6 => some (.vminu v)
  | 7 => some (.vmaxu v)
  | 8 => some (.vand v)
  | 9 => some (.vor v)
  | 10 => some (.vxor v)
  | 11 => some (.vandn v)
  | 12 => some (.vshl v)
  | 13 => some (.vshr v)
  | 14 => some (.vsar v)
  | 15 => some (.vabs v)
  | 16 => some (.vaddI16 v)
  | 17 => some (.vsubI16 v)
  | 20 => some (.vdot4Ss v)
  | 21 => some (.vdot4Uu v)
  | 22 => some (.vdot4Us v)
  | _ => none

/-- Major 0x1A, format V. -/
def decode1A (v : VF) (f : BitVec 5) : Option Instr :=
  match f.toNat with
  | 0 => some (.vperm v)
  | 1 => checked (.vbcast v)
  | 2 => checked (.vslup v)
  | 3 => checked (.vsldn v)
  | 4 => checked (.vrot v)
  | 5 => some (.vrev v)
  | 6 => some (.vzipLo v)
  | 7 => some (.vzipHi v)
  | 8 => some (.vuzpEv v)
  | 9 => some (.vuzpOd v)
  | _ => none

/-- Major 0x1B, format V. -/
def decode1B (v : VF) (f : BitVec 5) : Option Instr :=
  match f.toNat with
  | 0 => some (.fsum v)
  | 1 => some (.fmaxr v)
  | 2 => some (.fminr v)
  | 8 => some (.isum v)
  | 9 => some (.imaxr v)
  | 10 => some (.iminr v)
  | 11 => some (.imaxur v)
  | 12 => some (.iminur v)
  | _ => none

/-- Major 0x1C, format V. -/
def decode1C (v : VF) (f : BitVec 5) : Option Instr :=
  match f.toNat with
  | 0 => some (.frcp v)
  | 1 => some (.frsqrt v)
  | _ => none

/-- Major 0x1D, format V. -/
def decode1D (v : VF) (f : BitVec 5) : Option Instr :=
  match f.toNat with
  | 0 =>
    match v.src with
    | .lit l => some (.vmovLit v.d v.a v.b v.k l)
    | .reg => some (.vmov v)
    | .bank => some (.vmov v)
  | 1 => some (.vbcg v)
  | 2 => checked (.vins v)
  | 3 => checked (.vext v)
  | 4 => checked (.vextu v)
  | 5 => checked (.kmovg v)
  | 6 => checked (.kmovk v)
  | _ => none

/-- The operand fields of a format V word; func bits 6:5 = 11 is ILLEGAL (R34). -/
def vfields (w l : Word32) : Option VF :=
  let mk := fun s => some (⟨w.extractLsb' 20 5, w.extractLsb' 15 5, w.extractLsb' 10 5, w.extractLsb' 7 3, s⟩ : VF)
  match (w.extractLsb' 5 2).toNat with
  | 0 => mk .reg
  | 1 => mk .bank
  | 2 => mk (.lit l)
  | _ => none

/-- Majors 0x1E-0x22, format M: `sized` for sizes 000-011, `vector` for size 100 (R34, R48). -/
def decodeM (w : Word32) (sized : BitVec 6 → BitVec 6 → BitVec 2 → BitVec 4 → BitVec 6 → Instr)
    (vector : Option (BitVec 5 → BitVec 6 → BitVec 4 → BitVec 6 → Instr)) : Option Instr :=
  let b := w.extractLsb' 13 6
  let x := w.extractLsb' 6 4
  let o := w.extractLsb' 0 6
  if !(w.getLsbD 12) then some (sized (w.extractLsb' 19 6) b (w.extractLsb' 10 2) x o)
  else if w.extractLsb' 10 2 ≠ 0 || w.getLsbD 24 then none
  else vector.map fun f => f (w.extractLsb' 19 5) b x o

/-- Major 0x25, the atomics (R148). -/
noncomputable def decode25 (w : Word32) : Option Instr :=
  let d := w.extractLsb' 19 6
  let b := w.extractLsb' 13 6
  let dw := w.getLsbD 10
  let x := w.extractLsb' 6 4
  let win := w.getLsbD 4
  if w.extractLsb' 11 2 ≠ 1#2 || w.getLsbD 5 then none else
  match (w.extractLsb' 0 4).toNat with
  | 0 => some (.amoSwap d b dw x win)
  | 1 => checked (.amoCas d b dw x win)
  | 2 => some (.amoAdd d b dw x win)
  | 3 => some (.amoAnd d b dw x win)
  | 4 => some (.amoOr d b dw x win)
  | 5 => some (.amoXor d b dw x win)
  | 6 => some (.amoMin d b dw x win)
  | 7 => some (.amoMax d b dw x win)
  | 8 => some (.amoMinu d b dw x win)
  | 9 => some (.amoMaxu d b dw x win)
  | 10 => if dw then none else some (.amoFadd d b x win)
  | _ => none

/-- Majors 0x30-0x34, format E (R187, R191, R199-R202). -/
noncomputable def decodeE (m : Nat) (w : Word32) : Option Instr :=
  let d := w.extractLsb' 19 6
  let x := w.extractLsb' 16 3
  let g := w.extractLsb' 10 6
  match m with
  | 0x30 =>
    if w.extractLsb' 1 15 ≠ 0 then none
    else if w.getLsbD 0 then checked (.cqTry d x) else checked (.cq d x)
  | 0x31 =>
    let det := w.getLsbD 8
    let q := w.extractLsb' 6 2
    let rop := w.extractLsb' 2 4
    if w.extractLsb' 9 7 ≠ 0 then none else
    match (w.extractLsb' 0 2).toNat with
    | 0 => if rop = 0 then checked (.copy d x det q) else none
    | 1 => checked (.copyRed d x det q rop)
    | 2 => if rop = 0 then checked (.copyMc d x det q) else none
    | _ => none
  | 0x32 =>
    if w.extractLsb' 0 4 ≠ 0 then none
    else checked (.bwl d x g (w.extractLsb' 8 2) (w.extractLsb' 5 3) (w.getLsbD 4))
  | 0x33 =>
    if w.extractLsb' 0 2 ≠ 0 then none
    else checked (.bmm d x g (w.extractLsb' 8 2) (w.extractLsb' 5 3) (w.extractLsb' 3 2) (w.getLsbD 2))
  | 0x34 =>
    if w.getLsbD 0 then none
    else if w.getLsbD 5 then
      checked (.bclr d x g (w.extractLsb' 8 2) (w.getLsbD 7) (w.getLsbD 6) (w.extractLsb' 3 2) (w.getLsbD 2) (w.getLsbD 1))
    else
      checked (.bdr d x g (w.extractLsb' 8 2) (w.getLsbD 7) (w.getLsbD 6) (w.extractLsb' 3 2) (w.getLsbD 2) (w.getLsbD 1))
  | _ => none

/-- An immediate instruction: the operand of R37 by its escape. -/
def decodeImm (i : BitVec 13) (l0 l1 : Word32) (direct : BitVec 13 → Instr) (one : Word32 → Instr) (two : Word → Instr) : Instr :=
  if i = 0x1000#13 then one l0 else if i = 0x1001#13 then two (l1 ++ l0) else direct i

/-- A 32-bit instruction with the literal words that may follow it (R34, R46); `none` is ILLEGAL. -/
noncomputable def decode32 (w l0 l1 : Word32) : Option Instr :=
  let d := w.extractLsb' 19 6
  let a := w.extractLsb' 13 6
  let b := w.extractLsb' 7 6
  let f := w.extractLsb' 0 7
  let i := w.extractLsb' 0 13
  let vec := fun g => (vfields w l0).bind fun v => g v (w.extractLsb' 0 5)
  match (w.extractLsb' 25 6).toNat with
  | 0x00 => decode00 d a b f
  | 0x01 => decode01 d a b f
  | 0x02 => decode02 d a b f
  | 0x03 => decode03 d a b f
  | 0x04 => some (decodeImm i l0 l1 (.addi d a) (.addiLit32 d a) (.addiLit64 d a))
  | 0x05 => some (decodeImm i l0 l1 (.andi d a) (.andiLit32 d a) (.andiLit64 d a))
  | 0x06 => some (decodeImm i l0 l1 (.ori d a) (.oriLit32 d a) (.oriLit64 d a))
  | 0x07 => some (decodeImm i l0 l1 (.xori d a) (.xoriLit32 d a) (.xoriLit64 d a))
  | 0x08 => if i.extractLsb' 9 4 = 0 then some (.ldcb d a (w.getLsbD 8) (w.extractLsb' 0 8)) else none
  | 0x09 => some (.movi d (w.extractLsb' 0 19))
  | 0x0A =>
    let o := w.extractLsb' 0 16
    match (w.extractLsb' 16 3).toNat with
    | 0 => some (.bz d o)
    | 1 => some (.bnz d o)
    | 2 => some (.bltz d o)
    | 3 => some (.bgez d o)
    | 4 => some (.blez d o)
    | 5 => some (.bgtz d o)
    | 6 => some (.br d o)
    | _ => none
  | 0x0B => some (.j (w.extractLsb' 0 25))
  | 0x0C => some (.call (w.extractLsb' 0 25))
  | 0x0D => decode0D d a b f
  | 0x0E => if i.extractLsb' 10 3 = 0 then some (.rdctl d a (w.extractLsb' 0 10)) else none
  | 0x0F =>
    match (i.extractLsb' 10 3).toNat with
    | 0 => some (.wrctl d a (w.extractLsb' 0 10))
    | 1 => some (.setctl d a (w.extractLsb' 0 10))
    | 2 => some (.clrctl d a (w.extractLsb' 0 10))
    | _ => none
  | 0x10 => decode10 d a b f
  | 0x11 =>
    let x := w.extractLsb' 16 3
    match (w.extractLsb' 13 3).toNat with
    | 0 => some (.movx d x i)
    | 1 => some (.movg d x i)
    | 2 => some (.ldx d x i)
    | 3 => some (.addx d x i)
    | _ => none
  | 0x12 => vec decode12
  | 0x13 => vec decode13
  | 0x14 => vec decode14
  | 0x15 => some (.vmovImm (w.extractLsb' 20 5) (w.extractLsb' 0 20))
  | 0x16 => some (.fmahImm (w.extractLsb' 20 5) (w.extractLsb' 0 20))
  | 0x17 => vec decode17
  | 0x18 => vec decode18
  | 0x19 => vec decode19
  | 0x1A => vec decode1A
  | 0x1B => vec decode1B
  | 0x1C => vec decode1C
  | 0x1D => vec decode1D
  | 0x1E => decodeM w .ld (some .ldV)
  | 0x1F => decodeM w .ldu none
  | 0x20 => decodeM w .st (some .stV)
  | 0x21 => decodeM w .ldw (some .ldwV)
  | 0x22 => decodeM w .ldc (some .ldcV)
  | 0x23 => vec fun v g => if g.getLsbD 4 then some (.vscatter v (g.extractLsb' 0 4)) else checked (.vgather v (g.extractLsb' 0 4))
  | 0x24 => decode24 d a b f
  | 0x25 => decode25 w
  | 0x26 => decode26 d a b f
  | 0x27 => decode27 d a b f
  | 0x28 => decode28 d a b f
  | 0x29 => decode29 d a b f
  | 0x2A => decode2A d a b f
  | 0x2B => decode2B d a b f
  | 0x2C => decode2C d a b f
  | 0x2D => decode2D d a b f
  | 0x2E => decode2E d a b f
  | 0x2F => decode2F d a b f
  | 0x30 => decodeE 0x30 w
  | 0x31 => decodeE 0x31 w
  | 0x32 => decodeE 0x32 w
  | 0x33 => decodeE 0x33 w
  | 0x34 => decodeE 0x34 w
  | 0x35 => decode35 d a b f
  | 0x36 => decode36 d a b f
  | 0x37 => decode37 d a b f
  | _ => none

/-- The number of literal words of a 32-bit instruction (R30). -/
def literalWords (w : Word32) : Nat :=
  let m := (w.extractLsb' 25 6).toNat
  let formatI := decide (4 ≤ m ∧ m ≤ 8) || m == 0x0E || m == 0x0F
  let formatV := decide (0x12 ≤ m ∧ m ≤ 0x14) || decide (0x17 ≤ m ∧ m ≤ 0x1D) || m == 0x23
  if formatI && w.extractLsb' 0 13 == 0x1000#13 then 1
  else if formatI && w.extractLsb' 0 13 == 0x1001#13 then 2
  else if formatV && w.extractLsb' 5 2 == 2#2 then 1
  else 0

/-- The number of parcels of the instruction that begins with these parcels; the second is read only where bit 15 of the
first is 1 (R30). -/
def parcelCount (p q : Parcel) : Nat :=
  if p.getLsbD 15 then 2 + 2 * literalWords (p ++ q) else 1

/-- A literal word from its two parcels (R37). -/
def literal (p q : Parcel) : Word32 := q ++ p

/-- The first instruction of a list of parcels. -/
noncomputable def decode (ps : List Parcel) : Decoded :=
  let out := fun (o : Option Instr) =>
    match o with
    | some i => Decoded.instr i
    | none => Decoded.illegal
  match ps with
  | [] => .short
  | p :: rest =>
    if !(p.getLsbD 15) then out (decode16 p)
    else
      match rest with
      | [] => .short
      | q :: lits =>
        match literalWords (p ++ q), lits with
        | 0, _ => out (decode32 (p ++ q) 0 0)
        | 1, a :: b :: _ => out (decode32 (p ++ q) (literal a b) 0)
        | 2, a :: b :: c :: e :: _ => out (decode32 (p ++ q) (literal a b) (literal c e))
        | _, _ => .short

/-- The parcels of an instruction whose bits are numbered as the opcode table numbers them: a 16-bit row in one parcel, a
32-bit row in two, bits 31:16 first, with zero literal words after it. -/
def tableParcels (nbits w : Nat) : List Parcel :=
  if nbits ≤ 16 then [BitVec.ofNat 16 w]
  else
    let x := BitVec.ofNat 32 w
    let y := BitVec.ofNat 64 (w / 2 ^ 32)
    wordParcels x ++ litParcels (y.extractLsb' 0 32) ++ litParcels (y.extractLsb' 32 32)

/-- The instruction the decoder reads from a word of the opcode table. -/
noncomputable def decodeTableWord (nbits w : Nat) : Option Instr :=
  match decode (tableParcels nbits w) with
  | .instr i => some i
  | .illegal => none
  | .short => none

end Sys2Proof
end

