-- ==== Sys2Proof/Config.lean ====
section
/-! DEFINITION. What a VZ9 fixes outside the spec, and the values the spec leaves open: constants with no body, so that
nothing can be proved of the value they take (log 10). -/

namespace Sys2Proof.Config

/-- How the lines of the n-th 2 MiB block of physical addresses are dealt to the slices (R17): exchanges of two lines, made one
after the other. A fixed function of the physical address that is not published. -/
opaque dramSwaps : Nat → List (Fin 32768 × Fin 32768)

/-- Exchange two lines. -/
def swapLine (x : Fin 32768) (s : Fin 32768 × Fin 32768) : Fin 32768 :=
  if x = s.1 then s.2 else if x = s.2 then s.1 else x

/-- The L2 slice, 0-127, that homes a DRAM line (R17). Exchanges permute the 32,768 lines of a 2 MiB block, so that 256 fall in each
slice; every function with that property is one of these. -/
def dramSlice (line : Nat) : Fin 128 :=
  ⟨((dramSwaps (line / 32768)).foldl swapLine (Fin.ofNat 32768 line)).val / 256, by omega⟩

/-- The n-th byte read from the host window or a peer package: the other side's memory (R20). -/
opaque foreignByte : Nat → Byte

/-- The n-th byte fetched from code written since the last `ifence`: true takes the new value (R226). -/
opaque fetchNew : Nat → Bool

/-- The n-th choice, for an address, among the entries that TLBs and walk caches still hold and the tables as they stand (R339). -/
opaque staleTlb : Nat → Word → Nat

/-- The n-th entry that a host pager makes present, beside V: the tenant's host writes its tables (R337, R374). -/
opaque hostEntry : Nat → Word

/-- The n-th byte of the engine save areas: the spec gives no layout of the slots and tiles in them (R288). -/
opaque engineByte : Nat → Byte

/-- The n-th value in a slot or tile restored from a save area that was written while its tenant was out (R288). -/
opaque engineCell : Nat → BitVec 48

/-- What the n-th `sigb` to a core that is not gated and runs no task answers: true 1, false 0 (R176). -/
opaque signalIdle : Nat → Bool

/-- The source field of the n-th trace record of a spawned record that its own core dispatches (R389). -/
opaque traceSource : Nat → BitVec 4

/-- The first of the 16 consecutive MAC addresses in the fuses, its first octet in bits 7:0 as in R247 (R248). -/
opaque firstMac : BitVec 48

/-- Whether the partner at a control port answers the verification of frame preemption (R253). -/
opaque partnerVerifies : Nat → Bool

/-- How many core ticks the n-th restore of the journal takes, within the bound of R260. -/
opaque restoreTicks : Nat → Nat

/-- The MiB of journal that n writes performed since the last closed mark take: the spec gives no unit of an image (R259, R264). -/
opaque journalMib : Nat → Nat

/-- The n-th 64 KiB frame that the pager takes from its free pool, in units of 64 KiB of usable DRAM (R338, R397). -/
opaque poolFrame : Nat → Fin 3932160

/-- The n-th 64 KiB frame that a peer package gives a page moved to it, in units of 64 KiB of the three peer ranges (R328, R341). -/
opaque peerFrame : Nat → Fin 201326592

/-- The other package's accesses to a page of this one within the last 100 µs, when this one weighs a move for the n-th time (R341). -/
opaque peerAccesses : Nat → Nat

/-- The gate control list that firmware builds from a stream list for a port, if any (R373). -/
opaque builtQbv : List Word → Nat → Option GateList

/-- The stream gate that firmware builds from a stream list at an index, if any (R373). -/
opaque builtQci : List Word → Nat → Option StreamGate

/-- The words of a request that hands a log segment to the host, which the spec does not give (R373, R374). -/
opaque segmentWord : Nat → Word

/-- The number of the package that homes a page, this one (true) or the other (R342). -/
opaque packageNumber : Bool → Fin 4

/-- The CAP that firmware gives a die when the n-th power average calls for a change: the spec gives no step (R384). -/
opaque powerCap : Nat → Nat

/-- The address that the HOSTIN entry of a configuration request names: the mailbox has no published offset (R262, R380). -/
opaque mailbox : Word

/-- Whether the host port is ready when the n-th configuration request comes, within the second after PERST# is released (R395). -/
opaque portReady : Nat → Bool

/-- Verification of a firmware image by its own signature, whose place in the image is not published (R392). -/
opaque imageVerifies : List Byte → Bool

/-- RSASSA-PSS verification of a message and a signature under the debug-authority key (R365). -/
opaque pssVerify : List Byte → List Byte → Bool

/-- RSASSA-PSS signature of a report under the identity key; the counter makes each salt its own (R368). -/
opaque pssSign : Nat → List Byte → List Byte

/-- RSAES-OAEP decryption under the identity key (R393). -/
opaque oaepDecrypt : List Byte → Option (List Byte)

/-- Fuse contents at power on: DEVID (R361). -/
opaque devId : Word

/-- The lifecycle state burned in the fuses, 0-4 (R393). -/
opaque lifecycle : Fin 5

/-- The unlock counter burned in the fuses (R364). -/
opaque unlockCount : BitVec 16

/-- The measurement M0 or M1 that a boot takes of the firmware image in the flash, beside the ROM (R392). -/
opaque bootMeasure : List Byte → Nat → List Byte

/-- The hottest junction of a die at a core tick, in °C (R385). -/
opaque junction : Nat → Nat → BitVec 8

/-- The package power over the 10 µs before a core tick, in units of 0.125 W (R385). -/
opaque packagePower : Nat → BitVec 16

/-- The power of a die at a core tick, in units of 0.125 W (R385). -/
opaque diePower : Nat → Nat → BitVec 16

/-- What CORE of ctl.core reads on steward n: the spec numbers no steward (R12, R13). -/
opaque stewardCore : Nat → BitVec 9

/-- What HT of ctl.ht reads on steward n (R12, R13). -/
opaque stewardHt : Nat → BitVec 2

end Sys2Proof.Config
end

