-- ==== Sys2Proof/Machine/State.lean ====
section
/-! DEFINITION. The state of a VZ9 package as plain data, the state after reset, and the reasons a step can stop. -/

namespace Sys2Proof.Machine

/-- Raised by `step` where the package has stopped (R261, R262) and no event is due: the hardware issues nothing until it is
reset. Safe: the model stops where the hardware does nothing. -/
inductive Fault where
  | stopped
  deriving DecidableEq, Repr

/-- `notModelled` is answered by an arm of `exec` that has no meaning yet. Safe: nothing is claimed of such an instruction. -/
inductive Refusal where
  | notModelled (mnemonic : String)
  deriving DecidableEq, Repr

/-! ### Threads -/

/-- A register of a thread, as the scoreboard names it (R219). -/
inductive Reg where
  | g (n : Nat)
  | v (n : Nat)
  | k (n : Nat)
  | w (n : Nat)
  | x (n : Nat)
  deriving DecidableEq, Repr

/-- The task a thread runs: its record slot and the fields of the record that dispatch copies (R157, R160, R299). `seen` tells
that it has observed its cancel (R173); the rest is what trace records and delay accounts need (R295, R389). -/
structure Task where
  tenant : Nat
  slot : Nat
  entry : Nat
  job : Nat
  gen : Nat
  pri : Nat
  cls : Nat
  dom : Nat
  bud : Bool
  link : Nat
  seen : Bool
  sender : Option Nat
  tag : Nat
  source : Nat
  deriving DecidableEq, Repr

/-- Why a thread is parked: a page that is not present (R337), a double fault (R349), the debugger (R394). -/
inductive Park where
  | page (req : Nat)
  | doubleFault
  | debugger
  deriving DecidableEq, Repr

/-- Why the current instruction of a thread does not issue or complete yet. `joining b` tells that WAITER of the block at b is
written (R163), `cycle c` the cycle number at the issue of a `cwait` (R177), `asked` that a request is on its way to a drawer, `drawer`
that a `dtake` has found it empty (R151, R152), `moving` that its page moves to another package (R341). -/
inductive Stall where
  | scoreboard
  | counter
  | waitCounters
  | ownStores
  | leaving
  | idle (deadline : Option Nat) (d : Nat) (warn : Bool)
  | record
  | fifo (since engine : Nat)
  | pool (since : Nat)
  | witness
  | drawer
  | mailbox (core pri : Nat)
  | waiters
  | joining (b : Nat)
  | cycle (c : Nat)
  | epoch (e : Nat)
  | asked
  | moving
  | barrier
  | signal
  | ring
  | token
  | generation
  | log
  | release
  deriving DecidableEq, Repr

/-- One hardware thread (R23, R343, R346, R387). -/
structure Thread where
  g : Store Word
  v : Store Vec
  k : Store (BitVec 16)
  w : Store Word
  x : Store Word
  cb : Store Word32
  pc : Word
  ol : Nat
  os : Nat
  oc : Nat
  ot : Nat
  busy : List Reg
  tstat : Word
  epc : Word
  cause : Word
  tval : Word
  tvec : Word
  tsave : Word
  cause2 : Word
  tval2 : Word
  prog : Word
  tstk : Word
  tsg : Word
  wp0 : Word
  wp1 : Word
  tf : Bool
  fw : Word
  ts : Word
  vw : Nat
  task : Option Task
  cbEntry : Nat
  cbNeed : Bool
  irq : Option Word
  irqTen : Option Nat
  park : Option Park
  stall : Option Stall
  preemptDue : Bool
  dueAt : Nat
  stopDue : Bool
  stopAt : Nat
  fence : Nat
  deriving DecidableEq, Repr

/-- A thread at reset: the control registers at the reset values of R221, R343 and R387, all other registers 0. DESIGN CHOICE
(log 1): the spec gives no reset value for the other registers. -/
def Thread.init : Thread where
  g := []
  v := []
  k := []
  w := []
  x := []
  cb := []
  pc := 0
  ol := 0
  os := 0
  oc := 0
  ot := 0
  busy := []
  tstat := 0
  epc := 0
  cause := 0
  tval := 0
  tvec := 0
  tsave := 0
  cause2 := 0
  tval2 := 0
  prog := 0
  tstk := 0
  tsg := 0
  wp0 := 0
  wp1 := 0
  tf := false
  fw := 0
  ts := 0
  vw := 0
  task := none
  cbEntry := 0
  cbNeed := false
  irq := none
  irqTen := none
  park := none
  stall := none
  preemptDue := false
  dueAt := 0
  stopDue := false
  stopAt := 0
  fence := 0


/-! ### Accesses on their way -/

/-- What an access does at its home. -/
inductive AccKind where
  /-- A plain load (R140): `v` is V at the node at issue (R318). -/
  | plain (v : Nat)
  /-- A read at the home (R314). -/
  | home
  /-- A store of the low bytes of a value (R141). -/
  | store (data : Nat)
  /-- An atomic: operation, operand, compare-and-swap's second operand (R148). -/
  | atomic (op : Nat) (x y : Word)
  deriving DecidableEq, Repr

/-- One part of an access, within one line: resolved address, length, offset in the access. -/
structure Piece where
  addr : Nat
  len : Nat
  off : Nat
  deriving DecidableEq, Repr

/-- How load data become a register value (R140). -/
inductive Ext where
  | sext (bytes : Nat)
  | zext (bytes : Nat)
  | vec
  | lanes (mask : Nat)
  deriving DecidableEq, Repr

/-- An access that has passed its checks and left its thread (R132). `todo` are the parts no home has accepted, `acc` those
accepted and not performed, with home, sequence number and epoch. `value` gathers the bytes read, `wit` the witness so far.
`replied` tells that the thread has had its reply, `gs` and `stamp` what a stamp-checked load also writes (R144), `stamp` of a
store its writer's TS (R257), `bars` the lines a read-cache invalidate covered and the writes before it, `since` the count of
performed writes at issue, `code` the ARG of a READ entry (R262). -/
structure Access where
  id : Nat
  thread : Nat
  kind : AccKind
  todo : List Piece
  acc : List (Piece × Nat × Nat × Nat)
  dst : Option Reg
  ext : Ext
  wreg : Nat
  wait : Option Word
  value : Nat
  wit : Word
  refused : Bool
  replied : Bool
  gs : Option Nat
  stamp : Word
  bars : List (Nat × Nat)
  since : Nat
  code : Nat
  cls : Nat
  deriving DecidableEq, Repr

/-- One write a home has performed, kept while a plain load may still return what stood before it (R314, R318). `v` is the
root's V when it was performed, `own` the thread and access that made it. The store itself names the `len` bytes at `at_`; `old` holds
what stood in all that it changes, from `addr` on: the whole line of a drawer descriptor (R149). -/
structure Hist where
  n : Nat
  at_ : Nat
  len : Nat
  addr : Nat
  old : List Byte
  v : Nat
  own : Option (Nat × Nat)
  deriving DecidableEq, Repr

/-- A drawer operation on its way to the drawer's shelf (R152): its func, the descriptor's address, the registers it writes, and the
witness that a `dpost` brings. -/
structure DrawerAsk where
  id : Nat
  thread : Nat
  func : Nat
  at_ : Nat
  d : Nat
  b : Nat
  wit : Word
  deriving DecidableEq, Repr

/-- A signal add on its way to a bench controller (R176). -/
structure SignalMsg where
  id : Nat
  tenant : Nat
  core : Nat
  counter : Nat
  rgen : Nat
  amount : Nat
  thread : Nat
  d : Nat
  deriving DecidableEq, Repr

/-! ### Tasks and messages -/

/-- A message in flight or in a mailbox (R166). `since` is the package time of its posting, in a mailbox that of its arrival; `came` the
core tick of its arrival (R309). -/
structure Message where
  id : Nat
  tenant : Nat
  header : Word
  stamp : Word
  sendWord : Word
  pay : List Word
  arrival : Nat
  since : Nat
  came : Nat
  aged : Bool
  cls : Nat
  deriving DecidableEq, Repr

/-- A record that can be dispatched (R301). `cyc` marks one made ready at a cycle start, `handed` a child handed over; `since` is the
core tick of its readying (R302, R309). -/
structure Ready where
  slot : Nat
  tenant : Nat
  arrival : Nat
  cyc : Bool
  handed : Bool
  since : Nat
  aged : Bool
  sender : Option Nat
  deriving DecidableEq, Repr

/-- A cyclic release that waits for a thread (R251, R299). -/
structure Release where
  tenant : Nat
  entry : Nat
  cycle : Word
  arrival : Nat
  since : Nat
  deriving DecidableEq, Repr

/-- A record a launch has still to create on a core: its tenant and window, the words of the launch record, and the core's rank in
it (R296, R306). -/
structure LaunchWait where
  tenant : Nat
  window : Nat
  words : List Word
  rank : Nat
  deriving DecidableEq, Repr

/-- A task suspended in `recv` (R169). -/
structure Waiter where
  slot : Nat
  tenant : Nat
  tag : Nat
  job : Nat
  deriving DecidableEq, Repr

/-- A record suspended on a drawer, an op, a cycle or its attached ops (R158). -/
structure Sleeper where
  slot : Nat
  tenant : Nat
  state : Nat
  key : Nat
  deriving DecidableEq, Repr

/-- The state of a core as a thief (R303): victims still to ask, the victim asked, the wait after the last one, and since when: idle
before the first victim, waiting at the one asked, or waiting after the last. -/
structure Thief where
  victims : List Nat
  asked : Option Nat
  backoff : Bool
  since : Nat
  deriving DecidableEq, Repr

/-- A command in a core's FIFO: an op's key, or a fence with its queue mask and its thread (R191, R205). -/
inductive Cmd where
  | op (key : Nat)
  | fence (mask thread : Nat)
  deriving DecidableEq, Repr

/-- An element of an engine queue: an op or a fence marker with the fence's number (R204, R205). -/
inductive QItem where
  | op (key : Nat)
  | marker (fence : Nat)
  deriving DecidableEq, Repr

/-- One core (R14, R176, R296-R305, R390). `yields` are the slots of yielded records in the deque and
the core ticks of their yields, `started` the core tick of the last dispatch (R302). -/
structure Core where
  hwDeque : List Nat
  memLen : Nat
  pool : List Nat
  ready : List Ready
  releases : List Release
  launches : List LaunchWait
  launched : List Nat
  spawned : List Nat
  mail : Store (List Message)
  waiters : List Waiter
  steals : List Nat
  thief : Option Thief
  fifo : List Cmd
  queues : Store (List QItem)
  signals : Store Nat
  rgen : Nat
  refuse : Nat
  stalegen : Nat
  dasel : Word
  accounts : Store Nat
  yields : List (Nat × Nat)
  started : Nat
  deriving DecidableEq, Repr

/-- A core at reset. -/
def Core.init : Core where
  hwDeque := []
  memLen := 0
  pool := []
  ready := []
  releases := []
  launches := []
  launched := []
  spawned := []
  mail := []
  waiters := []
  steals := []
  thief := none
  fifo := []
  queues := []
  signals := []
  rgen := 0
  refuse := 0
  stalegen := 0
  dasel := 0
  accounts := []
  yields := []
  started := 0

/-- Who owns an op (R208); `gone` is a cancelled task, whose op is reaped when it ends (R173). -/
inductive Owner where
  | task (tenant slot : Nat)
  | block (tenant addr : Nat)
  | tenant (tenant : Nat)
  | gone
  deriving DecidableEq, Repr

/-- A reducing chunk issued and not closed: its elements with their resolved destinations, the lines not yet applied, those
acknowledged with home and sequence number, and those to be sent again (R289-R291). -/
structure OpenChunk where
  chunk : Nat
  elems : List (Nat × Nat)
  lines : List Nat
  acked : List (Nat × Nat)
  retry : List Nat
  deriving DecidableEq, Repr

/-- What a copy has read of its descriptor (R193): source, element size, the drawer it claims from, the dimensions as count, source
stride and destination stride, and the destination bases. -/
structure CopyPlan where
  src : Word
  esz : Nat
  drawer : Option Nat
  dims : List (Nat × Int × Int)
  bases : List Word
  deriving DecidableEq, Repr

/-- A K-vector as an engine has read it: its integers and the exponents e of its blocks (R67, R68). -/
structure KVec where
  vals : List Int
  e0 : Nat
  e1 : Nat
  deriving DecidableEq, Repr

/-- An op (R183-R211). `state` is that of R185; `place` is 0 in the FIFO, 1 in a queue, 2 once started; `born` orders pushes;
`finished` tells that the engine has done all its work; `issued` counts the chunks that a copy has ever issued; `rows` are those of A in
a row buffer (R275); `behind` the fences that a stop found before it (R321), and `written` its journal entry of that stop (R287). -/
structure Op where
  cmd : Word
  w1 : Word
  w2 : Word
  w3 : Word
  state : Nat
  cause : Nat
  reason : Nat
  flags : Nat
  prog : Nat
  faddr : Word
  witn : Word
  token : Word
  owner : Owner
  tenant : Nat
  job : Nat
  cls : Nat
  stamp : Word
  sup : Bool
  thread : Option Nat
  place : Nat
  descRead : Bool
  leaveAsked : Option Nat
  leaveHeld : Nat
  claim : Option Nat
  posted : Bool
  stopping : Bool
  homes : List (Nat × Nat)
  chunks : List OpenChunk
  plan : Option CopyPlan
  finished : Bool
  born : Nat
  pageReq : Option Nat
  counted : Bool
  stopped : Bool
  issued : Nat
  rows : List KVec
  behind : List Nat
  written : List Word
  deriving DecidableEq, Repr

/-- An accumulator tile (R71-R73, R275): F32 or W48, E, elements by 512 row + column. -/
structure Tile where
  f32 : Bool
  e : Int
  elems : Store Int
  deriving DecidableEq, Repr

/-- A cleared tile (R202). -/
def Tile.init : Tile := ⟨false, -128, []⟩

/-- A weight slot (R200, R275): decoded weights by 64 column + k, scale exponents by 2 column + block. -/
structure WSlot where
  cells : Store Int
  exps : Store Int
  deriving DecidableEq, Repr

/-- An arrival at a bench barrier (R174): barrier, mask, thread, destination. -/
structure Arrival where
  bar : Nat
  mask : Nat
  thread : Nat
  d : Nat
  warn : Bool
  deriving DecidableEq, Repr

/-- A `cancel` that waits for the benches: its thread, g[d], the job and the new generation (R171). -/
structure CancelWait where
  thread : Nat
  d : Nat
  tenant : Nat
  job : Nat
  gen : Nat
  deriving DecidableEq, Repr

/-- A message that the machine itself offers to a mailbox, until an entry is free (R305); the slot of a FAILED record is released once
it is accepted (R350). -/
structure Offer where
  msg : Message
  slot : Option Nat
  deriving DecidableEq, Repr

/-- A core joined in the rotate (R153). -/
structure RotJoin where
  thread : Nat
  down : Bool
  off : Nat
  len : Nat
  w : Nat
  deriving DecidableEq, Repr

/-- A bench with its controller and engines; `halting` is the core tick at which a stop of its engines began (R286), `samples` the core
tick of each thread's last PC sample (R388). -/
structure Bench where
  gated : Bool
  tenant : Option Nat
  bflag : Word
  keep : Bool
  clamp : Nat
  renorm : Nat
  floss : Nat
  trctl : Word
  trptr : Word
  tbuf : List (List Word)
  tlost : Nat
  tblock : Nat
  samples : Store Nat
  arrivals : List Arrival
  rotate : List RotJoin
  bqueues : Store (List QItem)
  wslots : Store WSlot
  tiles : Store Tile
  wdirty : List Nat
  tdirty : List Nat
  nodeV : Nat
  nodeH : Store Nat
  stopped : List Nat
  gens : Store Nat
  waking : Bool
  switching : Bool
  switchAt : Nat
  target : Option Nat
  restored : Nat
  halting : Option Nat
  deriving DecidableEq, Repr

/-- A bench at reset: gated, of no tenant (R395). -/
def Bench.init : Bench where
  gated := true
  tenant := none
  bflag := 0
  keep := false
  clamp := 0
  renorm := 0
  floss := 0
  trctl := 0
  trptr := 0
  tbuf := []
  tlost := 0
  tblock := 0
  samples := []
  arrivals := []
  rotate := []
  bqueues := []
  wslots := []
  tiles := []
  wdirty := []
  tdirty := []
  nodeV := 1
  nodeH := []
  stopped := []
  gens := []
  waking := false
  switching := false
  switchAt := 0
  target := none
  restored := 0
  halting := none

/-! ### The hub -/

/-- A scan class (R234). `start` is the number of the cycle the class waits for before its first start. -/
structure Class where
  per : Word
  pub : Word
  cyc : Word
  started : Bool
  first : Nat
  ovrn : Nat
  skip : Nat
  step : Bool
  lastPub : Nat
  cutDone : Option Nat
  deriving DecidableEq, Repr

/-- A class at reset (R234). -/
def Class.init : Class := ⟨0, 0, 0xFFFFFFFFFFFFFFFF#64, false, 0, 0, 0, false, 0, none⟩

/-- A page service request (R337, R338). -/
structure PageReq where
  id : Nat
  tenant : Nat
  va : Nat
  kind : Nat
  level : Nat
  spr : Bool
  entry : Nat
  who : Word
  count : Nat
  deriving DecidableEq, Repr

/-- A frame in a filling bank: its region, timestamp and bytes (R240). -/
structure Filling where
  tenant : Nat
  region : Nat
  filter : Nat
  time : Nat
  complete : Nat
  bytes : List Byte
  deriving DecidableEq, Repr

/-- What the cut-off keeps of an egress entry, and the region and class it took part with (R249). -/
structure Snapshot where
  entry : Nat
  tenant : Nat
  region : Nat
  cls : Nat
  cycle : Nat
  bytes : List Byte
  stamp : Word
  pos : Nat
  published : Bool
  deriving DecidableEq, Repr

/-- A host or peer store that waits in the release buffer (R257): `pos` is the log position at its acceptance, `vector` the MSI-X vector
that it raises (R375). -/
structure Held where
  addr : Nat
  bytes : List Byte
  cls : Nat
  stamp : Word
  pos : Nat
  vector : Option Nat
  deriving DecidableEq, Repr

/-- A frame handed to a port (R248, R249). -/
structure SentFrame where
  port : Nat
  entry : Nat
  cycle : Nat
  bytes : List Byte
  deriving DecidableEq, Repr

/-- A flit kept until it is acknowledged: type, items valid, SEQ, the payload from byte 12 on, and how often it was sent again (R267,
R268). -/
structure SentFlit where
  kind : Nat
  valid : Nat
  seq : Nat
  body : List Byte
  resends : Nat
  deriving DecidableEq, Repr

/-- A leaf a translation uses: where it lies, its value, the 64 KiB page translated and the level (R329, R334). -/
structure Leaf where
  at_ : Nat
  pte : Word
  page : Nat
  level : Nat
  deriving DecidableEq, Repr

/-- What the package has sent to the outside (R249, R257, R267, R349, R374). -/
inductive Output where
  | frame (f : SentFrame)
  | hostWrite (addr : Nat) (bytes : List Byte)
  | peerWrite (addr : Nat) (bytes : List Byte)
  | steward (die code : Nat) (arg : Word)
  | service (tenant : Nat) (words : List Word)
  | hostRead (bytes : List Byte)
  | interrupt (vector : Nat)
  | config (retry : Bool)
  | debug (w : Word)
  | flit (bytes : List Byte)
  | segment (tenant : Nat) (entries : List LogEntry)
  deriving DecidableEq, Repr

/-- The Onyx security core (R361-R369, R392, R393). Request blocks come from the stewards' registers; `burning` while an OPEN burns fuses
(R367). -/
structure Onyx where
  lc : Nat
  unlockCnt : Nat
  pending : Option Nat
  burning : Bool
  keys : Store (List Byte)
  identity : Bool
  m : Store (List Byte)
  dbgOpen : Bool
  haltOnBrk : Bool
  busy : Store Nat
  status : Store Word
  recovery : Bool
  image : List Byte
  nonce : Nat
  deriving DecidableEq, Repr

/-- An account of a budgeted entry (R252), in ticks; `grace` while the 10 µs after 0 run. -/
structure Budget where
  left : Nat
  grace : Bool
  deriving DecidableEq, Repr

/-- A port: the MAC that the mailbox has given it, none while the fused one holds (R248); its count of frames refused for FCS, SDU or
size (R240, R253); the frames that wait for a gate, with class and due time (R250); its gate control list, and the one that follows
with the time of the change, in eighths of a nanosecond (R253); its preemptable classes, fragment size and verification (R253); and the
frame on its wire with those it interrupts, as class, start and end (R250, R253). -/
structure Port where
  mac : Option (BitVec 48)
  errors : Nat
  waiting : List (SentFrame × Nat × Nat)
  gates : Option GateList
  admin : Option (GateList × Nat)
  preemptable : BitVec 8
  fragment : BitVec 2
  verify : Bool
  wire : List (Nat × Nat × Nat)
  deriving DecidableEq, Repr

/-- A port at bring-up: the fused address, no gate control list, every class express (R248, R253). -/
def Port.init : Port := ⟨none, 0, [], none, none, 0, 0, false, []⟩

/-- A sequence recovery function of 802.1CB (R253): history length, reset timeout in ns, the number last ahead, the numbers seen within
the history, and the time of the last frame accepted. -/
structure Recovery where
  history : Nat
  timeout : Nat
  last : Option Nat
  seen : List Nat
  time : Nat
  deriving DecidableEq, Repr

/-- The times of a page's moves within 1 ms, since when it is SETTLED, and whether this package homes it (R342). -/
structure Moves where
  times : List Nat
  settled : Option Nat
  here : Bool
  deriving DecidableEq, Repr

/-- What the scheduler keeps of a core for a tenant that is switched out, beside the switch area (R357): pool, deque length, ready and
waiting records, what its saved mail was sent by, and the class and stamp of each record and message that is live work (R254); `cycles`
gives the class of each record in CYCLE, `freed` the records that a stop of their class has released meanwhile (R236). -/
structure Away where
  core : Core
  sleepers : List Sleeper
  stamps : List (Nat × Nat)
  cycles : List (Nat × Nat)
  freed : List Nat
  deriving DecidableEq, Repr

/-- A core with nothing put away. -/
def Away.init : Away := ⟨Core.init, [], [], [], []⟩

/-- The weight slots and tiles of a bench that the engine save area holds for a tenant (R288), and the number of the free value that is
the area's first byte (log 88). -/
structure Weights where
  wslots : Store WSlot
  tiles : Store Tile
  bytes : Option Nat
  deriving DecidableEq, Repr

/-- What a recovery mark saves and a rollback restores (R259): every state but thread registers, the release buffer and what
has left the package. `fencesOut` are the markers of the fences that a tenant has left in the queues of a bench, by tenant and bench
(R321); `waits` are the tasks pre-empted in `swait`, as core, tenant and slot (R176); `runs` the messages whose run is
being counted, by record: sender, receiving core and package time of delivery (R295); `migrants` the pages, as tenant and address, whose
accesses are held for a move (R341); `checkDue` an uncorrectable error met and `areaLost` the failed accesses of R399, as die and
address, that the end of the step reports. -/
structure Pkg where
  mem : Store Byte
  hist : List Hist
  histN : Nat
  seqs : Store Nat
  cores : Store Core
  benches : Store Bench
  ops : Store (Option Op)
  gens : Store Nat
  slotWits : Store Word
  fences : Store (List Nat)
  fenceN : Nat
  fencesOut : Store (List (Nat × Nat))
  sleepers : List Sleeper
  passes : Store Nat
  messages : List Message
  adds : List SignalMsg
  asks : List DrawerAsk
  cancels : List CancelWait
  offers : List Offer
  waits : List (Nat × Nat × Nat)
  runs : Store (Option (Nat × Nat × Nat))
  arrival : Nat
  descs : Store (Option TenantDesc)
  policies : Store (List MapRange)
  classes : Store Class
  ecur : Nat
  vroot : Nat
  horizons : Store Nat
  filling : List Filling
  filters : Store (Option StreamFilter)
  gates : Store (Option StreamGate)
  rtags : Store Bool
  recoveries : Store (Option Recovery)
  splits : Store (Option Nat)
  ports : Store Port
  snaps : List Snapshot
  committed : Store (Option (List Byte × Word))
  pubs : List (Nat × Nat)
  budgets : Store (Option Budget)
  liveRel : List (Nat × Nat × Nat)
  reqs : List PageReq
  reqId : Nat
  moves : Store (Option Moves)
  migUses : List (Nat × Nat)
  migrants : List (Nat × Nat)
  pgov : Store Word
  l2lk : Word
  badlnch : Store Nat
  orphans : Store Nat
  cancelHeld : List (Nat × Nat)
  failures : Nat
  svcSeq : Store Nat
  svcOpen : List (Nat × Nat × Nat × Nat)
  svcWait : List (Nat × Nat × Nat × List Word)
  svcDropped : Nat
  poisoned : Nat
  errLines : List Nat
  checkDue : Bool
  areaLost : List (Nat × Nat)
  applied : List (Nat × Nat × Nat × Nat × Nat)
  spares : List (Nat × Nat × Nat × Nat)
  spareLeaf : Store Word
  away : Store Away
  engAway : Store Weights
  vecs : Store (Word × Word)
  onyx : Onyx
  oxdb : Store Word
  deriving DecidableEq, Repr

/-- An open recovery mark (R258): the core tick of its opening, the threads, ops and messages that have still to cross it, the state that
work up to it leaves, none for one that opened while DISARM = 1 (R259, R261), and the log entries of later work, with their positions. -/
structure Mark where
  opened : Nat
  threads : List Nat
  ops : List Nat
  msgs : List Nat
  image : Option Pkg
  since : List (Nat × LogEntry)
  deriving DecidableEq, Repr

/-- The pair, the order log and the link (R262-R268). `log` is newest first; `sinceSaved` are the entries of work after the last closed
recovery mark, with their positions, `inputs` the host writes after it, with those of their entries (R260), and `inbox` the entries a
replay has still to force; `lost` says that READY is lost for good (R265); `built` keeps what each class's last instant was built from,
and `taking` that a standby takes over (R269); the ticks are those of the last valid flit, HEART and ASEQ progress and of each
unacknowledged entry (R265, R268). -/
structure Pair where
  role : Nat
  lagmax : Nat
  loss : Nat
  hbi : Nat
  diverge : Nat
  rollbk : Nat
  peer : Bool
  ready : Bool
  took : Bool
  recov : Bool
  lost : Bool
  taking : Bool
  stop : Bool
  lack : Nat
  mper : Nat
  jgib : Nat
  log : List LogEntry
  sinceSaved : List (Nat × LogEntry)
  inputs : List (Nat × Instr)
  inbox : List (Nat × LogEntry)
  stored : Nat
  allowed : Store Nat
  progSent : Store Nat
  peerMark : Nat
  hadHeart : Bool
  lastHeart : List Nat
  pendingV : List (Nat × Nat × Option (List Nat))
  sentCrcs : List (Nat × Nat × Nat)
  peerCrcs : List (Nat × Nat × Nat)
  built : List Snapshot
  txSeq : Nat
  rxSeq : Nat
  unacked : List SentFlit
  backlog : List (Nat × Nat × List Byte)
  nakDue : Bool
  retraining : Bool
  badFlits : Nat
  fills : List (Nat × Nat × Nat × Nat × List Byte)
  oldBanks : List (Nat × Nat × Nat × List Byte)
  inPeer : List (List Byte)
  ackSent : Nat
  launched : Bool
  rxAt : Nat
  heartAt : Nat
  aseqAt : Nat
  lagTicks : List Nat
  deriving DecidableEq, Repr

/-- The whole package. `upTo` is the last group or lane that the present turn does of an instruction with several (log 3). `tlbs` are
the L1 TLBs by core, a steward's by its thread, `tlb2` and `walks` the second-level TLBs and walk caches by die (R334); `epochTick` is
the core tick at which the present epoch began (R316). `marks` are the open recovery marks, oldest first, `saved` the state of the last
closed one, `mark` the count of closed ones and `savedPos` the log position when it closed; `markAt` is the time at which the last mark
was due; DISARM holds until `disarmTill` marks have closed, and a restore runs until core tick `restoreTill` (R258-R261). `hot` are the
dies in a thermal emergency (R386). -/
structure State where
  pkg : Pkg
  threads : Store Thread
  cur : Nat
  agenda : List Turn
  upTo : Option Nat
  flight : List Access
  tlbs : Store (Store (Option Leaf))
  tlb2 : Store (Store (Option Leaf))
  walks : Store (Store (Option Word))
  nextId : Nat
  inval : Store Nat
  free : Nat
  tick : Nat
  epochTick : Nat
  time : Nat
  slew : Int
  hold : Bool
  sync : Bool
  synced : Bool
  hot : List Nat
  marks : List Mark
  saved : Pkg
  savedPos : Nat
  mark : Nat
  markAt : Nat
  disarmTill : Nat
  restoreTill : Nat
  released : List Held
  pair : Pair
  outputs : List Output
  stopped : Bool
  pcieReady : Bool
  perst : Bool
  perstAt : Nat
  deriving DecidableEq, Repr

/-- ctl.pgov at reset: RSV 128, CAP 768 (R382). -/
def pgovReset : Word := 0x0000000803000000#64

/-- Onyx after bring-up: the fused values (Config), M0 and M1 as the boot measured them, M2-M7 32 zero bytes (R366, R392). `image` is the
firmware image last programmed, [] that which the flash was shipped with; one that does not verify leaves the package in recovery. -/
def Onyx.reset : Onyx where
  lc := Config.lifecycle.val
  unlockCnt := Config.unlockCount.toNat
  pending := none
  burning := false
  keys := []
  identity := true
  m := []
  dbgOpen := Config.lifecycle == 3
  haltOnBrk := false
  busy := []
  status := []
  recovery := !Config.imageVerifies []
  image := []
  nonce := 0

/-- The journalled state at reset (R316, R371, R382, R395). -/
def Pkg.reset : Pkg where
  mem := []
  hist := []
  histN := 0
  seqs := []
  cores := []
  benches := []
  ops := []
  gens := []
  slotWits := []
  fences := []
  fencesOut := []
  fenceN := 0
  sleepers := []
  passes := []
  messages := []
  adds := []
  asks := []
  cancels := []
  offers := []
  waits := []
  runs := []
  arrival := 0
  descs := []
  policies := []
  classes := []
  ecur := 1
  vroot := 1
  horizons := []
  filling := []
  filters := []
  gates := []
  rtags := []
  recoveries := []
  splits := []
  ports := []
  snaps := []
  committed := []
  pubs := []
  budgets := []
  liveRel := []
  reqs := []
  reqId := 0
  moves := []
  migrants := []
  pgov := []
  l2lk := 0
  badlnch := []
  orphans := []
  cancelHeld := []
  failures := 0
  svcSeq := []
  svcOpen := []
  svcWait := []
  migUses := []
  poisoned := 0
  svcDropped := 0
  errLines := []
  checkDue := false
  areaLost := []
  applied := []
  spares := []
  spareLeaf := []
  away := []
  engAway := []
  vecs := []
  onyx := Onyx.reset
  oxdb := []

/-- The pair registers at reset: LAGMAX 500, LOSS 40, HBI 10, MPER 64 (R264); JGIB 1 is a DESIGN CHOICE (log 1). -/
def Pair.reset : Pair where
  role := 0
  lagmax := 500
  loss := 40
  hbi := 10
  diverge := 0
  rollbk := 0
  peer := false
  ready := false
  took := false
  recov := false
  lost := false
  taking := false
  stop := false
  lack := 0
  mper := 64
  jgib := 1
  log := []
  sinceSaved := []
  inputs := []
  inbox := []
  stored := 0
  allowed := []
  progSent := []
  peerMark := 0
  hadHeart := false
  lastHeart := []
  pendingV := []
  sentCrcs := []
  peerCrcs := []
  built := []
  txSeq := 0
  rxSeq := 0
  unacked := []
  backlog := []
  nakDue := false
  retraining := false
  badFlits := 0
  fills := []
  oldBanks := []
  inPeer := []
  ackSent := 0
  launched := false
  rxAt := 0
  heartAt := 0
  aseqAt := 0
  lagTicks := []

/-- The package right after reset (R395): every bench gated and of no tenant, shelves zero. -/
def State.reset : State where
  pkg := Pkg.reset
  threads := []
  cur := 0
  agenda := []
  upTo := none
  flight := []
  tlbs := []
  tlb2 := []
  walks := []
  nextId := 0
  inval := []
  free := 0
  tick := 0
  epochTick := 0
  time := 0
  slew := 0
  hold := false
  sync := false
  synced := false
  hot := []
  marks := []
  saved := Pkg.reset
  savedPos := 0
  mark := 0
  markAt := 0
  disarmTill := 0
  restoreTill := 0
  released := []
  pair := Pair.reset
  outputs := []
  stopped := false
  pcieReady := false
  perst := false
  perstAt := 0

/-- The security core. -/
abbrev State.onyx (s : State) : Onyx := s.pkg.onyx

/-- The memory keeps its canonical form: addresses rising, no byte listed that equals the unlisted 0 (log 2). -/
abbrev Memory.wf (m : Store Byte) : Prop := Store.wf 0#8 m = true

end Sys2Proof.Machine
end

