-- ==== Sys2Proof/Machine/Ops.lean ====
section
/-! DEFINITION. The named operations over registers, threads and the package that every meaning is built from: field access,
the two ends of an instruction (`issue`, `retire`), taking a trap and returning from one. -/

namespace Sys2Proof.Machine

/-- What a meaning answers. -/
abbrev Out := Host.Outcome State Fault Refusal

/-! ### Bit fields -/

/-- Bits lo + len - 1 to lo of a word, as a number. -/
def bits {n : Nat} (w : BitVec n) (lo len : Nat) : Nat := w.toNat / 2 ^ lo % 2 ^ len

/-- A word with bits lo + len - 1 to lo replaced. -/
def setBits {n : Nat} (w : BitVec n) (lo len v : Nat) : BitVec n :=
  (w &&& ~~~(BitVec.ofNat n ((2 ^ len - 1) * 2 ^ lo))) ||| BitVec.ofNat n (v % 2 ^ len * 2 ^ lo)

/-- A word from a number. -/
def word (n : Nat) : Word := BitVec.ofNat 64 n

/-- 1 or 0. -/
def flag (b : Bool) : Word := if b then 1 else 0

/-- clamp(x, lo, hi) of 04_isa_scalar. -/
def clamp (x lo hi : Int) : Int := if x < lo then lo else if hi < x then hi else x

/-- The value of a word whose every bit is 1. -/
def allOnes : Word := 0xFFFFFFFFFFFFFFFF#64

/-! ### Numbers of threads, cores, benches and dies (R11) -/

/-- The core of a thread. -/
def coreOf (n : Nat) : Nat := n / 4

/-- The bench of a thread. -/
def benchOf (n : Nat) : Nat := n / 32

/-- The die of a thread; steward 2048 + d belongs to die d (R13). -/
def dieOf (n : Nat) : Nat := if n < 2048 then n / 512 else n - 2048

/-- A thread of a steward core (R13). -/
def isSteward (n : Nat) : Bool := decide (2048 ≤ n)

/-! ### Registers (R23) -/

/-- g[n]; g0 reads zero. -/
def Thread.rg (t : Thread) (n : Nat) : Word := if n = 0 then 0 else t.g.get 0 n

/-- Write g[n]; g0 ignores writes. -/
def Thread.wg (t : Thread) (n : Nat) (v : Word) : Thread := if n = 0 then t else { t with g := t.g.set 0 n v }

/-- v[n]. -/
def Thread.rv (t : Thread) (n : Nat) : Vec := t.v.get 0 n

/-- Write v[n] and set bit n of VW (R353). -/
def Thread.wv (t : Thread) (n : Nat) (v : Vec) : Thread := { t with v := t.v.set 0 n v, vw := t.vw ||| 2 ^ n }

/-- k[n]; k0 reads all ones. -/
def Thread.rk (t : Thread) (n : Nat) : BitVec 16 := if n = 0 then 0xFFFF else t.k.get 0 n

/-- Write k[n]; k0 ignores writes. -/
def Thread.wk (t : Thread) (n : Nat) (v : BitVec 16) : Thread := if n = 0 then t else { t with k := t.k.set 0 n v }

/-- w[n]; w0 is the null witness. -/
def Thread.rw (t : Thread) (n : Nat) : Word := if n = 0 then 0 else t.w.get 0 n

/-- Write w[n]; w0 discards. -/
def Thread.ww (t : Thread) (n : Nat) (v : Word) : Thread := if n = 0 then t else { t with w := t.w.set 0 n v }

/-- x[n]. -/
def Thread.rx (t : Thread) (n : Nat) : Word := t.x.get 0 n

/-- Write x[n]. -/
def Thread.wx (t : Thread) (n : Nat) (v : Word) : Thread := { t with x := t.x.set 0 n v }

/-- cb[n] (R39). -/
def Thread.rcb (t : Thread) (n : Nat) : Word32 := t.cb.get 0 n

/-- The register never needs the scoreboard: g0, k0, w0 (R219). -/
def Reg.free : Reg → Bool
  | .g n => n == 0
  | .k n => n == 0
  | .w n => n == 0
  | .v _ => false
  | .x _ => false

/-- One of the registers waits for a write (R219). -/
def Thread.isBusy (t : Thread) (uses : List Reg) : Bool := uses.any fun r => !r.free && t.busy.contains r

/-- Mark registers busy (R219). -/
def Thread.mark (t : Thread) (rs : List Reg) : Thread := { t with busy := rs.filter (fun r => !r.free) ++ t.busy }

/-- A write has come: free the register. -/
def Thread.unmark (t : Thread) (r : Reg) : Thread := { t with busy := t.busy.erase r }

/-! ### The status word (R221) -/

/-- Supervisor mode. -/
def Thread.sup (t : Thread) : Bool := t.tstat.getLsbD 20

/-- A prefix is pending. -/
def Thread.pp (t : Thread) : Bool := t.tstat.getLsbD 8

/-- The payload of the pending prefix. -/
def Thread.pfx (t : Thread) : BitVec 11 := t.tstat.extractLsb' 9 11

/-- The rounding mode. -/
def Thread.rm (t : Thread) : Nat := bits t.tstat 0 2

/-- FP traps are enabled. -/
def Thread.fpte (t : Thread) : Bool := t.tstat.getLsbD 21

/-- PP and PFX cleared (R44). -/
def Thread.dropPrefix (t : Thread) : Thread := { t with tstat := t.tstat &&& ~~~0xFFF00#64 }

/-- Set WARN if asked. -/
def Thread.warn (t : Thread) (w : Bool) : Thread := if w then { t with tstat := t.tstat ||| 0x80#64 } else t

/-- Raise flags: NV 16, DZ 8, OF 4, UF 2, NX 1. -/
def Thread.raise (t : Thread) (f : Nat) : Thread := { t with tstat := t.tstat ||| BitVec.ofNat 64 (f % 32 * 4) }

/-! ### Threads of the package -/

/-- Thread n. -/
def State.thr (s : State) (n : Nat) : Thread := s.threads.get Thread.init n

/-- Replace thread n. -/
def State.setThr (s : State) (n : Nat) (t : Thread) : State := { s with threads := s.threads.set Thread.init n t }

/-- The thread whose instruction runs. -/
def State.me (s : State) : Thread := s.thr s.cur

/-- Replace the thread whose instruction runs. -/
def State.setMe (s : State) (t : Thread) : State := s.setThr s.cur t

/-! ### The journalled state (R259) -/

/-- Whose work changes the journalled state. -/
inductive Actor where
  | thread (n : Nat)
  | op (k : Nat)
  | msg (id : Nat)
  | hub
  deriving DecidableEq, Repr

/-- The work belongs to before an open recovery mark: it has still to cross it (R258). -/
def Mark.before (m : Mark) : Actor → Bool
  | .thread n => m.threads.contains n
  | .op k => m.ops.contains k
  | .msg i => m.msgs.contains i
  | .hub => false

/-- The work crosses every open recovery mark (R258). -/
def Mark.cross (m : Mark) : Actor → Mark
  | .thread n => { m with threads := m.threads.erase n }
  | .op k => { m with ops := m.ops.erase k }
  | .msg i => { m with msgs := m.msgs.erase i }
  | .hub => m

/-- The work crosses every open recovery mark (R258). -/
def State.cross (s : State) (a : Actor) : State := { s with marks := s.marks.map fun m => m.cross a }

/-- Change the journalled state; work of before an open mark changes that mark's image too (R259). -/
def State.updBy (s : State) (a : Actor) (f : Pkg → Pkg) : State :=
  { s with pkg := f s.pkg, marks := s.marks.map fun m => if m.before a then { m with image := m.image.map f } else m }

/-- A change made by the running thread. -/
def State.upd (s : State) (f : Pkg → Pkg) : State := s.updBy (.thread s.cur) f

/-- Replace the security core's state. -/
def State.setOnyx (s : State) (o : Onyx) : State := s.updBy .hub fun p => { p with onyx := o }

/-- An uncorrectable error has been met: the machine check follows at the end of the step (R135, R260). -/
def State.noteError (s : State) : State := s.updBy .hub fun p => { p with checkDue := true }

/-- Core c. -/
def Pkg.core (p : Pkg) (c : Nat) : Core := p.cores.get Core.init c

/-- Change core c. -/
def Pkg.onCore (p : Pkg) (c : Nat) (f : Core → Core) : Pkg := { p with cores := p.cores.set Core.init c (f (p.core c)) }

/-- Bench b. -/
def Pkg.bench (p : Pkg) (b : Nat) : Bench := p.benches.get Bench.init b

/-- Change bench b. -/
def Pkg.onBench (p : Pkg) (b : Nat) (f : Bench → Bench) : Pkg := { p with benches := p.benches.set Bench.init b (f (p.bench b)) }

/-- Class k. -/
def Pkg.cls (p : Pkg) (k : Nat) : Class := p.classes.get Class.init k

/-- Change class k. -/
def Pkg.onClass (p : Pkg) (k : Nat) (f : Class → Class) : Pkg := { p with classes := p.classes.set Class.init k (f (p.cls k)) }

/-- The op in a slot. -/
def Pkg.op (p : Pkg) (k : Nat) : Option Op := p.ops.get none k

/-- Put an op into a slot, or free it. -/
def Pkg.setOp (p : Pkg) (k : Nat) (o : Option Op) : Pkg := { p with ops := p.ops.set none k o }

/-- Change the op in a slot. -/
def Pkg.onOp (p : Pkg) (k : Nat) (f : Op → Op) : Pkg := p.setOp k ((p.op k).map f)

/-- The descriptor of a tenant, if VALID (R371). -/
def Pkg.desc (p : Pkg) (t : Nat) : Option TenantDesc :=
  match p.descs.get none t with
  | some d => if d.valid then some d else none
  | none => none

/-- The tenant whose task a thread runs, else the one its bench is switched to; 8 stands for the stewards' firmware. -/
def State.tenantOf (s : State) (n : Nat) : Nat :=
  if isSteward n then 8
  else
    match (s.thr n).task with
    | some k => k.tenant
    | none => (s.pkg.bench (benchOf n)).tenant.getD 8

/-- Bench b is in the effective bench map of tenant t (R372). -/
def Pkg.inMap (p : Pkg) (t b : Nat) : Bool :=
  match p.desc t with
  | some d => decide (b < 64) && d.bmap.getLsbD b && (p.bench b).tenant == some t
  | none => false

/-- The package lets a tenant run (R393): what LC allows, and a key for a confidential one. -/
def State.mayRun (s : State) (t : Nat) (d : TenantDesc) : Bool :=
  (if d.conf then s.onyx.lc == 2 && !(s.onyx.keys.get [] t).isEmpty else decide (1 ≤ s.onyx.lc) && decide (s.onyx.lc ≤ 3))

/-- Tasks of tenant t are dispatched and issue instructions (R393). DEDUCED (log 95): one that may no longer run issues nothing more. -/
def State.tenantRuns (s : State) (t : Nat) : Bool :=
  match s.pkg.desc t with
  | some d => s.mayRun t d
  | none => true

/-- The scan class of a thread's task. -/
def Thread.cls (t : Thread) : Nat := (t.task.map (·.cls)).getD 0

/-- The job of a thread's task. -/
def Thread.job (t : Thread) : Nat := (t.task.map (·.job)).getD 0

/-- A pre-emption becomes due at a tick (R352). -/
def Thread.due (t : Thread) (now : Nat) : Thread := if t.preemptDue then t else { t with preemptDue := true, dueAt := now }

/-- An interrupt is pending that the task of the thread may take (R347, R376). -/
def Thread.irqNow (t : Thread) : Bool :=
  t.irq.isSome &&
    match t.irqTen, t.task with
    | none, _ => true
    | some a, some k => a == k.tenant
    | some _, none => false

/-! ### The bench flag summary (R223, R224) -/

/-- The bits of ctl.bflag that a change of ctl.tstat from old to new sets for thread n. -/
def bflagSet (n : Nat) (old new : Word) : Word :=
  let rose := bits (new &&& ~~~old) 2 6
  if rose = 0 then 0 else word (rose + 2 ^ (32 + n % 32))

/-- Replace thread n as an instruction leaves it; a flag or WARN that rises reaches ctl.bflag. -/
def State.commit (s : State) (n : Nat) (t : Thread) : State :=
  let up := bflagSet n (s.thr n).tstat t.tstat
  let s' := s.setThr n t
  if up = 0 || isSteward n then s'
  else s'.updBy (.thread n) fun p => p.onBench (benchOf n) fun b => { b with bflag := b.bflag ||| up }

/-- Package time T in nanoseconds, 64 bits; the state holds it in eighths (R232). -/
def State.ns (s : State) : Nat := s.time / 8 % 2 ^ 64

/-- The tick count of package time, floor(T × 8 ÷ 5) (R232). -/
def State.ticks (s : State) : Nat := s.ns * 8 / 5

/-! ### The two ends of an instruction -/

/-- The instruction does not issue or complete yet; nothing but the mark of why changes. -/
def State.stallWith (s : State) (k : Stall) : Out := .next (s.setMe { s.me with stall := some k })

/-- Issue on the running thread once no register it uses is busy (R216, R219). -/
def State.issue (s : State) (uses : List Reg) (k : Thread → Out) : Out :=
  if s.me.isBusy uses then s.stallWith .scoreboard else k s.me

/-- Completion with a prefix already dealt with (R44): PP and PFX cleared, WARN if asked, PC to the given address. Every
instruction that completes leaves ctl.prog at 0 (R108). -/
def State.completeAt (s : State) (t : Thread) (pc : Word) (w : Bool) : State :=
  s.commit s.cur ({ t.dropPrefix.warn w with pc := pc, prog := 0, stall := none })

/-- Completion of an instruction of `len` bytes that accepts no prefix: a pending one is discarded with WARN (R44, R51). -/
def State.retire (s : State) (t : Thread) (len : Nat) (w : Bool) : Out :=
  .next (s.completeAt t (t.pc + word len) (w || t.pp))

/-- Completion of a prefixable instruction, which says itself whether a fallback applied (R44). -/
def State.retirePrefixed (s : State) (t : Thread) (len : Nat) (w : Bool) : Out :=
  .next (s.completeAt t (t.pc + word len) w)

/-- Completion of a transfer of control to `pc`. -/
def State.jump (s : State) (t : Thread) (pc : Word) (w : Bool) : Out := .next (s.completeAt t pc (w || t.pp))

/-- Another thread's waiting instruction, of four bytes, completes: `f` its result. -/
def State.completeOf (s : State) (n : Nat) (f : Thread → Thread) (w : Bool) : State :=
  let t := s.thr n
  s.commit n { (f t).dropPrefix.warn (w || t.pp) with pc := t.pc + 4, prog := 0, stall := none }

/-! ### Traps (R343-R349) -/

/-- A cause code and reason code (R344). -/
structure Cause where
  code : Nat
  reason : Nat
  deriving DecidableEq, Repr

/-- ILLEGAL. -/
def Cause.illegal : Cause := ⟨0x01, 0⟩
/-- PRIV. -/
def Cause.priv : Cause := ⟨0x02, 0⟩
/-- ALIGN. -/
def Cause.align : Cause := ⟨0x03, 0⟩
/-- XLAT_NP. -/
def Cause.xlatNp : Cause := ⟨0x04, 0⟩
/-- XLAT_PERM. -/
def Cause.xlatPerm : Cause := ⟨0x05, 0⟩
/-- SHELF_PERM. -/
def Cause.shelfPerm : Cause := ⟨0x06, 0⟩
/-- STALE. -/
def Cause.stale : Cause := ⟨0x07, 0⟩
/-- FP. -/
def Cause.fp : Cause := ⟨0x08, 0⟩
/-- TRAPI. -/
def Cause.trapi : Cause := ⟨0x09, 0⟩
/-- BRK. -/
def Cause.brk : Cause := ⟨0x0A, 0⟩
/-- WATCH. -/
def Cause.watch : Cause := ⟨0x0B, 0⟩
/-- TOKEN with its reason. -/
def Cause.token (r : Nat) : Cause := ⟨0x0C, r⟩
/-- ENGINE_STARVED. -/
def Cause.starved : Cause := ⟨0x0D, 0⟩
/-- CANCEL. -/
def Cause.cancel : Cause := ⟨0x0F, 0⟩
/-- WITNESS. -/
def Cause.witness : Cause := ⟨0x12, 0⟩
/-- INT. -/
def Cause.int : Cause := ⟨0x13, 0⟩

/-- Bits 21:0 of ctl.tstat and bits 3:0 of ctl.prog, as ctl.tsave holds them (R343). -/
def Thread.saved (t : Thread) : Word := word (bits t.tstat 0 22 + bits t.prog 0 4 * 2 ^ 22)

/-- Trap entry (R346): what is saved where, the new status, the handler's stack pointer and address. -/
def Thread.enter (t : Thread) (c : Cause) (epc tval : Word) : Thread :=
  { t with
    cause := word (c.reason * 256 + c.code)
    epc := epc
    tval := tval
    tsave := t.saved
    prog := 0
    tstat := (t.tstat &&& ~~~0x2FFF00#64) ||| 0x100000#64
    tsg := t.rg 63
    g := t.g.set 0 63 t.tstk
    tf := true
    pc := t.tvec
    stall := none }

/-- A double fault (R349): the second cause beside the first, and the thread parks. -/
def Thread.doubleFault (t : Thread) (c : Cause) (tval : Word) : Thread :=
  { t with
    cause2 := word (bits t.pc 0 48 * 2 ^ 16 + c.reason * 256 + c.code)
    tval2 := tval
    park := some .doubleFault
    stall := none }

/-- Thread n meets a trap condition. `t` is the thread as the trap finds it. While g63 is busy the trap waits (R346); while
TF = 1 it is a double fault, reported to the steward of the die (R349). -/
def State.trapFor (s : State) (n : Nat) (t : Thread) (c : Cause) (epc tval : Word) : State :=
  if (s.thr n).isBusy [.g 63] then s.setThr n { s.thr n with stall := some .scoreboard }
  else if (s.thr n).tf then
    { s.setThr n ((s.thr n).doubleFault c tval) with
      outputs := s.outputs ++ [.steward (dieOf n) 0x10 (word n)] }
  else s.commit n (t.enter c epc tval)

/-- The running instruction traps with ctl.epc at itself and nothing else changed. -/
def State.trap (s : State) (c : Cause) (tval : Word) : Out := .next (s.trapFor s.cur s.me c s.me.pc tval)

/-- ILLEGAL of a decoded instruction (R49). -/
def State.illegal (s : State) (i : Instr) : Out := s.trap .illegal i.trapWord

/-- An instruction that needs S = 1 (R48, R50). -/
def State.supervisor (s : State) (i : Instr) (k : Out) : Out := if s.me.sup then k else s.trap .priv i.trapWord

/-- Trap return (R98, R348): the status of ctl.tsave, the progress index, TF cleared, PC from ctl.epc. -/
def Thread.trapReturn (t : Thread) : Thread :=
  { t with
    prog := word (bits t.tsave 22 4)
    tf := false
    tstat := word (bits t.tsave 0 22) ||| (if t.pp then 0x80#64 else 0)
    pc := t.epc
    stall := none }

end Sys2Proof.Machine
end

