-- ==== Sys2Proof/Machine/Log.lean ====
section
/-! DEFINITION. The order log (R262): a choice is written on a package that leads and forced on one that replays (R260, R265). -/

namespace Sys2Proof.Machine

/-- The package takes its choices from a log: a standby, a recovery replay, or a standby that has taken over and still forces
the entries it received (R260, R265, R269). -/
def State.replaying (s : State) : Bool := (s.pair.role == 2 && !s.pair.taking) || !s.pair.inbox.isEmpty

/-- ctl.lwr, the number of entries written (R264). -/
def State.lwr (s : State) : Nat := s.pair.log.length

/-- The 64 bytes of a flit with its ASEQ and NAK (R267). -/
def SentFlit.bytes (f : SentFlit) (aseq : Nat) (nak : Bool) : List Byte :=
  let head := [BitVec.ofNat 8 f.kind, BitVec.ofNat 8 f.valid, if nak then 1#8 else 0#8, 0#8] ++ byteList f.seq 4 ++ byteList aseq 4
  let all := head ++ (f.body ++ List.replicate 48 0#8).take 48
  all ++ byteList (crc32 all).toNat 4

/-- Put a flit with `valid` items in its payload on the link, or in the backlog while 8,192 are unacknowledged (R267, R268). -/
def State.sendFlit (s : State) (kind valid : Nat) (body : List Byte) : State :=
  let p := s.pair
  if p.unacked.length < 8192 && !p.retraining then
    let f : SentFlit := ⟨kind, valid, p.txSeq, body, 0⟩
    { s with
      pair := { p with unacked := p.unacked ++ [f], txSeq := (p.txSeq + 1) % 2 ^ 32, nakDue := false }
      outputs := s.outputs ++ [.flit (f.bytes p.rxSeq p.nakDue)] }
  else { s with pair := { p with backlog := p.backlog ++ [(kind, valid, body)] } }

/-- The 16 bytes of an entry of the order log (R262). -/
def entryBytes (e : LogEntry) : List Byte :=
  byteList (e.kind * 2 ^ 58 + e.site % 2 ^ 16 * 2 ^ 42 + e.arg % 2 ^ 42) 8 ++ byteList e.val.toNat 8

/-- The entry is one of work of before the mark, thread `cur` running (R258, R260): its redoing is not needed once that mark has closed. -/
def Mark.owns (m : Mark) (cur : Nat) (e : LogEntry) : Bool :=
  let v := e.val.toNat
  if e.kind = 0x06 then (if v < 65536 then m.threads.contains v else m.ops.contains (v - 65536))
  else if e.kind = 0x0A then m.threads.contains cur
  else if e.kind = 0x0B then m.ops.contains ((e.site - 0x1040) * 1024 + e.arg)
  else if e.site < 0x800 then m.threads.contains e.site
  else e.kind = 0x09 && m.ops.any fun k => (if k % 1024 < 768 then 0x1040 else 0x1000) + k / 1024 == e.site

/-- Keep an entry, with its position, for a rollback to each open mark that its work comes after (R260). -/
def State.keepForMark (s : State) (pos : Nat) (e : LogEntry) : State :=
  { s with marks := s.marks.map fun m => if m.owns s.cur e then m else { m with since := m.since ++ [(pos, e)] } }

/-- Write an entry of a position at the end of the log; a primary with a peer sends it on (R262, R267). -/
def State.writeAt (s : State) (pos : Nat) (e : LogEntry) : State :=
  let s' := { s with
    pair := { s.pair with
      log := e :: s.pair.log
      sinceSaved := s.pair.sinceSaved ++ [(pos, e)]
      lagTicks := s.tick :: s.pair.lagTicks } }.keepForMark pos e
  if s.pair.role = 1 then s'.sendFlit 1 1 (entryBytes e) else s'

/-- Write an entry of this package's own choice. -/
def State.writeLog (s : State) (e : LogEntry) : State := s.writeAt s.lwr e

/-- The site is an engine's, which makes choices for the eight cores of its bench. -/
def isEngineSite (site : Nat) : Bool := decide (0x1000 ≤ site) && decide (site < 0x1080)

/-- Of the entries of an engine's site those that give a slot to a core, and those that cancel the copy in a slot, are orders of their
own: each core takes the slots that are its (R211, R263). -/
def laneOf (e : LogEntry) : Nat :=
  if !isEngineSite e.site then 0
  else if e.kind = 0x0A then 1 + e.arg / (if e.site < 0x1040 then 8 else 96)
  else if e.kind = 0x0B then 16 + e.arg
  else 0

/-- Two entries stand in one order. -/
def sameLane (e f : LogEntry) : Bool := e.site == f.site && laneOf e == laneOf f

/-- Remove the first entry in the order of e from a list of entries with their positions. -/
def takeLane (e : LogEntry) : List (Nat × LogEntry) → Option (LogEntry × List (Nat × LogEntry))
  | [] => none
  | x :: r =>
    if sameLane e x.2 then some (x.2, r)
    else
      match takeLane e r with
      | some (f, q) => some (f, x :: q)
      | none => none

/-- The first entry in the order of e, with its position. -/
def State.nextLike (s : State) (e : LogEntry) : Option (Nat × LogEntry) := s.pair.inbox.find? fun x => sameLane e x.2

/-- The first entry of a site; at an engine's, of those that are in one order. -/
def State.nextEntry (s : State) (site : Nat) : Option LogEntry := (s.nextLike ⟨0x06, site, 0, 0⟩).map (·.2)

/-- The position in the log of the first entry of a site. -/
def State.nextPos (s : State) (site : Nat) : Nat := ((s.nextLike ⟨0x06, site, 0, 0⟩).map (·.1)).getD 0

/-- A replay meets an entry that is not that of its choice (R262): DIVERGE counts, READY clears, all dispatch stops. -/
def State.diverge (s : State) : State :=
  { s with
    pair := { s.pair with diverge := (s.pair.diverge + 1) % 65536, ready := false, lost := true }
    stopped := true }

/-- A value that the standby also computes differs (R265): DIVERGE counts and READY clears; the forced outcome stands. -/
def State.differ (s : State) : State :=
  { s with pair := { s.pair with diverge := (s.pair.diverge + 1) % 65536, ready := false, lost := true } }

/-- An entry of a thread's site is that of an access, a signal add, a drawer operation or a witness of the thread that is still on its
way: its choice is made when the reply comes, whatever the thread has issued since (R219). -/
def State.isLate (s : State) (site : Nat) (f : LogEntry) : Bool :=
  (f.kind == 2 && f.arg == 0x2C * 128 + 2 && s.pkg.adds.any fun m => m.thread == site) ||
    (f.kind == 2 && s.pkg.asks.any fun x => x.thread == site && f.arg == 0x26 * 128 + x.func) ||
    s.flight.any fun a => a.thread == site && !a.replied &&
      ((f.kind == 2 && f.arg == a.code && !a.todo.isEmpty) || (f.kind == 9 && (match a.kind with
        | .store _ => true
        | .atomic _ _ _ => true
        | .plain _ => false
        | .home => false)))

/-- The entry is one of the hub's choices, which come of a class, a host write or a step of T: an event of another of them waits until the
log names it (R265). -/
def isHubEntry (e : LogEntry) : Bool := e.site == 0x1100 && (e.kind == 0x01 || e.kind == 0x0C || e.kind == 0x0D)

/-- Make a choice of R262 at a site. Where the package leads, the entry is written and goes to `k`. Where it replays, the next
entry of the site goes to `k`; `wait` while none has arrived, or while the next one is that of a reply to come or of another op of an
engine; another kind, or another ARG where `fixed` says the choice fixes it, stops the replay. -/
def State.choose (s : State) (e : LogEntry) (fixed : Bool) (wait : Out) (k : State → LogEntry → Out) : Out :=
  if s.replaying then
    match takeLane e s.pair.inbox with
    | none => wait
    | some (f, rest) =>
      if f.kind ≠ e.kind || (fixed && f.arg ≠ e.arg) then
        (if s.isLate e.site f || isHubEntry f || isEngineSite e.site then wait else .next s.diverge)
      else
        let pos := ((s.nextLike e).map (·.1)).getD 0
        let s' := if s.pair.sinceSaved.any fun x => x.1 == pos then s.keepForMark pos f else s.writeAt pos f
        k { s' with pair := { s'.pair with inbox := rest, recov := s'.pair.recov && rest.any fun x => s'.pair.sinceSaved.any fun y => y.1 == x.1 } } f
  else k (s.writeLog e) e

/-- A choice that a reply makes at its thread's site: it waits while the next entry of the site is that of another choice. -/
def State.chooseLate (s : State) (e : LogEntry) (wait : Out) (k : State → LogEntry → Out) : Out :=
  let other := match s.nextLike e with
    | some f => f.2.kind != e.kind || f.2.arg != e.arg
    | none => false
  if s.replaying && other then wait else s.choose e true wait k

/-- A READ entry of the running thread (R262): the value that the instruction writes. -/
def State.read (s : State) (major func : Nat) (v : Word) (k : State → Word → Out) : Out :=
  if isSteward s.cur then k s v
  else s.choose ⟨0x02, s.cur, major * 128 + func, v⟩ true (s.stallWith .log) fun s' e => k s' e.val

/-- The ARB entry of a step served at a home, engine or controller: ARG is the number of requests waiting there, VAL its
source. In replay the step waits while the next entry of the site serves another source. -/
def State.arbitrate (s : State) (site waiting source : Nat) (wait : Out) (k : State → Out) : Out :=
  let other := match s.nextEntry site with
    | some e => e.kind == 0x06 && e.val != word source
    | none => false
  if s.replaying && other then wait
  else s.choose ⟨0x06, site, waiting, word source⟩ false wait fun s' _ => k s'

/-- The EPOCH entry of an Ecur value that enters a witness (R262, R322). -/
def State.epochAt (s : State) (site : Nat) (wait : Out) (k : State → Nat → Out) : Out :=
  s.choose ⟨0x09, site, 0, word s.pkg.ecur⟩ true wait fun s' e => k s' e.val.toNat

/-- The EPOCH entry of a reply. -/
def State.epochLate (s : State) (site : Nat) (wait : Out) (k : State → Nat → Out) : Out :=
  s.chooseLate ⟨0x09, site, 0, word s.pkg.ecur⟩ wait fun s' e => k s' e.val.toNat

end Sys2Proof.Machine
end

