-- ==== Sys2Proof/Machine/Operands.lean ====
section
/-! DEFINITION. The operand forms of the scalar and vector instructions: which registers a form reads and writes, what it
ignores with WARN (R34-R37, R51), and where its result goes. -/

namespace Sys2Proof.Machine

/-- g[n] as a scoreboard name, from a register field. -/
def gR {n : Nat} (r : BitVec n) : Reg := .g r.toNat

/-- Format R with two general sources (R78). -/
def alu3 (d a b : BitVec 6) (f : Word → Word → Word) (s : State) : Out :=
  s.issue [gR a, gR b, gR d] fun t => s.retire (t.wg d.toNat (f (t.rg a.toNat) (t.rg b.toNat))) 4 false

/-- Format R with one general source and an immediate in the b field (R82). -/
def aluImm (d a : BitVec 6) (f : Word → Word) (s : State) : Out :=
  s.issue [gR a, gR d] fun t => s.retire (t.wg d.toNat (f (t.rg a.toNat))) 4 false

/-- Format R with one general source and b unused (R87). -/
def alu2 (d a b : BitVec 6) (f : Word → Word) (s : State) : Out :=
  s.issue [gR a, gR d] fun t => s.retire (t.wg d.toNat (f (t.rg a.toNat))) 4 (b != 0)

/-- Format R that also reads g[d] (R86, R87). -/
def aluRmw (d a b : BitVec 6) (f : Word → Word → Word → Word) (s : State) : Out :=
  s.issue [gR a, gR b, gR d] fun t =>
    s.retire (t.wg d.toNat (f (t.rg d.toNat) (t.rg a.toNat) (t.rg b.toNat))) 4 false

/-- Format I with the operand of R36 and R37, in an instruction of `len` bytes. -/
def aluI (d a : BitVec 6) (i : Word) (len : Nat) (f : Word → Word → Word) (s : State) : Out :=
  s.issue [gR a, gR d] fun t => s.retire (t.wg d.toNat (f (t.rg a.toNat) i)) len false

/-- A 16-bit form that writes g[d] from g[d] and g[a] (R41). -/
def alu16 (d a : BitVec 4) (f : Word → Word → Word) (s : State) : Out :=
  s.issue [gR a, gR d] fun t => s.retire (t.wg d.toNat (f (t.rg d.toNat) (t.rg a.toNat))) 2 false

/-- A branch by a parcel offset (R31, R89), in a form of `len` bytes. -/
def branch (a : Nat) (off : Word) (len : Nat) (cond : Word → Bool) (w : Bool) (s : State) : Out :=
  s.issue [.g a] fun t =>
    if cond (t.rg a) then s.jump t (t.pc + 2 * off) w else s.retire t len w

/-- A jump through a register (R31, R91): an odd target traps ALIGN before anything is written. -/
def jumpReg (a : Nat) (link : Option Nat) (len : Nat) (w : Bool) (s : State) : Out :=
  s.issue (.g a :: (link.map Reg.g).toList) fun t =>
    let target := t.rg a
    if target.getLsbD 0 then s.trap .align target
    else
      let t' := match link with
        | some d => t.wg d (t.pc + word len)
        | none => t
      s.jump t' target w

end Sys2Proof.Machine
end

