-- ==== Sys2Proof/Machine/Witness.lean ====
section
/-! DEFINITION. Witnesses (R137-R139, R146, R317): forms, validity, merge, satisfaction. -/

namespace Sys2Proof.Machine

/-- The null witness. -/
def nullWit : Word := 0

/-- The empty entry 0x7FF : 0 (R137). -/
def emptyEntry : Nat := 0x7FF * 2 ^ 20

/-- An entry home : sequence (R138). -/
def entryOf (h s : Nat) : Nat := h * 2 ^ 20 + s % 2 ^ 20

/-- The exact form of two entries. -/
def exactOf (e0 e1 : Nat) : Word := word (2 ^ 62 + e0 * 2 ^ 31 + e1)

/-- The witness of an access at home h with sequence s (R137). -/
def witOf (h s : Nat) : Word := exactOf (entryOf h s) emptyEntry

/-- The epoch witness e. -/
def epochWit (e : Nat) : Word := word (2 ^ 63 + e % 2 ^ 48)

/-- The home of an entry. -/
def entryHome (e : Nat) : Nat := e / 2 ^ 20

/-- The sequence number of an entry. -/
def entrySeq (e : Nat) : Nat := e % 2 ^ 20

/-- The two entries of an exact witness. -/
def entries (w : Word) : List Nat := [bits w 31 31, bits w 0 31]

/-- The non-empty ones. -/
def liveEntries (w : Word) : List Nat := (entries w).filter fun e => entryHome e != 0x7FF

/-- The form, bits 63:62. -/
def formOf (w : Word) : Nat := bits w 62 2

/-- A valid witness (R138). -/
def validWit (w : Word) : Bool :=
  match formOf w with
  | 0 => true
  | 1 => (entries w).all fun e => decide (entryHome e ≤ 644) || entryHome e == 0x7FF
  | 2 => bits w 48 14 == 0
  | _ => false

/-- Null, or exact with two empty entries. -/
def emptyWit (w : Word) : Bool := formOf w == 0 || (formOf w == 1 && (liveEntries w).isEmpty)

/-- The later of two sequence numbers of one home (R146). -/
def laterSeq (a b : Nat) : Nat :=
  let d := (a + 2 ^ 20 - b) % 2 ^ 20
  if d < 2 ^ 19 then a else if 2 ^ 19 < d then b else max a b

/-- Add an entry to a list of entries of distinct homes, kept in order of home. -/
def addEntry (e : Nat) : List Nat → List Nat
  | [] => [e]
  | x :: r =>
    if entryHome x = entryHome e then entryOf (entryHome e) (laterSeq (entrySeq x) (entrySeq e)) :: r
    else if entryHome e < entryHome x then e :: x :: r
    else x :: addEntry e r

/-- merge(p, q) of two valid witnesses with Ecur (R146), and whether Ecur was taken (R262, EPOCH). -/
def mergeValid (ecur : Nat) (p q : Word) : Word × Bool :=
  if emptyWit p then (q, false)
  else if emptyWit q then (p, false)
  else if formOf p = 2 || formOf q = 2 then
    let ep := if formOf p = 2 then bits p 0 48 else 0
    let eq := if formOf q = 2 then bits q 0 48 else 0
    let mixed := formOf p = 1 || formOf q = 1
    (epochWit (if mixed then max (max ep eq) ecur else max ep eq), mixed)
  else
    match (liveEntries p ++ liveEntries q).foldl (fun l e => addEntry e l) [] with
    | [e] => (exactOf e emptyEntry, false)
    | [a, b] => (exactOf a b, false)
    | _ => (epochWit ecur, true)

/-- merge(p, q), `none` on a malformed operand. -/
def mergeWit (ecur : Nat) (p q : Word) : Option (Word × Bool) :=
  if validWit p && validWit q then some (mergeValid ecur p q) else none

/-- The access with sequence s at home h is accepted and not yet performed. -/
def State.unperformed (s : State) (h q : Nat) : Bool :=
  s.flight.any fun a => a.acc.any fun x => x.2.1 == h && x.2.2.1 == q

/-- V as the bench node of thread n last received it; the stewards read the root. -/
def State.nodeV (s : State) (n : Nat) : Nat := if isSteward n then s.pkg.vroot else (s.pkg.bench (benchOf n)).nodeV

/-- A valid witness is satisfied, seen where V has the value v (R139, R317). -/
def State.satisfied (s : State) (v : Nat) (w : Word) : Bool :=
  match formOf w with
  | 0 => true
  | 1 => (liveEntries w).all fun e => !s.unperformed (entryHome e) (entrySeq e)
  | _ => decide (bits w 0 48 < v)

end Sys2Proof.Machine
end

