-- ==== Sys2Proof/Machine/Bytes.lean ====
section
/-! DEFINITION. Places (R14, R20, R328), bytes, and the performing of a write at its home (R137, R314). -/

namespace Sys2Proof.Machine

/-! ### Places -/

/-- The shelf window. -/
def shelfBase : Nat := 0x7F0000000000
/-- The image window. -/
def imageBase : Nat := 0x7F1000000000
/-- The address of core c's shelf (R14). -/
def shelfOf (c : Nat) : Nat := shelfBase + c * 0x80000
/-- Stamp region r of tenant t (R244). -/
def regionAddr (t r : Nat) : Nat := imageBase + 0xFF0000 + 0x2000 * t + 32 * r
/-- Usable DRAM ends here (R328). -/
def dramEnd : Nat := 0x3C00000000

/-- The home of a resolved address (R20, R21, R328). -/
def homeOf (a : Nat) : Nat :=
  if imageBase ≤ a then 640
  else if shelfBase ≤ a then (a - shelfBase) / 0x80000
  else if a < dramEnd then 512 + (Config.dramSlice (a / 64)).val
  else if a < 0x200000000000 then 641
  else 642 + (a - 0x200000000000) / 0x40000000000

/-- The address lies outside the package: host window or a peer (R20). -/
def isForeign (a : Nat) : Bool := decide (dramEnd ≤ a) && decide (a < shelfBase)

/-- A physical address that the map assigns (R328). -/
def assigned (a : Nat) : Bool :=
  decide (a < dramEnd) || (decide (0x100000000000 ≤ a) && decide (a < 0x2C0000000000))

/-! ### Bytes -/

/-- n bytes from a on, little-endian; what is not listed reads 0 (log 2). -/
def readMem (m : Store Byte) (a : Nat) : Nat → Nat
  | 0 => 0
  | n + 1 => (m.get 0 a).toNat + 256 * readMem m (a + 1) n

/-- Write the n low bytes of v from a on. -/
def writeMem (m : Store Byte) (a v : Nat) : Nat → Store Byte
  | 0 => m
  | n + 1 => writeMem (m.set 0 a (BitVec.ofNat 8 v)) (a + 1) (v / 256) n

/-- An 8-byte word of memory. -/
def Pkg.rd (p : Pkg) (a : Nat) : Word := word (readMem p.mem a 8)

/-- A store of `len` bytes at `at_` that changes the n bytes at a enters the history (R314); one of a whole line ends its error mark
(R135). -/
def Pkg.note (p : Pkg) (th : Option (Nat × Nat)) (at_ len a n : Nat) : Pkg :=
  { p with
    hist := ⟨p.histN, at_, len, a, byteList (readMem p.mem a n) n, p.vroot, th⟩ :: p.hist
    histN := p.histN + 1
    errLines := if len = 64 ∧ at_ % 64 = 0 then p.errLines.erase (at_ / 64) else p.errLines }

/-- A store of `len` bytes at `at_` that leaves v in the n bytes at a is performed at its home, as one unit. -/
def Pkg.performAs (p : Pkg) (th : Option (Nat × Nat)) (at_ len a n v : Nat) : Pkg :=
  { p.note th at_ len a n with mem := writeMem p.mem a v n }

/-- A write performed at a home. -/
def Pkg.perform (p : Pkg) (th : Option (Nat × Nat)) (a n v : Nat) : Pkg := p.performAs th a n a n v

/-- A store that the release buffer accepts enters the history (R314); what stood there is the other side's. -/
def Pkg.performForeign (p : Pkg) (th : Option (Nat × Nat)) (a n : Nat) : Pkg :=
  { p with hist := ⟨p.histN, a, n, a, List.replicate n 0, p.vroot, th⟩ :: p.hist, histN := p.histN + 1 }

/-- Write an 8-byte word that the machine itself keeps in memory. -/
def Pkg.wr (p : Pkg) (a : Nat) (v : Word) : Pkg := p.perform none a 8 v.toNat

/-- Give the next sequence number of home h (R137). -/
def Pkg.nextSeq (p : Pkg) (h : Nat) : Nat × Pkg :=
  let q := p.seqs.get 0 h
  (q, { p with seqs := p.seqs.set 0 h ((q + 1) % 2 ^ 20) })

end Sys2Proof.Machine
end

