-- ==== Sys2Proof/Machine/Translation.lean ====
section
/-! DEFINITION. Stamp regions and image windows (R19, R244), translation (R26, R328-R333), and the structures of a tenant that the
machine reaches through that tenant's tables (R298, R308, R399). -/

namespace Sys2Proof.Machine

/-! ### Stamp regions (R244-R246) -/

/-- A stamp region as its words give it. -/
structure Region where
  base : Nat
  kind : Nat
  cls : Nat
  limit : Nat
  len : Nat
  stamp : Word
  deriving DecidableEq, Repr

/-- Region r of tenant t. -/
def Pkg.region (p : Pkg) (t r : Nat) : Region :=
  let a := regionAddr t r
  let w1 := p.rd (a + 8)
  ⟨bits (p.rd a) 0 48, bits w1 62 2, bits w1 59 3, bits w1 32 16, bits w1 0 32, p.rd (a + 16)⟩

/-- The valid regions of a tenant, ascending: those whose KIND bits are listed. -/
def Pkg.validRegions (p : Pkg) (t : Nat) : List Nat :=
  let lo := regionAddr t 0
  p.mem.filterMap fun c =>
    if lo ≤ c.1 ∧ c.1 < lo + 0x2000 ∧ (c.1 - lo) % 32 = 15 ∧ 64 ≤ c.2.toNat then some ((c.1 - lo) / 32) else none

/-! ### Cycles of a class (R234, R237) -/

/-- The period of a class in eighths of a nanosecond. -/
def Class.period (c : Class) : Nat := bits c.per 48 15 * 250000
/-- The phase. -/
def Class.phase (c : Class) : Nat := bits c.per 0 30 * 8
/-- PUBOFF. -/
def Class.puboff (c : Class) : Nat := bits c.pub 0 30 * 8
/-- CUT. -/
def Class.cut (c : Class) : Nat := bits c.pub 30 30 * 8
/-- EN. -/
def Class.en (c : Class) : Bool := c.per.getLsbD 63
/-- The start of a cycle. -/
def Class.startOf (c : Class) (n : Nat) : Nat := c.phase + n * c.period

/-- The cycle a class starts next. -/
def Class.next (c : Class) : Nat := if c.started then c.cyc.toNat + 1 else c.first

/-- The image windows hold the n bytes at image offset o (R19, R371). -/
def Pkg.inWindows (p : Pkg) (t o n : Nat) : Bool :=
  match p.desc t with
  | none => false
  | some d =>
    (List.range n).all fun i =>
      decide (o + i < 0xC00000) &&
        d.imgw.any fun w => decide (w.1 * 4096 ≤ o + i) && decide (o + i < (w.1 + w.2) * 4096)

/-- One image byte is in the tenant's windows. -/
def Pkg.imageByte (p : Pkg) (t o : Nat) : Bool := p.inWindows t o 1

/-! ### Translation (R329-R333) -/

/-- What an access needs of a page (R332). -/
inductive Use where
  | fetch
  | load
  | store
  | atomic
  deriving DecidableEq, Repr

/-- The use writes. -/
def Use.writes : Use → Bool
  | .fetch => false
  | .load => false
  | .store => true
  | .atomic => true

/-- What a walk finds: a leaf, its address and level; a malformed or BAD entry; an entry that is not present. -/
inductive Walk where
  | leaf (pte : Word) (at_ level : Nat)
  | bad
  | absent (level : Nat) (spr : Bool) (at_ : Nat)
  deriving DecidableEq, Repr

/-- The shift of the index of a level and the size of its leaf, in bits (R329). -/
def levelShift : Nat → Nat
  | 0 => 39
  | 1 => 30
  | 2 => 21
  | _ => 16

/-- The table or frame address of an entry (R330). -/
def pteAddr (e : Word) : Nat := bits e 8 38 * 256

/-- An entry with V = 1 is malformed (R331). -/
def malformed (e : Word) (level : Nat) : Bool :=
  let leaf := e.getLsbD 1
  bits e 56 4 != 0 || bits e 46 6 != 0 || (leaf && level == 0) || (!leaf && level == 3) ||
    (!leaf && decide (level ≤ 1) && bits e 8 4 != 0) ||
    (leaf && pteAddr e % 2 ^ levelShift level != 0) || (leaf && e.getLsbD 3 && !(e.getLsbD 2))

/-- The walk of a virtual address from a table on, `n` levels left (R329). -/
def walkFrom (m : Store Byte) (va table : Nat) : Nat → Walk
  | 0 => .bad
  | n + 1 =>
    let level := 3 - n
    let idx := if level = 3 then va / 2 ^ 16 % 32 else va / 2 ^ levelShift level % 512
    let at_ := table + 8 * idx
    let e : Word := word (readMem m at_ 8)
    if !(e.getLsbD 0) then
      if e.getLsbD 2 then .bad
      else .absent level (e.getLsbD 52) at_
    else if malformed e level then .bad
    else if e.getLsbD 1 then .leaf e at_ level
    else walkFrom m va (pteAddr e) n

/-- The walk of a tenant's address; a tenant with no descriptor has no space. -/
def Pkg.walk (p : Pkg) (t va : Nat) : Walk :=
  match p.desc t with
  | some d => walkFrom p.mem va d.l0 4
  | none => .bad

/-- A leaf permits a use (R332). -/
def permits (e : Word) (u : Use) (sup : Bool) : Bool :=
  (sup || e.getLsbD 5) &&
    match u with
    | .fetch => e.getLsbD 4
    | .load => e.getLsbD 2
    | .store => e.getLsbD 3
    | .atomic => e.getLsbD 2 && e.getLsbD 3

/-- Two entries differ in A and D at most. -/
def sameBut (e f : Word) : Bool := e ||| 0xC0#64 == f ||| 0xC0#64

/-- What a use leaves of an entry: A is set, and D by a write (R333). -/
def Use.mark (u : Use) (e : Word) : Word := e ||| 0x40#64 ||| (if u.writes then 0x80#64 else 0)

/-- The walker sets A, and D for a write, in the entry as it stands, unless it is no longer the one that the walk has read (R333). -/
def Pkg.touch (p : Pkg) (at_ : Nat) (e : Word) (u : Use) : Pkg :=
  let now := p.rd at_
  if !sameBut now e || u.mark now == now then p else p.perform none at_ 8 (u.mark now).toNat

/-- The outcome of the checks for one address (R131, rows 3 and 4). -/
inductive Chk where
  | ok (addr : Nat) (leaf : Option Leaf)
  | fault (c : Cause)
  | absent (level : Nat) (spr : Bool) (at_ : Nat)
  deriving DecidableEq, Repr

/-- The stretch of a shelf that a spare page takes holds the offset (R340). -/
def Pkg.spareAt (p : Pkg) (c o : Nat) : Bool :=
  p.spares.any fun x => x.2.2.1 == c && decide (0x10000 + 0x10000 * x.2.2.2 ≤ o) && decide (o < 0x20000 + 0x10000 * x.2.2.2)

/-- The rows of R26 for an address in the windows. -/
def Pkg.window (p : Pkg) (t : Nat) (sup : Bool) (u : Use) (a : Nat) : Chk :=
  if a < shelfBase + 0x10000000 then
    let c := (a - shelfBase) / 0x80000
    let o := (a - shelfBase) % 0x80000
    if u = .fetch then .fault .xlatPerm
    else if !p.inMap t (c / 8) || decide (0x60000 ≤ o) || p.spareAt c o then .fault .shelfPerm
    else if u.writes && !sup && decide (0x3800 ≤ o) && decide (o < 0x8000) then .fault .shelfPerm
    else .ok a none
  else if imageBase ≤ a ∧ a < imageBase + 0x1000000 then
    let o := a - imageBase
    if u = .fetch then .fault .xlatPerm
    else if p.imageByte t o then
      if u.writes && (p.validRegions t).any (fun r =>
        let g := p.region t r
        g.kind == 1 && decide (g.base ≤ a) && decide (a < g.base + g.len)) then .fault .xlatPerm
      else .ok a none
    else if sup && u ≠ .atomic && decide (0xFF0000 + 0x2000 * t ≤ o) && decide (o < 0xFF0000 + 0x2000 * (t + 1)) && decide (t < 8)
    then .ok a none
    else .fault .xlatPerm
  else .fault .xlatPerm

/-- The address that a leaf gives. -/
def Leaf.addr (l : Leaf) (va : Nat) : Nat := pteAddr l.pte + va % 2 ^ levelShift l.level

/-- The physical address of tenant t's task table, which fills one 64 KiB page (R298, R371). -/
def Pkg.tableBase (p : Pkg) (t : Nat) : Option Nat :=
  match p.desc t with
  | none => none
  | some d =>
    match walkFrom p.mem d.ttbase d.l0 4 with
    | .leaf e at_ level => some ((Leaf.mk at_ e (d.ttbase / 65536) level).addr d.ttbase)
    | .bad => none
    | .absent _ _ _ => none

/-- A physical address lies in a task table. -/
def Pkg.inTable (p : Pkg) (pa : Nat) : Bool :=
  (List.range 8).any fun t => match p.tableBase t with
    | some b => decide (b ≤ pa) && decide (pa < b + 0x10000)
    | none => false

/-- The outcome for a leaf. Only S = 1 stores to a task table (R298): DEDUCED (log 72), another store is one that is not permitted. -/
def Pkg.leafOutcome (p : Pkg) (l : Leaf) (va : Nat) (u : Use) (sup : Bool) : Chk :=
  if !permits l.pte u sup || !assigned (l.addr va) || (u.writes && !sup && p.inTable (l.addr va)) then .fault .xlatPerm
  else .ok (l.addr va) (some l)

/-- The address lies in the untranslated window space, 0x7F00_0000_0000 to 0x7FFF_FFFF_FFFF (R26). -/
def inWindowSpace (a : Nat) : Bool := decide (shelfBase ≤ a) && decide (a < 0x800000000000)

/-- The checks for one address, by the tables as they stand, in the order of the rows of R26. -/
def Pkg.check (p : Pkg) (t : Nat) (sup : Bool) (u : Use) (a : Word) : Chk :=
  if bits a 48 16 ≠ 0 then .fault .xlatPerm
  else if inWindowSpace a.toNat then p.window t sup u a.toNat
  else
    match p.walk t a.toNat with
    | .leaf e at_ level => p.leafOutcome ⟨at_, e, a.toNat / 65536, level⟩ a.toNat u sup
    | .bad => .fault .xlatPerm
    | .absent l sp at_ => .absent l sp at_

/-- The pointer entries on a walk's path, with their levels. -/
def pointersFrom (m : Store Byte) (va table : Nat) : Nat → List (Nat × Word)
  | 0 => []
  | n + 1 =>
    let level := 3 - n
    let e : Word := word (readMem m (table + 8 * (if level = 3 then va / 2 ^ 16 % 32 else va / 2 ^ levelShift level % 512)) 8)
    if e.getLsbD 0 && !malformed e level && !(e.getLsbD 1) then (level, e) :: pointersFrom m va (pteAddr e) n else []

/-! ### Structures of a tenant (R399) -/

/-- The place of a virtual address of a tenant's structure, by the permissions of S = 1. -/
def Pkg.place (p : Pkg) (t va : Nat) (u : Use) : Option Nat :=
  match p.check t true u (word va) with
  | .ok a _ => some a
  | .fault _ => none
  | .absent _ _ _ => none

/-- An access to a tenant's structure has used its leaf: A is set, and D by a write (R333). -/
def Pkg.used (p : Pkg) (t va : Nat) (u : Use) : Pkg :=
  match p.check t true u (word va) with
  | .ok _ (some l) => p.touch l.at_ l.pte u
  | .ok _ none => p
  | .fault _ => p
  | .absent _ _ _ => p

/-- A task-table entry (R298). -/
structure Entry where
  cyc : Bool
  blk : Bool
  cls : Nat
  pri : Nat
  dom : Nat
  addr : Nat
  job : Nat
  cba : Nat
  budget : Nat
  home : Nat
  args : List Word
  deriving DecidableEq, Repr

/-- The virtual address of entry i of a tenant's task table. -/
def Pkg.entryVa (p : Pkg) (t i : Nat) : Nat := ((p.desc t).map (·.ttbase)).getD 0 + 64 * i

/-- Where task-table entry i of a tenant lies. -/
def Pkg.entryAddr (p : Pkg) (t i : Nat) (u : Use) : Option Nat :=
  match p.desc t with
  | none => none
  | some d => p.place t (d.ttbase + 64 * i) u

/-- The constant-bank address of the entry at a place (R298). -/
def Pkg.bankAddr (p : Pkg) (a : Nat) : Word := word (bits (p.rd (a + 8)) 10 38 * 1024)

/-- Entry i of a tenant's task table, if VALID (R298). -/
def Pkg.entryOf (p : Pkg) (t i : Nat) : Option Entry :=
  match p.entryAddr t i .load with
  | none => none
  | some a =>
    let w0 := p.rd a
    let w1 := p.rd (a + 8)
    let w2 := p.rd (a + 16)
    if !(w0.getLsbD 63) then none
    else
      some
        { cyc := w0.getLsbD 62
          blk := w0.getLsbD 61
          cls := bits w0 58 3
          pri := bits w0 56 2
          dom := bits w0 54 2
          addr := 2 * bits w0 1 47
          job := bits w1 48 16
          cba := bits w1 10 38 * 1024
          budget := bits w2 48 16
          home := bits w2 32 9
          args := [p.rd (a + 32), p.rd (a + 40), p.rd (a + 48), p.rd (a + 56)] }

/-- Entry i of a tenant is blocked (R300). -/
def Pkg.blocked (p : Pkg) (t i : Nat) : Bool :=
  match p.entryAddr t i .load with
  | none => false
  | some a => (p.rd a).getLsbD 61

/-- The address of a job's generation. -/
def Pkg.genAddr (p : Pkg) (t job : Nat) : Nat := ((p.desc t).map (·.gtbase)).getD 0 + job

/-- The current generation of a job by the tenant's table. -/
def Pkg.generation (p : Pkg) (t job : Nat) : Option Nat :=
  match p.desc t with
  | none => none
  | some d => (p.place t (d.gtbase + job) .load).map fun a => (p.mem.get 0 a).toNat

/-- The generation of a job as bench b holds it: an older one until the cancel's broadcast has reached the bench (R308). -/
def Pkg.genAt (p : Pkg) (b t job : Nat) : Option Nat :=
  match (p.bench b).gens.get 0 (t * 65536 + job) with
  | 0 => p.generation t job
  | g + 1 => some g

end Sys2Proof.Machine
end

