-- ==== Sys2Proof/Machine/Records.lean ====
section
/-! DEFINITION. Task records (R157, R158), record pools and deques (R296, R304), the readying of a record (R301, R307), drawer
descriptors and their operations (R149-R152). -/

namespace Sys2Proof.Machine

/-- Run `f` over a list, each with what the one before left. -/
def forEach {α : Type} (f : α → State → (State → Out) → Out) : List α → State → (State → Out) → Out
  | [], s, k => k s
  | a :: r, s, k => f a s fun s' => forEach f r s' k

/-! ### Records -/

/-- A task record (R157). -/
structure Rec where
  fail : Bool
  pre : Bool
  entry : Nat
  bud : Bool
  resume : Nat
  key : Nat
  state : Nat
  gen : Nat
  dom : Nat
  cls : Nat
  pri : Nat
  job : Nat
  stamp : Word
  link : Nat
  args : List Word
  deriving DecidableEq, Repr

/-- The record of a slot; STATE 12-15 counts as FAILED (R158), and RESUME is even (R157). -/
def Pkg.record (p : Pkg) (slot : Nat) : Rec :=
  let w0 := p.rd slot
  let w1 := p.rd (slot + 8)
  { fail := w0.getLsbD 60
    pre := w0.getLsbD 59
    entry := bits w0 49 10
    bud := w0.getLsbD 48
    resume := 2 * bits w0 1 47
    key := bits w1 35 16
    state := if 12 ≤ bits w1 31 4 then 10 else bits w1 31 4
    gen := bits w1 23 8
    dom := bits w1 21 2
    cls := bits w1 18 3
    pri := bits w1 16 2
    job := bits w1 0 16
    stamp := p.rd (slot + 16)
    link := bits (p.rd (slot + 24)) 0 48
    args := [p.rd (slot + 32), p.rd (slot + 40), p.rd (slot + 48), p.rd (slot + 56)] }

/-- One bit as a number. -/
def num (b : Bool) : Nat := if b then 1 else 0

/-- Word 0 of a record; bit 0 of RESUME is 0 (R157). -/
def Rec.word0 (r : Rec) : Word :=
  word (num r.fail * 2 ^ 60 + num r.pre * 2 ^ 59 + r.entry * 2 ^ 49 + num r.bud * 2 ^ 48 + r.resume % 2 ^ 48 / 2 * 2)

/-- Word 1 of a record. -/
def Rec.word1 (r : Rec) : Word :=
  word (r.key % 2 ^ 16 * 2 ^ 35 + r.state * 2 ^ 31 + r.gen * 2 ^ 23 + r.dom * 2 ^ 21 + r.cls * 2 ^ 18 + r.pri * 2 ^ 16 + r.job)

/-- The number of a list of words, the first lowest. -/
def wordsNat : List Word → Nat
  | [] => 0
  | w :: r => w.toNat + 2 ^ 64 * wordsNat r

/-- Write the record of a slot, as one step (R159). -/
def Pkg.putRecord (p : Pkg) (slot : Nat) (r : Rec) : Pkg :=
  p.perform none slot 64 (wordsNat ([r.word0, r.word1, r.stamp, word r.link] ++ r.args))

/-- The core whose pool holds a slot. -/
def slotCore (slot : Nat) : Nat := (slot - shelfBase) / 0x80000

/-- Slot i of core c (R296). -/
def slotAddr (c i : Nat) : Nat := shelfOf c + 0x4000 + 64 * i

/-- The number of a slot in its pool. -/
def slotIndex (slot : Nat) : Nat := ((slot - shelfBase) % 0x80000 - 0x4000) / 64

/-- The lowest free slot of core c's pool (R296). -/
def Pkg.freeSlot (p : Pkg) (c : Nat) : Option Nat :=
  ((List.range 256).find? fun i => !(p.core c).pool.contains i).map (slotAddr c)

/-- Take a slot. -/
def Pkg.takeSlot (p : Pkg) (slot : Nat) : Pkg :=
  p.onCore (slotCore slot) fun k => { k with pool := slotIndex slot :: k.pool }

/-! ### Deques (R304) -/

/-- Entry i of core c's memory deque; the oldest is entry 0 (log 11). -/
def memEntry (c i : Nat) : Nat := shelfOf c + 0x3800 + 8 * i

/-- A record at the newest end; a full hardware deque first spills its oldest entry. -/
def Pkg.pushNewest (p : Pkg) (c slot : Nat) : Pkg :=
  let k := p.core c
  if k.hwDeque.length < 64 then p.onCore c fun k => { k with hwDeque := slot :: k.hwDeque }
  else
    (p.wr (memEntry c k.memLen) (word (k.hwDeque.getLast?.getD 0))).onCore c fun k =>
      { k with hwDeque := slot :: k.hwDeque.dropLast, memLen := k.memLen + 1 }

/-- Move n memory entries up by one, from the newest on. -/
def Pkg.shiftUp (p : Pkg) (c : Nat) : Nat → Pkg
  | 0 => p
  | n + 1 => (p.wr (memEntry c (n + 1)) (p.rd (memEntry c n))).shiftUp c n

/-- A record at the oldest end (R165): of the memory deque when that is not empty, else of the hardware deque. DEDUCED (log 71): a
hardware deque that is full takes no 65th entry, so the record is then the first of the memory deque, still the oldest. -/
def Pkg.pushOldest (p : Pkg) (c slot : Nat) : Pkg :=
  let k := p.core c
  if k.memLen = 0 ∧ k.hwDeque.length < 64 then p.onCore c fun k => { k with hwDeque := k.hwDeque ++ [slot] }
  else ((p.shiftUp c k.memLen).wr (memEntry c 0) (word slot)).onCore c fun k => { k with memLen := k.memLen + 1 }

/-- A yielded record goes to the oldest end of its deque, in core tick `now`. -/
def Pkg.pushYielded (p : Pkg) (now c slot : Nat) : Pkg :=
  (p.pushOldest c slot).onCore c fun k => { k with yields := (slot, now) :: k.yields }

/-- The memory deque, newest first. -/
def Pkg.memDeque (p : Pkg) (c : Nat) : List Nat :=
  ((List.range (p.core c).memLen).map fun i => (p.rd (memEntry c i)).toNat).reverse

/-- An empty hardware deque takes the newest memory entry and up to 32 more behind it. -/
def Pkg.refill (p : Pkg) (c : Nat) : Pkg :=
  let k := p.core c
  if k.hwDeque.isEmpty then
    let n := min 33 k.memLen
    p.onCore c fun k => { k with hwDeque := (p.memDeque c).take n, memLen := k.memLen - n }
  else p

/-- Move the memory entries above entry i down by one. -/
def Pkg.closeGap (p : Pkg) (c i : Nat) : Nat → Pkg
  | 0 => p
  | n + 1 => (p.wr (memEntry c i) (p.rd (memEntry c (i + 1)))).closeGap c (i + 1) n

/-- Take a record out of the deque of core c, wherever it stands. -/
def Pkg.takeDeque (p : Pkg) (c slot : Nat) : Pkg :=
  if (p.core c).hwDeque.contains slot then p.onCore c fun k => { k with hwDeque := k.hwDeque.erase slot }
  else
    match (List.range (p.core c).memLen).find? fun i => (p.rd (memEntry c i)).toNat == slot with
    | some i =>
      (p.closeGap c i ((p.core c).memLen - 1 - i)).onCore c fun k => { k with memLen := k.memLen - 1 }
    | none => p

/-! ### Failed accesses to a tenant's structures (R399) -/

/-- An access to a tenant's structure failed: the steward of the die hears of it. -/
def Pkg.lost (p : Pkg) (die va : Nat) : Pkg := { p with areaLost := p.areaLost ++ [(die, va)] }

/-- An access to a tenant's structure failed that counts as an uncorrectable error (R260, R399). -/
def Pkg.areaError (p : Pkg) (die va : Nat) : Pkg := { p.lost die va with checkDue := true }

/-- Bench b compares a generation of tenant t's job with the table's: its leaf is used, and a table that cannot be reached is an
uncorrectable error (R308, R333, R399). -/
def Pkg.useGen (p : Pkg) (b t job : Nat) : Pkg :=
  match p.genAt b t job with
  | some _ => p.used t (p.genAddr t job) .load
  | none => if (p.desc t).isSome then p.areaError (b / 16) (p.genAddr t job) else p

/-- Creation from entry i of a tenant reads it: where the table cannot be reached, the entry counts as not VALID and the steward hears
of it. -/
def Pkg.noteEntry (p : Pkg) (die t i : Nat) : Pkg :=
  if (p.entryAddr t i .load).isSome then p.used t (p.entryVa t i) .load else p.lost die (p.entryVa t i)

/-! ### Launch records (R296, R299, R306) -/

/-- The task-table entry that a launch record names. -/
def launchEntry (ws : List Word) : Nat := bits (ws.getD 0 0) 54 10

/-- The record of one core of a launch. -/
def launchRec (e : Entry) (entry gen rank : Nat) (ws : List Word) : Rec :=
  let w0 := ws.getD 0 0
  let a3 := if w0.getLsbD 49 then word rank else ws.getD 7 0
  { fail := false, pre := false, entry := entry, bud := e.budget != 0, resume := if bits w0 0 48 = 0 then e.addr else bits w0 0 48
    key := 0, state := 0, gen := gen, dom := bits w0 50 2, cls := e.cls, pri := bits w0 52 2, job := e.job, stamp := ws.getD 3 0
    link := 0, args := [ws.getD 4 0, ws.getD 5 0, ws.getD 6 0, a3] }

/-! ### Messages (R166) -/

/-- The destination core. -/
def Message.dest (m : Message) : Nat := bits m.header 0 9
/-- The task-table entry. -/
def Message.entry (m : Message) : Nat := bits m.header 9 10
/-- The mailbox priority. -/
def Message.pri (m : Message) : Nat := bits m.header 19 2
/-- The message is for a task waiting in recv. -/
def Message.wt (m : Message) : Bool := m.header.getLsbD 21
/-- The routing tag. -/
def Message.tag (m : Message) : Nat := bits m.header 22 16
/-- The sending core. -/
def Message.src (m : Message) : Nat := bits m.header 38 9
/-- The sender's job. -/
def Message.job (m : Message) : Nat := bits m.header 48 16
/-- The sender's generation. -/
def Message.gen (m : Message) : Nat := bits m.sendWord 56 8

/-! ### Waking a bench (R307) -/

/-- A core holds work that a thread of it may take: mail, ready records, releases or a deque. -/
def Core.hasWork (c : Core) : Bool :=
  !(c.ready.isEmpty && c.releases.isEmpty && c.hwDeque.isEmpty && c.memLen == 0) || c.mail.any fun x => x.2.any fun m => !m.wt

/-- Bench b is to wake if it is gated and a core of it holds work (R307). -/
def Pkg.rouse (p : Pkg) (b : Nat) : Pkg :=
  if (List.range 8).any fun i => (p.core (8 * b + i)).hasWork then p.onBench b fun x => { x with waking := x.waking || x.gated } else p

/-- Work that was passed over may be a candidate again, at any bench (R300, R307). -/
def Pkg.rouseAll (p : Pkg) : Pkg := (List.range 64).foldl Pkg.rouse p

/-! ### Creation by a launch -/

/-- Count a bad launch at its window. -/
def Pkg.badLaunch (p : Pkg) (t w : Nat) : Pkg :=
  { p with badlnch := p.badlnch.set 0 (4 * t + w) ((p.badlnch.get 0 (4 * t + w) + 1) % 2 ^ 32) }

/-- Create the record of a launch in a slot that is its own, from the entry and the generation as they stand now (R298, R299);
`none` where the entry is not VALID. -/
def Pkg.createLaunch (p : Pkg) (slot : Nat) (l : LaunchWait) : Option Pkg :=
  let c := slotCore slot
  (p.entryOf l.tenant (launchEntry l.words)).map fun e =>
    let gen := (p.genAt (c / 8) l.tenant e.job).getD 0
    (((p.useGen (c / 8) l.tenant e.job).putRecord slot (launchRec e (launchEntry l.words) gen l.rank l.words)).onCore c fun k =>
      { k with launched := slot :: k.launched }).pushNewest c slot

/-- A freed slot goes to the first launch record that waits for one and whose entry is still VALID; the others create nothing and are
counted at their windows (R299, R399). -/
def Pkg.grantSlot (p : Pkg) (slot : Nat) : List LaunchWait → Pkg
  | [] => p.onCore (slotCore slot) fun k => { k with launches := [], pool := k.pool.erase (slotIndex slot) }
  | l :: r =>
    let q := p.noteEntry (slotCore slot / 128) l.tenant (launchEntry l.words)
    match q.createLaunch slot l with
    | some x => x.onCore (slotCore slot) fun k => { k with launches := r }
    | none => (q.badLaunch l.tenant l.window).grantSlot slot r

/-- Free a slot: a launch record that waits for one is created in it (R296). Work that a full pool held back, or that the record is,
wakes its bench (R307). -/
def Pkg.freeUp (p : Pkg) (slot : Nat) : Pkg := (p.grantSlot slot (p.core (slotCore slot)).launches).rouse (slotCore slot / 8)

/-! ### Readying (R301, R307) -/

/-- The account of a budgeted entry is used up while its class runs (R236, R252). DESIGN CHOICE (log 103): an entry given a budget in
mid-cycle has no account, and so no limit, until the next cycle start of its class. -/
def Pkg.budgetOut (p : Pkg) (t entry cls : Nat) : Bool :=
  match p.budgets.get none (t * 1024 + entry) with
  | some b => b.left == 0 && (p.cls cls).started
  | none => false

/-- A record becomes a candidate at a core, in core tick `now`; a gated bench is to wake (R307). -/
def Pkg.candidate (p : Pkg) (c slot tenant now : Nat) (cyc handed : Bool) : Pkg :=
  ({ p with arrival := p.arrival + 1 }.onCore c fun k =>
    { k with ready := k.ready ++ [Ready.mk slot tenant p.arrival cyc handed now false none] }).onBench (c / 8) fun b =>
      { b with waking := b.waking || b.gated }

/-- The bench of a record's slot holds another generation of its job than the record carries (R308). DEDUCED (log 33): one that cannot be
reached counts as the record's own. -/
def Pkg.outdated (p : Pkg) (t slot : Nat) : Bool :=
  let r := p.record slot
  match p.genAt (slotCore slot / 8) t r.job with
  | some g => g != r.gen
  | none => false

/-- Wake a suspended record: READY, or STOPPED where its budget is used up (R252). A FAILED one is not woken (R158). The bench compares
generations (R308): a record of an old one does not become ready, and ends as cancelled there (`Sleeper.state` 12). -/
def Pkg.wakeAs (p : Pkg) (now slot : Nat) (cyc : Bool) : Pkg :=
  match p.sleepers.find? fun z => z.slot == slot with
  | none => p
  | some z =>
    let r := p.record slot
    let rest := p.sleepers.filter fun y => y.slot != slot
    let p := p.useGen (slotCore slot / 8) z.tenant r.job
    if r.state = 10 then { p with sleepers := rest }
    else if p.outdated z.tenant slot then { p with sleepers := rest ++ [⟨slot, z.tenant, 12, z.key⟩] }
    else if !cyc && r.bud && p.budgetOut z.tenant r.entry r.cls then
      { p.putRecord slot { r with state := 11, key := 0 } with sleepers := rest ++ [⟨slot, z.tenant, 11, r.cls⟩] }
    else
      { p.putRecord slot { r with state := 0, key := 0 } with sleepers := rest }.candidate (slotCore slot) slot z.tenant now cyc false

/-- Wake by a join, drawer, token or message. -/
def Pkg.wake (p : Pkg) (now slot : Nat) : Pkg := p.wakeAs now slot false

/-- Records that are put away for a tenant that is switched out are released there: it finds them ready (R236, R252). -/
def Away.freeWhere (w : Away) (f : Sleeper → Bool) : Away := { w with freed := w.freed ++ (w.sleepers.filter f).map (·.slot) }

/-- Wake every suspended record that `f` picks; those of a bench that their tenant has left are ready when it is back. -/
def Pkg.wakeWhere (p : Pkg) (now : Nat) (f : Sleeper → Bool) : Pkg :=
  (p.sleepers.filter f).foldl (fun p z => p.wake now z.slot) { p with away := p.away.map fun w => (w.1, w.2.freeWhere f) }

/-- Wake the record of a tenant that is suspended in a state, and no other (R158). -/
def Pkg.wakeIn (p : Pkg) (now t state slot : Nat) : Pkg := p.wakeWhere now fun z => z.tenant == t && z.slot == slot && z.state == state

/-- Wake every record of a tenant that is suspended in a state on a key. -/
def Pkg.wakeAll (p : Pkg) (now t state key : Nat) : Pkg := p.wakeWhere now fun z => z.tenant == t && z.state == state && z.key == key

/-! ### Drawers (R149-R152) -/

/-- The descriptor of drawer n of core c. -/
def drawerAddr (c n : Nat) : Nat := shelfOf c + 0x5F000 + 64 * n

/-- The key of R158 for drawer n of core c. -/
def drawerKey (c n : Nat) : Nat := c * 64 + n

/-- The key of the drawer whose descriptor lies at a. -/
def keyOfDrawer (a : Nat) : Nat := drawerKey ((a - shelfBase) / 0x80000) (((a - shelfBase) % 0x80000 - 0x5F000) / 64)

/-- A drawer as its descriptor gives it. -/
structure Drawer where
  en : Bool
  slots : Nat
  size : Nat
  base : Nat
  tail : Nat
  head : Nat
  taken : Nat
  claimed : Nat
  filled : Nat
  free : Nat
  deriving DecidableEq, Repr

/-- The readers that wait on the drawer whose descriptor lies at a, tasks of the tenant its bench runs (R151, R372), become ready. -/
def Pkg.wakeReaders (p : Pkg) (now a : Nat) : Pkg :=
  p.wakeAll now ((p.bench ((a - shelfBase) / 0x80000 / 8)).tenant.getD 8) 3 (keyOfDrawer a)

/-- The drawer whose descriptor lies at a; `base` is the shelf address of slot 0. -/
def Pkg.drawer (p : Pkg) (a : Nat) : Drawer :=
  let c := p.rd a
  let st := p.rd (a + 16)
  { en := c.getLsbD 31
    slots := bits c 16 8 + 1
    size := bits c 0 13
    base := (a - shelfBase) / 0x80000 * 0x80000 + shelfBase + bits (p.rd (a + 8)) 6 13 * 64
    tail := bits st 44 8
    head := bits st 36 8
    taken := bits st 27 9
    claimed := bits st 18 9
    filled := bits st 9 9
    free := bits st 0 9 }

/-- The DSTATE word of the six counters. -/
def dstateOf (tail head taken claimed filled free : Nat) : Nat :=
  tail * 2 ^ 44 + head * 2 ^ 36 + taken * 2 ^ 27 + claimed * 2 ^ 18 + filled * 2 ^ 9 + free

/-- The address of slot i. -/
def Drawer.slotAt (d : Drawer) (i : Nat) : Nat := d.base + i * d.size * 64

/-- Write DSTATE, a step at the drawer's home. -/
def Pkg.putDrawer (p : Pkg) (a : Nat) (d : Drawer) : Pkg :=
  p.wr (a + 16) (word (dstateOf d.tail d.head d.taken d.claimed d.filled d.free))

/-- dclaim of a drawer with a free slot: the slot's address. -/
def Pkg.claim (p : Pkg) (a : Nat) : Nat × Pkg :=
  let d := p.drawer a
  (d.slotAt d.tail, p.putDrawer a { d with tail := (d.tail + 1) % d.slots, free := d.free - 1, claimed := d.claimed + 1 })

/-- The key of a slot's posted witness. -/
def slotWitKey (a i : Nat) : Nat := a * 256 + i

/-- dpost: the oldest claimed slot records the witness, and waiting readers become ready. -/
def Pkg.post (p : Pkg) (now a : Nat) (w : Word) : Pkg :=
  let d := p.drawer a
  let i := (d.tail + d.slots - d.claimed % d.slots) % d.slots
  if d.claimed = 0 then p
  else
  let q := p.putDrawer a { d with claimed := d.claimed - 1, filled := d.filled + 1 }
  { q with slotWits := q.slotWits.set 0 (slotWitKey a i) w }.wakeReaders now a

/-- dtake of a drawer with a filled slot: its address and witness. -/
def Pkg.takeFilled (p : Pkg) (a : Nat) : Nat × Word × Pkg :=
  let d := p.drawer a
  (d.slotAt d.head, p.slotWits.get 0 (slotWitKey a d.head),
    p.putDrawer a { d with head := (d.head + 1) % d.slots, filled := d.filled - 1, taken := d.taken + 1 })

end Sys2Proof.Machine
end

