-- ==== Sys2Proof/Machine/Memory.lean ====
section
/-! DEFINITION. The drawers' and stamp regions' layouts (R149, R245), the translation a core's TLB gives (R334, R339), the checks an
access passes (R131) and what a write does when it is performed at its home (R149, R245, R257, R314). -/

namespace Sys2Proof.Machine

/-! ### Drawer descriptors (R149) -/

/-- The layout of a descriptor lets the drawer be enabled. -/
def drawerFits (dctl dbase : Nat) : Bool :=
  dctl % 2 ^ 13 != 0 && decide (dbase + (dctl / 2 ^ 16 % 256 + 1) * (dctl % 2 ^ 13) * 64 ≤ 0x5F000)

/-- What a store to a descriptor leaves, from the 64 bytes it would leave if it were plain data: while EN = 1 only EN changes;
setting EN enables the drawer if its layout fits (R149). -/
def descriptorAfter (old new : Nat) : Nat :=
  let en := old / 2 ^ 31 % 2
  let en' := new / 2 ^ 31 % 2
  if en = 1 then (if en' = 1 then old else old - 2 ^ 31)
  else
    let dctl := new % 2 ^ 24 / 2 ^ 16 * 2 ^ 16 + new % 2 ^ 13
    let dbase := new / 2 ^ 70 % 2 ^ 13 * 64
    if en' = 1 && drawerFits dctl dbase then
      dctl + 2 ^ 31 + dbase * 2 ^ 64 + dstateOf 0 0 0 0 0 (dctl / 2 ^ 16 + 1) * 2 ^ 128
    else dctl + dbase * 2 ^ 64 + old / 2 ^ 128 % 2 ^ 64 * 2 ^ 128

/-! ### Stamp regions (R244-R246) -/

/-- A range of bytes is in the windows: windows come in 4 KiB units. -/
def Pkg.rangeInWindows (p : Pkg) (t o n : Nat) : Bool :=
  (List.range (n / 4096 + 1)).all (fun i => p.imageByte t (o + min (4096 * i) (n - 1))) && p.imageByte t (o + (n - 1))

/-- The filling area has room for one more input region of n bytes (R239, R245). -/
def Pkg.fillingRoom (p : Pkg) (n : Nat) : Bool :=
  let used := (List.range 8).foldl (fun acc t =>
    (p.validRegions t).foldl (fun acc r => if (p.region t r).kind = 1 then acc + (p.region t r).len else acc) acc) 0
  decide (used + n ≤ 0x300000)

/-- The conditions under which a written KIND makes a region valid (R245). DESIGN CHOICE (log 111): that BASE is a multiple of 8 (R244) is
none of them, so a region of another BASE becomes valid too. -/
def Pkg.regionOk (p : Pkg) (t : Nat) (kind base len : Nat) : Bool :=
  len % 8 == 0 && decide (8 ≤ len) &&
    (kind == 3 || (decide (imageBase ≤ base) && p.rangeInWindows t (base - imageBase) len)) &&
    (kind != 1 || p.fillingRoom len)

/-- Write zero over n bytes of memory. -/
def Pkg.zero (p : Pkg) (a n : Nat) : Pkg := { p with mem := p.mem.filter fun c => !(decide (a ≤ c.1) && decide (c.1 < a + n)) }

/-- Put an 8-byte word of a stamp region; the store that does it is in the history already. -/
def Pkg.keep (p : Pkg) (a : Nat) (v : Word) : Pkg := { p with mem := writeMem p.mem a v.toNat 8 }

/-- A store of word w of region r of tenant t (R245). A region that ceases to be an output region takes part in no instant whose cut-off
came before (R249). DESIGN CHOICE (log 84): a store that turns a valid region of one kind into one of another kind keeps its data, STAMP
and filling bank; the rule gives a stamp of 0 and zero data to a region that becomes valid. -/
def Pkg.storeRegion (p : Pkg) (t r w : Nat) (v : Word) : Pkg :=
  let a := regionAddr t r
  let g := p.region t r
  match w with
  | 0 => if g.kind = 0 then p.keep a (word (bits v 0 48)) else p
  | 1 =>
    let kind := bits v 62 2
    if g.kind = 0 then
      let w1 := word (bits v 59 3 * 2 ^ 59 + bits v 0 48)
      let len := bits v 0 32
      if kind ≠ 0 && p.regionOk t kind g.base len then
        let q := (p.keep (a + 8) (w1 ||| word (kind * 2 ^ 62))).keep (a + 16) 0
        if kind = 1 then
          { q.zero g.base len with filling := q.filling.filter fun f => !(f.tenant == t && f.region == r) }
        else q
      else p.keep (a + 8) w1
    else
      let ok := kind = 0 || kind = g.kind || p.regionOk t kind g.base g.len
      let q := p.keep (a + 8) (setBits (p.rd (a + 8)) 62 2 (if ok then kind else 0))
      if ok && kind = 2 then q else { q with snaps := q.snaps.filter fun x => !(x.tenant == t && x.region == r) }
  | 2 => p.keep (a + 16) v
  | _ => p.keep (a + 24) (word (bits v 32 32 * 2 ^ 32))

/-- The lowest valid region whose range holds all n bytes at address a (R246). -/
def Pkg.regionAt (p : Pkg) (t a n : Nat) : Option Nat :=
  (p.validRegions t).find? fun r =>
    let g := p.region t r
    decide (g.base ≤ a) && decide (a + n ≤ g.base + g.len)

/-- The current cycle number of class k, `none` while it is not running (R237). -/
def Pkg.cycle (p : Pkg) (k : Nat) : Option Word := if (p.cls k).started then some (p.cls k).cyc else none

/-- The age C - S of a region, `none` while its class is not running (R246). -/
def Pkg.age (p : Pkg) (g : Region) : Option Int :=
  (p.cycle g.cls).map fun c => (c - g.stamp).toInt

/-- The region is stale (R246). -/
def Pkg.stale (p : Pkg) (g : Region) : Bool :=
  match p.age g with
  | none => true
  | some a => decide ((g.limit : Int) < a)

/-! ### Translation as the package caches it (R334, R339) -/

/-- The key of a page among those of a tenant. -/
def pageKey (t page : Nat) : Nat := t * 2 ^ 40 + page

/-- The key of the entry for an address at a level of a tenant's tables. -/
def leafKey (t level va : Nat) : Nat := (t * 4 + level) * 2 ^ 48 + va / 2 ^ levelShift level * 2 ^ levelShift level

/-- The entry under a key of `leafKey` covers an address of a range. -/
def keyCovers (t va len k : Nat) : Bool :=
  k / 2 ^ 50 == t && decide (k % 2 ^ 48 < va + len) && decide (va < k % 2 ^ 48 + 2 ^ levelShift (k / 2 ^ 48 % 4))

/-- The L1 TLB of a thread: its core's, or its own for a steward. -/
def tlbOf (n : Nat) : Nat := if isSteward n then n else coreOf n

/-- A walk finds a leaf. -/
def Walk.gives (w : Walk) (l : Leaf) : Bool :=
  match w with
  | .leaf e _ level => level == l.level && sameBut e l.pte
  | .bad => false
  | .absent _ _ _ => false

/-- The leaves at which a walk arrives from the pointer entries that a die's walk cache holds for an address. -/
def State.cachedWalks (s : State) (die t va : Nat) : List Leaf :=
  [2, 1, 0].filterMap fun level =>
    match (s.walks.get [] die).get none (leafKey t level va) with
    | none => none
    | some e => match walkFrom s.pkg.mem va (pteAddr e) (3 - level) with
      | .leaf x at_ l => some ⟨at_, x, va / 65536, l⟩
      | .bad => none
      | .absent _ _ _ => none

/-- The leaves that an L1 TLB, the die's second-level TLBs and its walk cache still give for a use beside that of the tables as they
stand. A write needs D in a TLB's entry (R333); an entry that does not permit the use takes a new walk, since adding a permission needs
no shootdown (R339). -/
def State.heldLeaves (s : State) (tlb die t : Nat) (sup : Bool) (u : Use) (a : Word) : List Leaf :=
  if inWindowSpace a.toNat || bits a 48 16 != 0 then []
  else
    let va := a.toNat
    let held := ([1, 2, 3].filterMap fun l => (s.tlbs.get [] tlb).get none (leafKey t l va)) ++
      ([2, 3].filterMap fun l => (s.tlb2.get [] die).get none (leafKey t l va))
    ((held.filter fun l => !u.writes || l.pte.getLsbD 7) ++ s.cachedWalks die t va).filter fun l =>
      !(s.pkg.walk t va).gives l && (match s.pkg.leafOutcome l va u sup with
        | .ok _ _ => true
        | .fault _ => false
        | .absent _ _ _ => false)

/-- The checks for one address by an L1 TLB and a die's walkers: between a change of the tables and its shootdown either entry may
serve (R339). -/
def State.viewAs (s : State) (tlb die t : Nat) (sup : Bool) (u : Use) (a : Word) : Chk :=
  match s.heldLeaves tlb die t sup u a with
  | [] => s.pkg.check t sup u a
  | ls => match ls[Config.staleTlb s.free a % (ls.length + 1)]? with
    | some l => s.pkg.leafOutcome l a.toNat u sup
    | none => s.pkg.check t sup u a

/-- The checks for one address as thread n's core makes them. -/
def State.view (s : State) (n : Nat) (sup : Bool) (u : Use) (a : Word) : Chk :=
  s.viewAs (tlbOf n) (dieOf n) (s.tenantOf n) sup u a

/-- A TLB takes a leaf that an access used; one it holds under the key stays till its shootdown, but for A and D. -/
def keepLeaf (key : Nat) (u : Use) (l : Leaf) (m : Store (Option Leaf)) : Store (Option Leaf) :=
  match m.get none key with
  | none => m.set none key (some { l with pte := u.mark l.pte })
  | some old => if sameBut old.pte l.pte then m.set none key (some { old with pte := old.pte ||| u.mark l.pte }) else m

/-- A walk cache takes the pointer entries of an address, but for those it holds. -/
def keepPointers (t va : Nat) (ps : List (Nat × Word)) (m : Store (Option Word)) : Store (Option Word) :=
  ps.foldl (fun m p => if (m.get none (leafKey t p.1 va)).isSome then m else m.set none (leafKey t p.1 va) (some p.2)) m

/-- The caches take what an access through a leaf used (R334); the second-level TLBs hold a leaf of 1 GiB by granules of 2 MiB. -/
def State.cacheLeaf (s : State) (tlb die t : Nat) (u : Use) (l : Leaf) : State :=
  let va := l.page * 65536
  let ps := ((s.pkg.desc t).map fun d => pointersFrom s.pkg.mem va d.l0 4).getD []
  { s with
    tlbs := s.tlbs.set [] tlb (keepLeaf (leafKey t l.level va) u l (s.tlbs.get [] tlb))
    tlb2 := s.tlb2.set [] die (keepLeaf (leafKey t (max 2 l.level) va) u l (s.tlb2.get [] die))
    walks := s.walks.set [] die (keepPointers t va ps (s.walks.get [] die)) }

/-- The caches take the leaves an access used. -/
def State.cacheLeaves (s : State) (tlb die t : Nat) (ls : List (Leaf × Use)) : State :=
  { ls.foldl (fun (s : State) l => s.cacheLeaf tlb die t l.2 l.1) s with free := s.free + 1 }

/-- No TLB and no walk cache holds an entry that covers the range. -/
def State.forgetRange (s : State) (t va len : Nat) : State :=
  { s with
    tlbs := s.tlbs.map fun m => (m.1, m.2.filter fun e => !keyCovers t va len e.1)
    tlb2 := s.tlb2.map fun m => (m.1, m.2.filter fun e => !keyCovers t va len e.1)
    walks := s.walks.map fun m => (m.1, m.2.filter fun e => !keyCovers t va len e.1) }

/-- A page of the n bytes at an address moves to another package: accesses to it are held (R341). -/
def Pkg.pageMoves (p : Pkg) (t : Nat) (a : Word) (n : Nat) : Bool :=
  p.migrants.any fun x => x.1 == t && (decide (x.2 = a.toNat / 65536 * 65536) || decide (x.2 = (a.toNat + n - 1) / 65536 * 65536))

/-! ### Accesses of several bytes -/

/-- The parts of an access by 64-byte lines: address, length, offset. -/
def splitLines (a : Word) (n : Nat) : List (Word × Nat × Nat) :=
  let first := min n (64 - a.toNat % 64)
  if first = n then [(a, n, 0)] else [(a, first, 0), (a + word first, n - first, first)]

/-- The result of the checks of a whole access: its parts, or the first byte that fails. -/
inductive Checked where
  | ok (ps : List Piece) (leaves : List Leaf)
  | fault (c : Cause) (a : Word)
  | absent (a : Word) (level : Nat) (spr : Bool) (at_ : Nat)
  deriving DecidableEq, Repr

/-- The first byte of a part that is not permitted: regions lie in 8-byte units, windows in 4 KiB. -/
def firstBad (view : Word → Chk) (a : Word) (n : Nat) : Option (Cause × Word) :=
  (List.range n).findSome? fun i =>
    match view (a + word i) with
    | .fault c => some (c, a + word i)
    | .ok _ _ => none
    | .absent _ _ _ => none

/-- The checks of each part, lower first (R27, R332). -/
def checkParts (view : Word → Chk) (u : Use) : List (Word × Nat × Nat) → Checked
  | [] => .ok [] []
  | (a, n, off) :: r =>
    match view a with
    | .fault c => .fault c a
    | .absent l sp at_ => .absent a l sp at_
    | .ok pa leaf =>
      let bad := if u.writes && decide (imageBase ≤ a.toNat) then firstBad view a n else none
      match bad with
      | some (c, b) => .fault c b
      | none =>
        match checkParts view u r with
        | .ok ps ls => .ok (⟨pa, n, off⟩ :: ps) (leaf.toList ++ ls)
        | .fault c b => .fault c b
        | .absent b l sp at_ => .absent b l sp at_

/-! ### Writes at a home -/

/-- A unit of memory after n bytes at offset o of it were overlaid by v. -/
def overlay (old o n v : Nat) : Nat :=
  old / 2 ^ (8 * (o + n)) * 2 ^ (8 * (o + n)) + v % 2 ^ (8 * n) * 2 ^ (8 * o) + old % 2 ^ (8 * o)

/-- The stores of the words of a stamp region that a write of n bytes covers. -/
def Pkg.storeRegionBytes (p : Pkg) (a n v : Nat) : Pkg :=
  let base := imageBase + 0xFF0000
  (List.range 9).foldl (fun p i =>
    let wa := a / 8 * 8 + 8 * i
    if a + n ≤ wa then p
    else
      let lo := max a wa
      let hi := min (a + n) (wa + 8)
      let new := overlay (readMem p.mem wa 8) (lo - wa) (hi - lo) (v / 2 ^ (8 * (lo - a)))
      let o := wa - base
      p.storeRegion (o / 0x2000) (o % 0x2000 / 32) (o % 32 / 8) (word new)) p

/-- The bits of the word at byte offset o of a task-table entry that a store changes: the others are RO and read 0 (R5, R298). -/
def entryMask (o : Nat) : Word :=
  match o / 8 with
  | 0 => 0xFFC0FFFFFFFFFFFE#64
  | 1 => 0xFFFFFFFFFFFFFC00#64
  | 2 => 0xFFFF01FF00000000#64
  | 3 => 0
  | _ => allOnes

/-- The bits of the word at byte offset o of a task record that a store changes (R5, R157). -/
def recordMask (o : Nat) : Word :=
  match o / 8 with
  | 0 => 0x1FFFFFFFFFFFFFFE#64
  | 1 => 0x0007FFFFFFFFFFFF#64
  | _ => allOnes

/-- The bits of the word at byte offset o of a drawer descriptor that are not reserved (R5, R149). -/
def drawerMask (o : Nat) : Word :=
  match o / 8 with
  | 0 => 0x80FF1FFF#64
  | 1 => 0x7FFC0#64
  | 2 => 0xFFFFFFFFFFFFF#64
  | _ => 0

/-- The value that a store of n bytes at an address leaves, by the masks of the 64-byte structure it falls in. -/
def maskBytes (mask : Nat → Word) (a v : Nat) : Nat → Nat
  | 0 => 0
  | n + 1 =>
    let byte := bits (mask (a % 64)) (8 * (a % 8)) 8
    (v % 256 &&& byte) + 256 * maskBytes mask (a + 1) (v / 256) n

/-- The value that a store leaves at an address: task tables and task records have RO bits. -/
def Pkg.storedValue (p : Pkg) (a n v : Nat) : Nat :=
  if shelfBase ≤ a then
    if a < imageBase ∧ 0x4000 ≤ (a - shelfBase) % 0x80000 ∧ (a - shelfBase) % 0x80000 < 0x8000 then maskBytes recordMask a v n else v
  else if p.inTable a then maskBytes entryMask a v n
  else v

/-- A write of n bytes performed at a home of this package: descriptors, stamp regions, task tables and task records take it as R149,
R245, R298 and R157 say, and a drawer disabled makes its readers ready (R151). -/
def Pkg.writeHome (p : Pkg) (now : Nat) (th : Option (Nat × Nat)) (a n v : Nat) : Pkg :=
  if imageBase + 0xFF0000 ≤ a then (p.note th a n a n).storeRegionBytes a n v
  else if shelfBase ≤ a ∧ a < imageBase ∧ 0x5F000 ≤ (a - shelfBase) % 0x80000 then
    let d := a / 64 * 64
    let old := readMem p.mem d 64
    let new := descriptorAfter old (overlay old (a - d) n v)
    let q := p.performAs th a n d 64 new
    if new / 2 ^ 31 % 2 = 0 then q.wakeReaders now d else q
  else p.perform th a n (p.storedValue a n v)

/-- The release buffer can accept n more bytes (R257). -/
def State.releaseRoom (s : State) (n : Nat) : Bool :=
  decide ((s.released.foldl (fun k h => k + h.bytes.length) 0) + n ≤ 2 ^ 20)

/-- The MSI-X vector that a thread's 4-byte store raises: vector v of its tenant at 0x1FFF_FFFF_0000 + 4v (R372, R375). -/
def State.vectorOf (s : State) (who : Actor) (a n : Nat) : Option Nat :=
  match who with
  | .thread t =>
    if s.tenantOf t < 8 ∧ n = 4 ∧ a % 4 = 0 ∧ 0x1FFFFFFF0000 ≤ a ∧ a < 0x1FFFFFFF0400 then some (256 * s.tenantOf t + (a - 0x1FFFFFFF0000) / 4)
    else none
  | .op _ => none
  | .msg _ => none
  | .hub => none

/-- A write performed at any home: a foreign one is performed when the release buffer accepts it (R257, R314). -/
def State.write (s : State) (who : Actor) (th : Option (Nat × Nat)) (cls : Nat) (stamp : Word) (a n v : Nat) : State :=
  if isForeign a then
    { s.updBy who (fun p => p.performForeign th a n) with
      released := s.released ++ [⟨a, byteList v n, cls, stamp, s.lwr, s.vectorOf who a n⟩] }
  else s.updBy who fun p => p.writeHome s.tick th a n v

/-! ### Page service (R337, R338) -/

/-- The physical address of the entry names a request already held. -/
def Pkg.reqFor (p : Pkg) (at_ : Nat) : Option PageReq := p.reqs.find? fun r => r.entry == at_

/-- The four words of a service request (R338). -/
def PageReq.words (r : PageReq) : List Word :=
  [word r.va,
   word (r.tenant + r.kind * 16 + r.level * 256 + (if r.spr then 1024 else 0) + r.count * 2 ^ 32),
   word r.entry, r.who]

/-- A requester joins the service request of a not-present entry, or makes a new one; the answer is its number. -/
def Pkg.request (p : Pkg) (t va kind level : Nat) (spr : Bool) (at_ : Nat) (who : Word) : Nat × Pkg :=
  match p.reqFor at_ with
  | some r => (r.id, { p with reqs := p.reqs.map fun q => if q.id = r.id then { q with count := q.count + 1 } else q })
  | none =>
    (p.reqId, { p with reqs := p.reqs ++ [⟨p.reqId, t, va, kind, level, spr, at_, who, 1⟩], reqId := p.reqId + 1 })

/-- The code of a use in a service request. -/
def Use.code : Use → Nat
  | .fetch => 0
  | .load => 1
  | .store => 2
  | .atomic => 2

/-- The ring of a tenant takes a request (R374): its sequence number, the entry at its place in the 256, vector 255. `note` is what the
answer needs. -/
def State.postService (s : State) (t func note : Nat) (ws : List Word) : State :=
  let q := s.pkg.svcSeq.get 0 t
  let at_ := ((s.pkg.desc t).map (·.svq)).getD 0 + 64 * (q % 256)
  { s.updBy .hub fun p =>
      { p with svcSeq := p.svcSeq.set 0 t ((q + 1) % 2 ^ 32), svcOpen := p.svcOpen ++ [(t, q, func, note)] } with
    outputs := s.outputs ++
      [.hostWrite at_ ((ws ++ [word (func + q * 2 ^ 32), 0, 0, 0]).flatMap fun w => byteList w.toNat 8), .interrupt (256 * t + 255)] }

/-- A request to the host in host-assisted mode (R374); while the ring's 256 entries are full it waits in the hub. -/
def State.service (s : State) (t func note : Nat) (ws : List Word) : State :=
  if (s.pkg.svcOpen.filter fun x => x.1 == t).length < 256 then s.postService t func note ws
  else s.updBy .hub fun p => { p with svcWait := p.svcWait ++ [(t, func, note, ws)] }

/-- Bit n of MODE: the host serves the function (R373). -/
def Pkg.assisted (p : Pkg) (t n : Nat) : Bool := ((p.desc t).map fun d => d.mode.getLsbD n).getD false

/-- A requester joins or makes the service request of an entry that is not present (R337); a new one of a tenant whose host is its
pager goes to the host. -/
def State.askPage (s : State) (who : Actor) (t va kind level : Nat) (spr : Bool) (at_ : Nat) (w : Word) : Nat × State :=
  let r := s.pkg.request t va kind level spr at_ w
  let s1 := s.updBy who fun p => (p.request t va kind level spr at_ w).2
  (r.1,
    if (s.pkg.reqFor at_).isNone && s.pkg.assisted t 0 then
      match r.2.reqFor at_ with
      | some q => s1.service t 0 q.id q.words
      | none => s1
    else s1)

/-- Thread n meets a page that is not present: it parks at its instruction, or double-faults while TF = 1 (R337, R349). -/
def State.notPresent (s : State) (n : Nat) (u : Use) (a : Word) (level : Nat) (spr : Bool) (at_ : Nat) : State :=
  let t := s.thr n
  if t.tf then s.trapFor n t .xlatNp t.pc a
  else
    let r := s.askPage (.thread n) (s.tenantOf n) a.toNat u.code level spr at_ t.pc
    r.2.setThr n
      { t with park := some (.page r.1), stall := none }

/-! ### Watchpoints (R387) -/

/-- The lowest byte of n bytes at a that a watchpoint matches for a use. -/
def watchHit (wp : Word) (u : Use) (a : Word) (n : Nat) : Option Word :=
  let lg := bits wp 56 5
  let on := match u with
    | .fetch => wp.getLsbD 61
    | .load => wp.getLsbD 63
    | .store => wp.getLsbD 62
    | .atomic => wp.getLsbD 63 || wp.getLsbD 62
  if !on || decide (lg < 3) || decide (16 < lg) then none
  else
    let lo := bits wp 0 48 / 2 ^ lg * 2 ^ lg
    let x := max lo a.toNat
    if x < lo + 2 ^ lg ∧ x < a.toNat + n then some (word x) else none

/-- A thread with S = 1 never matches; of two hits the lower byte is reported. -/
def Thread.watch (t : Thread) (u : Use) (a : Word) (n : Nat) : Option Word :=
  if t.sup then none
  else
    match watchHit t.wp0 u a n, watchHit t.wp1 u a n with
    | some x, some y => some (if x.toNat ≤ y.toNat then x else y)
    | some x, none => some x
    | none, r => r

/-! ### The checks of an instruction's access -/

/-- Set A and D of the leaves that accesses used (R333). -/
def Pkg.touchLeaves (p : Pkg) (ls : List (Leaf × Use)) : Pkg := ls.foldl (fun p l => p.touch l.1.at_ l.1.pte l.2) p

/-- Checks 2 to 4 of R131 for n bytes at a with the given alignment; then `k` with the parts of the access and the leaves used. An access
to a page that moves to another package waits (R341). -/
def State.rows (s : State) (u : Use) (a : Word) (n align : Nat) (k : List Piece → List Leaf → Out) : Out :=
  if a.toNat % align ≠ 0 then s.trap .align a
  else if s.pkg.pageMoves (s.tenantOf s.cur) a n then s.stallWith .moving
  else
    match checkParts (s.view s.cur s.me.sup u) u (splitLines a n) with
    | .fault c b => s.trap c b
    | .absent b l sp at_ => .next (s.notPresent s.cur u b l sp at_)
    | .ok ps ls => k ps ls

/-- The home of a page counts a use of it while MIG is set, with the times of the last 100 µs (R341). -/
def Pkg.countUses (p : Pkg) (time t : Nat) (ls : List (Leaf × Use)) : Pkg :=
  let mine := ls.filter fun l => l.1.pte.getLsbD 54 && !isForeign (pteAddr l.1.pte)
  if mine.isEmpty then p
  else { p with migUses := (p.migUses.filter fun x => decide (time < x.2 + 800000)) ++ mine.map fun l => (pageKey t l.1.page, time) }

/-- The uses of a page that its home has counted within the last 100 µs. -/
def Pkg.usesOf (p : Pkg) (time key : Nat) : Nat := (p.migUses.filter fun x => x.1 == key && decide (time < x.2 + 800000)).length

/-- The leaves of an access used: A and D set, the use of a MIG page counted, the caches filled. -/
def State.useLeaves (s : State) (u : Use) (ls : List Leaf) : State :=
  let us := ls.map fun l => (l, u)
  if ls.isEmpty then s else (s.upd fun p => (p.touchLeaves us).countUses s.time (s.tenantOf s.cur) us).cacheLeaves (tlbOf s.cur) (dieOf s.cur) (s.tenantOf s.cur) us

/-- The watchpoints, after every check, with the A and D bits of the leaves set (R333, R387); then `k`. -/
def State.watched (s : State) (u : Use) (a : Word) (n : Nat) (ls : List Leaf) (k : State → Out) : Out :=
  let s' := s.useLeaves u ls
  match s.me.watch u a n with
  | some b => s'.trap .watch b
  | none => k s'

/-- Checks 2 to 4 of R131 and the watchpoints, for an access that has no further check. -/
def State.checked (s : State) (u : Use) (a : Word) (n align : Nat) (k : State → List Piece → Out) : Out :=
  s.rows u a n align fun ps ls => s.watched u a n ls fun s' => k s' ps

end Sys2Proof.Machine
end

