-- ==== Sys2Proof/Machine/Flags.lean ====
section
/-! DEFINITION. Floating-point formats, rounding and the five exception flags (R55-R65): exact dyadic arithmetic rounded once.
Flags are numbers: NV 16, DZ 8, OF 4, UF 2, NX 1, as ctl.tval reports them (R60). -/

namespace Sys2Proof.Machine

/-- A format: exponent field width, fraction width, bias (R55). -/
structure Fmt where
  ebits : Nat
  fbits : Nat
  bias : Nat
  deriving DecidableEq, Repr

/-- binary32. -/
def f32 : Fmt := ⟨8, 23, 127⟩
/-- binary16. -/
def f16 : Fmt := ⟨5, 10, 15⟩
/-- bfloat16. -/
def bf16 : Fmt := ⟨8, 7, 127⟩

/-- A floating-point value: a NaN with its signalling bit, an infinity, or (-1)^neg m 2^e. -/
inductive FVal where
  | nan (sig : Bool)
  | inf (neg : Bool)
  | fin (neg : Bool) (m : Nat) (e : Int)
  deriving DecidableEq, Repr

/-- The sign bit set or clear. -/
def Fmt.sign (F : Fmt) (neg : Bool) : Nat := if neg then 2 ^ (F.ebits + F.fbits) else 0

/-- The default NaN (R56). -/
def Fmt.dnan (F : Fmt) : Nat := (2 ^ F.ebits - 1) * 2 ^ F.fbits + 2 ^ (F.fbits - 1)

/-- An infinity. -/
def Fmt.infinity (F : Fmt) (neg : Bool) : Nat := F.sign neg + (2 ^ F.ebits - 1) * 2 ^ F.fbits

/-- The largest finite value. -/
def Fmt.largest (F : Fmt) (neg : Bool) : Nat := F.infinity neg - 1

/-- The value of a bit pattern (R55). -/
def Fmt.value (F : Fmt) (x : Nat) : FVal :=
  let frac := x % 2 ^ F.fbits
  let ex := x / 2 ^ F.fbits % 2 ^ F.ebits
  let neg := x / 2 ^ (F.ebits + F.fbits) % 2 == 1
  if ex = 2 ^ F.ebits - 1 then
    if frac = 0 then .inf neg else .nan (frac / 2 ^ (F.fbits - 1) == 0)
  else if ex = 0 then .fin neg frac (1 - (F.bias : Int) - F.fbits)
  else .fin neg (2 ^ F.fbits + frac) ((ex : Int) - F.bias - F.fbits)

/-- Drop n low bits of a magnitude in mode rm (R58): the kept part rounded, and whether anything was lost. -/
def dropBits (rm : Nat) (neg : Bool) (m n : Nat) : Nat × Bool :=
  let q := m / 2 ^ n
  let r := m % 2 ^ n
  let up :=
    match rm with
    | 0 => decide (2 ^ n < 2 * r) || (2 * r == 2 ^ n && q % 2 == 1 && r != 0)
    | 1 => false
    | 2 => neg && r != 0
    | _ => !neg && r != 0
  (if up then q + 1 else q, r != 0)

/-- A magnitude m 2^e to a multiple of 2^q, in units of 2^q. -/
def roundAt (rm : Nat) (neg : Bool) (m : Nat) (e q : Int) : Nat × Bool :=
  if q ≤ e then (m * 2 ^ (e - q).toNat, false) else dropBits rm neg m (q - e).toNat

/-- The result of an overflow in mode rm (R63). -/
def Fmt.overflow (F : Fmt) (rm : Nat) (neg : Bool) : Nat :=
  match rm with
  | 0 => F.infinity neg
  | 1 => F.largest neg
  | 2 => if neg then F.infinity true else F.largest false
  | _ => if neg then F.largest true else F.infinity false

/-- rnd(m 2^e, rm) into a format with its flags; tininess is detected after rounding (R57). -/
def Fmt.round (F : Fmt) (rm : Nat) (neg : Bool) (m : Nat) (e : Int) : Nat × Nat :=
  if m = 0 then (F.sign neg, 0)
  else
    let p : Int := F.fbits
    let top : Int := e + m.log2
    let emin : Int := 1 - (F.bias : Int)
    let q := max (top - p) (emin - p)
    let (r, inexact) := roundAt rm neg m e q
    let (r, q) := if r = 2 ^ (F.fbits + 1) then (2 ^ F.fbits, q + 1) else (r, q)
    let free := (roundAt rm neg m e (top - p)).1
    let tiny := decide (top < emin) && !(top == emin - 1 && free == 2 ^ (F.fbits + 1))
    if 2 ^ F.fbits ≤ r ∧ (F.bias : Int) < q + p then (F.overflow rm neg, 5)
    else
      let bits := if r < 2 ^ F.fbits then r else (q + p + F.bias).toNat * 2 ^ F.fbits + (r - 2 ^ F.fbits)
      (F.sign neg + bits, (if inexact then 1 else 0) + (if tiny && inexact then 2 else 0))

/-- A signed dyadic number n 2^e rounded; an exact zero takes the sign of R61's IEEE rule for sums: negative only in RDN. -/
def Fmt.roundInt (F : Fmt) (rm : Nat) (n : Int) (e : Int) : Nat × Nat :=
  if n = 0 then (F.sign (rm == 2), 0) else F.round rm (decide (n < 0)) n.natAbs e

/-- The signed mantissa. -/
def signed (neg : Bool) (m : Nat) : Int := if neg then -(m : Int) else m

/-- The flags of signalling NaN operands. -/
def FVal.sig : FVal → Nat
  | .nan true => 16
  | .nan false => 0
  | .inf _ => 0
  | .fin _ _ _ => 0

/-- The value is a NaN. -/
def FVal.isNan : FVal → Bool
  | .nan _ => true
  | .inf _ => false
  | .fin _ _ _ => false

/-- The sum of two values (IEEE 754-2019, R56). -/
def Fmt.add (F : Fmt) (rm : Nat) (x y : FVal) : Nat × Nat :=
  match x, y with
  | .nan a, y => (F.dnan, FVal.sig (.nan a) ||| y.sig)
  | x, .nan b => (F.dnan, x.sig ||| FVal.sig (.nan b))
  | .inf a, .inf b => if a = b then (F.infinity a, 0) else (F.dnan, 16)
  | .inf a, .fin _ _ _ => (F.infinity a, 0)
  | .fin _ _ _, .inf b => (F.infinity b, 0)
  | .fin a m e, .fin b n g =>
    if m = 0 ∧ n = 0 then (F.sign (if a = b then a else rm == 2), 0)
    else
      let lo := min e g
      F.roundInt rm (signed a m * 2 ^ (e - lo).toNat + signed b n * 2 ^ (g - lo).toNat) lo

/-- The negation of a value. -/
def FVal.neg : FVal → FVal
  | .nan a => .nan a
  | .inf a => .inf !a
  | .fin a m e => .fin (!a) m e

/-- The exact product with the flags of an invalid one; `none` where the product is a NaN. -/
def FVal.mul (x y : FVal) : Option FVal × Nat :=
  match x, y with
  | .nan a, y => (none, FVal.sig (.nan a) ||| y.sig)
  | x, .nan b => (none, x.sig ||| FVal.sig (.nan b))
  | .inf a, .inf b => (some (.inf (a != b)), 0)
  | .inf a, .fin b n _ => if n = 0 then (none, 16) else (some (.inf (a != b)), 0)
  | .fin a m _, .inf b => if m = 0 then (none, 16) else (some (.inf (a != b)), 0)
  | .fin a m e, .fin b n g => (some (.fin (a != b) (m * n) (e + g)), 0)

/-- A value of some format rounded into F. -/
def Fmt.ofVal (F : Fmt) (rm : Nat) (x : FVal) : Nat × Nat :=
  match x with
  | .nan a => (F.dnan, FVal.sig (.nan a))
  | .inf a => (F.infinity a, 0)
  | .fin a m e => F.round rm a m e

/-- The product rounded. -/
def Fmt.mul (F : Fmt) (rm : Nat) (x y : FVal) : Nat × Nat :=
  match x.mul y with
  | (none, fl) => (F.dnan, fl)
  | (some p, _) => F.ofVal rm p

/-- The fused sum of a product and an addend, rounded once (R62, R111). -/
def Fmt.fma (F : Fmt) (rm : Nat) (negate : Bool) (x y c : FVal) : Nat × Nat :=
  match x.mul y with
  | (none, fl) => (F.dnan, fl ||| c.sig)
  | (some p, _) => F.add rm (if negate then p.neg else p) c

/-- The quotient rounded (R109). -/
def Fmt.div (F : Fmt) (rm : Nat) (x y : FVal) : Nat × Nat :=
  match x, y with
  | .nan a, y => (F.dnan, FVal.sig (.nan a) ||| y.sig)
  | x, .nan b => (F.dnan, x.sig ||| FVal.sig (.nan b))
  | .inf _, .inf _ => (F.dnan, 16)
  | .inf a, .fin b _ _ => (F.infinity (a != b), 0)
  | .fin a _ _, .inf b => (F.sign (a != b), 0)
  | .fin a m e, .fin b n g =>
    if n = 0 then (if m = 0 then (F.dnan, 16) else (F.infinity (a != b), 8))
    else
      let k := F.fbits + 4 + n.log2
      let q := m * 2 ^ k / n
      F.round rm (a != b) (2 * q + (if m * 2 ^ k % n = 0 then 0 else 1)) (e - g - k - 1)

/-- The integer square root, deciding n bits from the top. -/
def isqrt (x : Nat) (r : Nat) : Nat → Nat
  | 0 => r
  | n + 1 => isqrt x (if (r + 2 ^ n) * (r + 2 ^ n) ≤ x then r + 2 ^ n else r) n

/-- The square root rounded (R109). -/
def Fmt.sqrt (F : Fmt) (rm : Nat) (x : FVal) : Nat × Nat :=
  match x with
  | .nan a => (F.dnan, FVal.sig (.nan a))
  | .inf a => if a then (F.dnan, 16) else (F.infinity false, 0)
  | .fin a m e =>
    if m = 0 then (F.sign a, 0)
    else if a then (F.dnan, 16)
    else
      let (m, e) := if e % 2 = 0 then (m, e) else (2 * m, e - 1)
      let k := F.fbits + 3
      let big := m * 4 ^ k
      let r := isqrt big 0 (big.log2 / 2 + 1)
      F.round rm false (2 * r + (if r * r = big then 0 else 1)) (e / 2 - k - 1)

/-- The order of two values that are no NaN, -0 below +0 when `zeros`. -/
def FVal.lt (zeros : Bool) (x y : FVal) : Bool :=
  match x, y with
  | .nan _, _ => false
  | _, .nan _ => false
  | .inf a, .inf b => a && !b
  | .inf a, .fin _ _ _ => a
  | .fin _ _ _, .inf b => !b
  | .fin a m e, .fin b n g =>
    if m = 0 ∧ n = 0 then zeros && a && !b
    else
      let lo := min e g
      decide (signed a m * 2 ^ (e - lo).toNat < signed b n * 2 ^ (g - lo).toNat)

/-- fmin and fmax (R110): `less` says whether the lesser is wanted. -/
def Fmt.minmax (F : Fmt) (less : Bool) (x y : Nat) : Nat × Nat :=
  let a := F.value x
  let b := F.value y
  let fl := a.sig ||| b.sig
  if a.isNan && b.isNan then (F.dnan, fl)
  else if a.isNan then (y, fl)
  else if b.isNan then (x, fl)
  else if less then (if FVal.lt true b a then y else x, 0)
  else (if FVal.lt true a b then y else x, 0)

/-- A value rounded to an integer in mode rm: magnitude and whether it changed. -/
def toInteger (rm : Nat) (neg : Bool) (m : Nat) (e : Int) : Nat × Bool := roundAt rm neg m e 0

/-- fround, roundToIntegralExact (R109). -/
def Fmt.integral (F : Fmt) (rm : Nat) (x : Nat) : Nat × Nat :=
  match F.value x with
  | .nan a => (F.dnan, FVal.sig (.nan a))
  | .inf a => (F.infinity a, 0)
  | .fin a m e =>
    if 0 ≤ e then (x, 0)
    else
      let (r, ch) := toInteger rm a m e
      ((F.round 0 a r 0).1, if ch then 1 else 0)

/-- A conversion to an integer type of range lo to hi (R64). -/
def toInt (rm : Nat) (lo hi : Int) (x : FVal) : Int × Nat :=
  match x with
  | .nan _ => (0, 16)
  | .inf a => (if a then lo else hi, 16)
  | .fin a m e =>
    let (r, ch) := toInteger rm a m e
    let v := signed a r
    if hi < v then (hi, 16) else if v < lo then (lo, 16) else (v, if ch then 1 else 0)

/-- A conversion from an integer (R65). -/
def Fmt.ofInt (F : Fmt) (rm : Nat) (v : Int) : Nat × Nat :=
  if v = 0 then (0, 0) else F.round rm (decide (v < 0)) v.natAbs 0

/-- rne32(old + x) of an atomic or reducing `fadd`, NaN results default (R148, R196). -/
def fadd32 (x y : Nat) : Nat × Nat := f32.add 0 (f32.value x) (f32.value y)

/-- rnei(n 2^e): the nearest integer, ties to even, and whether it differs (R72). -/
def rnei (n : Int) (e : Int) : Int × Bool :=
  let (r, ch) := roundAt 0 (decide (n < 0)) n.natAbs e 0
  (signed (decide (n < 0)) r, ch)

/-! ### The q4 family (R67-R70) -/

/-- The magnitudes of a sign-magnitude type by index (R68): 1 E2M1, 2 POW2, 3 HYB. -/
def q4Mags : Nat → List Nat
  | 1 => [0, 1, 2, 3, 4, 6, 8, 12]
  | 2 => [0, 1, 2, 4, 8, 16, 32, 64]
  | _ => [0, 1, 2, 3, 4, 6, 8, 16]

/-- The decoded integer of a code (R68). -/
def q4Decode (ty code : Nat) : Int :=
  if ty = 0 then (if code < 8 then code else (code : Int) - 16)
  else signed (decide (8 ≤ code)) ((q4Mags ty).getD (code % 8) 0)

/-- The nearest entry of a rising list to m 2^e, with its index; a tie takes the even index. -/
def nearest (m : Nat) (e : Int) (mags : List Nat) : Nat :=
  let lo := min e 0
  let x : Int := m * 2 ^ (e - lo).toNat
  let dist := fun (v : Nat) => ((v : Int) * 2 ^ (-lo).toNat - x).natAbs
  (mags.zipIdx.foldl (fun (best : Nat × Nat) (p : Nat × Nat) =>
    if dist p.1 < best.1 ∨ (dist p.1 = best.1 ∧ p.2 % 2 = 0) then (dist p.1, p.2) else best)
    (dist 0, 0)).2

/-- Encode a value under a scale byte (R70): the code and its flags. -/
def q4Encode (scale : Nat) (x : FVal) : Nat × Nat :=
  let ty := scale / 64 % 4
  let e : Int := scale % 64
  let limit := fun (neg : Bool) => if ty = 0 then (if neg then 8 else 7) else (if neg then 15 else 7)
  match x with
  | .nan _ => (0, 16)
  | .inf a => (limit a, 5)
  | .fin a m g =>
    let y : Int := g + 32 - e
    if ty = 0 then
      let lo := min y 0
      let num := signed a m * 2 ^ (y - lo).toNat
      let unit : Int := 2 ^ (-lo).toNat
      if 7 * unit < num then (7, 5)
      else if num < -8 * unit then (8, 5)
      else
        let (v, ch) := rnei (signed a m) y
        ((v % 16).toNat, if ch then 1 else 0)
    else
      let mags := q4Mags ty
      let big := mags.getD 7 0
      let lo := min y 0
      let mag : Int := m * 2 ^ (y - lo).toNat
      if (big : Int) * 2 ^ (-lo).toNat < mag then (limit a, 5)
      else
        let i := nearest m y mags
        let exact := ((mags.getD i 0 : Nat) : Int) * 2 ^ (-lo).toNat == mag
        (if i = 0 then 0 else i + (if a then 8 else 0), if exact then 0 else 1)

end Sys2Proof.Machine
end

