-- ==== Sys2Proof/Machine/Vector.lean ====
section
/-! DEFINITION. The operand forms of vector instructions: lanes and masks (R103-R106), prefixes (R107), FP completion (R60), and
the float families of majors 0x12-0x16 (R108-R114). -/

namespace Sys2Proof.Machine

/-! ### Lanes -/

/-- A list of w-bit values packed from bit 0 up. -/
def pack (w : Nat) : List Nat → Nat
  | [] => 0
  | x :: r => x % 2 ^ w + 2 ^ w * pack w r

/-- A vector register from its elements of w bits. -/
def vecOf (w : Nat) (l : List Nat) : Vec := BitVec.ofNat 512 (pack w l)

/-- Element i of w bits. -/
def elem (w : Nat) (v : Vec) (i : Nat) : Nat := v.toNat / 2 ^ (w * i) % 2 ^ w

/-- 0, 1, ..., 15. -/
def lanes : List Nat := List.range 16

/-- A w-bit number read as two's complement. -/
def toSigned (w x : Nat) : Int := if x < 2 ^ (w - 1) then x else (x : Int) - 2 ^ w

/-- A two's complement number as w bits. -/
def ofSigned (w : Nat) (x : Int) : Nat := (x % 2 ^ w).toNat

end Sys2Proof.Machine

namespace Sys2Proof

open Sys2Proof.Machine

/-! ### Format V operands -/

/-- The register that a vector source reads (R34). -/
def VF.srcRegs (f : VF) : List Reg :=
  match f.src with
  | .reg => [.v f.b.toNat]
  | .bank => []
  | .lit _ => []

/-- The registers of a form with a b operand. -/
def VF.uses3 (f : VF) : List Reg := [.v f.d.toNat, .v f.a.toNat, .k f.k.toNat] ++ f.srcRegs

/-- The registers of a form with no b operand. -/
def VF.uses2 (f : VF) : List Reg := [.v f.d.toNat, .v f.a.toNat, .k f.k.toNat]

/-- The length in bytes (R30). -/
def VF.len (f : VF) : Nat := if f.isLit then 8 else 4

/-- Lane j of the b operand (R105). -/
def VF.bLane (f : VF) (t : Thread) (j : Nat) : Nat :=
  match f.src with
  | .reg => elem 32 (t.rv f.b.toNat) j
  | .bank => (t.rcb f.b.toNat).toNat
  | .lit l => l.toNat

/-- Element i of the b operand in a 16-bit format (R105). -/
def VF.bElem (f : VF) (t : Thread) (i : Nat) : Nat :=
  match f.src with
  | .reg => elem 16 (t.rv f.b.toNat) i
  | .bank => (t.rcb f.b.toNat).toNat / 2 ^ (16 * (i % 2)) % 2 ^ 16
  | .lit l => l.toNat % 2 ^ 16

/-- A b source that a form with a b operand takes a fallback on: bits 14:10 under a literal (R51). -/
def VF.srcWarn (f : VF) : Bool := f.isLit && f.b != 0

/-- The same in a 16-bit format, where bits 31:16 of the literal must be zero too (R51). -/
def VF.srcWarn16 (f : VF) : Bool :=
  match f.src with
  | .reg => false
  | .bank => false
  | .lit l => f.b != 0 || decide (2 ^ 16 ≤ l.toNat)

/-- The fallback of a form with no b operand: a constant-bank or literal source is ignored (R51, R105). -/
def VF.noB (f : VF) : Bool :=
  match f.src with
  | .reg => false
  | .bank => true
  | .lit _ => true

/-- Lane j is active (R104). -/
def VF.active (f : VF) (t : Thread) (j : Nat) : Bool := (t.rk f.k.toNat).getLsbD j

end Sys2Proof

namespace Sys2Proof.Machine

/-! ### The prefix on a vector instruction (R107) -/

/-- The SAT field of a pending prefix. -/
def Thread.sat (t : Thread) : Bool := t.pp && t.pfx.getLsbD 3

/-- The PLANE field of a pending prefix. -/
def Thread.plane (t : Thread) : Nat := if t.pp then bits t.pfx 1 2 else 0

/-- A pending prefix has a field that falls back: formats other than the defaults, ACC, SAT or PLANE where not used. -/
def Thread.pfxWarn (t : Thread) (a b : Nat) (sat plane : Bool) : Bool :=
  t.pp && (bits t.pfx 8 3 != a || bits t.pfx 5 3 != b || t.pfx.getLsbD 4 || (t.pfx.getLsbD 3 && !sat) ||
    (bits t.pfx 1 2 != 0 && !plane))

/-! ### Completion of a floating-point instruction (R59, R60) -/

/-- The flags of all lanes. -/
def orFlags (l : List Nat) : Nat := l.foldl (fun x y => x ||| y) 0

/-- One bit for each lane that raised NV, DZ or OF. -/
def trapLanes (l : List Nat) : Nat := pack 1 (l.map fun x => if x &&& 28 = 0 then 0 else 1)

/-- ctl.tval of an FP trap. -/
def fpTval (l : List Nat) : Word := word (orFlags l + trapLanes l * 2 ^ 16)

/-- The lanes' flags trap under FPTE. -/
def Thread.fpTraps (t : Thread) (l : List Nat) : Bool := t.fpte && trapLanes l != 0

/-- Flags are raised; a trap FP leaves every destination unchanged; otherwise the results are written. -/
def fpComplete (s : State) (t : Thread) (fl : List Nat) (write : Thread → Thread) (len : Nat) (w : Bool) : Out :=
  if t.fpTraps fl then .next (s.trapFor s.cur (t.raise (orFlags fl)) .fp t.pc (fpTval fl))
  else s.retirePrefixed (write (t.raise (orFlags fl))) len w

/-- A 32-bit lane operation with flags. -/
def lanes32 (f : VF) (t : Thread) (op : Nat → Nat × Nat) : List (Nat × Nat) :=
  lanes.map fun j => if f.active t j then op j else (elem 32 (t.rv f.d.toNat) j, 0)

/-- A binary32 instruction with a b operand: `op rm a b d`. -/
def fop3 (f : VF) (op : Nat → Nat → Nat → Nat → Nat × Nat) (s : State) : Out :=
  s.issue f.uses3 fun t =>
    let r := lanes32 f t fun j =>
      op t.rm (elem 32 (t.rv f.a.toNat) j) (f.bLane t j) (elem 32 (t.rv f.d.toNat) j)
    fpComplete s t (r.map (·.2)) (fun t => t.wv f.d.toNat (vecOf 32 (r.map (·.1)))) f.len
      (t.pfxWarn 0 0 false false || f.srcWarn)

/-- A unary binary32 instruction: bits 14:10 unused. -/
def fop2 (f : VF) (a b : Nat) (op : Nat → Nat → Nat × Nat) (s : State) : Out :=
  s.issue f.uses2 fun t =>
    let r := lanes32 f t fun j => op t.rm (elem 32 (t.rv f.a.toNat) j)
    fpComplete s t (r.map (·.2)) (fun t => t.wv f.d.toNat (vecOf 32 (r.map (·.1)))) f.len
      (t.pfxWarn a b false false || f.noB || f.b != 0)

/-- A 16-bit float instruction (R113): `op F rm a b d` on each element. -/
def fop16 (f : VF) (bf : Bool) (op : Fmt → Nat → Nat → Nat → Nat → Nat × Nat) (s : State) : Out :=
  s.issue f.uses3 fun t =>
    let F := if bf then bf16 else f16
    let code := if bf then 1 else 2
    let r := (List.range 32).map fun i =>
      if f.active t (i / 2) then op F t.rm (elem 16 (t.rv f.a.toNat) i) (f.bElem t i) (elem 16 (t.rv f.d.toNat) i)
      else (elem 16 (t.rv f.d.toNat) i, 0)
    let fl := lanes.map fun j => (r.getD (2 * j) (0, 0)).2 ||| (r.getD (2 * j + 1) (0, 0)).2
    fpComplete s t fl (fun t => t.wv f.d.toNat (vecOf 16 (r.map (·.1)))) f.len
      (t.pfxWarn code code false false || f.srcWarn16)

/-! ### Operations on bit patterns -/

/-- rnd(a + b). -/
def Fmt.addBits (F : Fmt) (rm x y : Nat) : Nat × Nat := F.add rm (F.value x) (F.value y)
/-- rnd(a - b). -/
def Fmt.subBits (F : Fmt) (rm x y : Nat) : Nat × Nat := F.add rm (F.value x) (F.value y).neg
/-- rnd(a × b). -/
def Fmt.mulBits (F : Fmt) (rm x y : Nat) : Nat × Nat := F.mul rm (F.value x) (F.value y)
/-- rnd(±(a × b) ± c). -/
def Fmt.fmaBits (F : Fmt) (rm : Nat) (np nc : Bool) (x y c : Nat) : Nat × Nat :=
  F.fma rm np (F.value x) (F.value y) (if nc then (F.value c).neg else F.value c)
/-- fabs, fneg and fsgn: a NaN gives the default NaN and no flag (R110). -/
def Fmt.withSign (F : Fmt) (x sg : Nat) : Nat × Nat :=
  if (F.value x).isNan then (F.dnan, 0) else (x % 2 ^ (F.ebits + F.fbits) + sg * 2 ^ (F.ebits + F.fbits), 0)

/-! ### Major 0x12 (R108-R110) -/

/-- fadd. -/
def execFadd (f : VF) (s : State) : Out := fop3 f (fun rm a b _ => f32.addBits rm a b) s
/-- fsub. -/
def execFsub (f : VF) (s : State) : Out := fop3 f (fun rm a b _ => f32.subBits rm a b) s
/-- fmul. -/
def execFmul (f : VF) (s : State) : Out := fop3 f (fun rm a b _ => f32.mulBits rm a b) s
/-- fmin. -/
def execFmin (f : VF) (s : State) : Out := fop3 f (fun _ a b _ => f32.minmax true a b) s
/-- fmax. -/
def execFmax (f : VF) (s : State) : Out := fop3 f (fun _ a b _ => f32.minmax false a b) s
/-- fsgn. -/
def execFsgn (f : VF) (s : State) : Out := fop3 f (fun _ a b _ => f32.withSign a (b / 2 ^ 31)) s
/-- fabs. -/
def execFabs (f : VF) (s : State) : Out := fop2 f 0 0 (fun _ a => f32.withSign a 0) s
/-- fneg. -/
def execFneg (f : VF) (s : State) : Out := fop2 f 0 0 (fun _ a => f32.withSign a (1 - a / 2 ^ 31)) s
/-- fround. -/
def execFround (f : VF) (s : State) : Out := fop2 f 0 0 (fun rm a => f32.integral rm a) s

/-- An interrupt or a pre-emption would be taken at a progress point now (R108, R347, R352). -/
def Thread.stopDueNow (t : Thread) : Bool := !t.sup && (t.irqNow || t.preemptDue)

/-- The last group or lane that the present instruction does in this turn, where something stops it part-way: the agenda, or in replay
the STOP entry that names its progress (R262). -/
def State.lastPart (s : State) : Option Nat :=
  s.upTo.or (if s.replaying then (s.nextEntry s.cur).bind fun e =>
    if e.kind = 0x08 ∧ e.val = s.me.pc ∧ 0 < e.arg then some (e.arg - 1) else none else none)

/-- The groups of a long form from group g on (R108): FP trap inside a group, stop between groups, or completion. -/
def longForm (s : State) (f : VF) (op : Nat → Nat → Nat × Nat) (w : Bool) : Nat → Nat → Thread → Out
  | 0, _, t => s.retirePrefixed t f.len w
  | n + 1, g, t =>
    let r := lanes.map fun j => if j / 4 = g && f.active t j then op t.rm j else (elem 32 (t.rv f.d.toNat) j, 0)
    let fl := r.map (·.2)
    if t.fpTraps fl then
      .next (s.trapFor s.cur ({ t.raise (orFlags fl) with prog := word g }) .fp t.pc (fpTval fl))
    else
      let t' := (t.raise (orFlags fl)).wv f.d.toNat (vecOf 32 (r.map (·.1)))
      if n ≠ 0 && (t.stopDueNow || (s.lastPart.map fun x => decide (x ≤ g)).getD false) then
        .next (s.commit s.cur { t' with prog := word (g + 1), stall := none })
      else longForm s f op w n (g + 1) t'

/-- fdiv (R108, R109): every group reads the sources as the instruction's restart finds them in its own lanes. -/
def execFdiv (f : VF) (s : State) : Out :=
  s.issue f.uses3 fun t =>
    let g := bits t.prog 0 2
    longForm s f (fun rm j => f32.div rm (f32.value (elem 32 (t.rv f.a.toNat) j)) (f32.value (f.bLane t j)))
      (t.pfxWarn 0 0 false false || f.srcWarn) (4 - g) g t

/-- fsqrt (R108, R109). -/
def execFsqrt (f : VF) (s : State) : Out :=
  s.issue f.uses2 fun t =>
    let g := bits t.prog 0 2
    longForm s f (fun rm j => f32.sqrt rm (f32.value (elem 32 (t.rv f.a.toNat) j)))
      (t.pfxWarn 0 0 false false || f.noB || f.b != 0) (4 - g) g t

/-! ### Majors 0x13 and 0x16 (R111, R112) -/

/-- fmac: a × b + d. -/
def execFmac (f : VF) (s : State) : Out := fop3 f (fun rm a b d => f32.fmaBits rm false false a b d) s
/-- fmsc: a × b - d. -/
def execFmsc (f : VF) (s : State) : Out := fop3 f (fun rm a b d => f32.fmaBits rm false true a b d) s
/-- fnmac: -(a × b) + d. -/
def execFnmac (f : VF) (s : State) : Out := fop3 f (fun rm a b d => f32.fmaBits rm true false a b d) s
/-- fnmsc: -(a × b) - d. -/
def execFnmsc (f : VF) (s : State) : Out := fop3 f (fun rm a b d => f32.fmaBits rm true true a b d) s
/-- fmah: d × a + b. -/
def execFmah (f : VF) (s : State) : Out := fop3 f (fun rm a b d => f32.fmaBits rm false false d a b) s
/-- fmah with a literal addend. -/
def execFmahLit (d a b : BitVec 5) (k : BitVec 3) (l : Word32) (s : State) : Out :=
  fop3 ⟨d, a, b, k, .lit l⟩ (fun rm x y z => f32.fmaBits rm false false z x y) s
/-- fmsh: d × a - b. -/
def execFmsh (f : VF) (s : State) : Out := fop3 f (fun rm a b d => f32.fmaBits rm false true d a b) s
/-- fnmah: -(d × a) + b. -/
def execFnmah (f : VF) (s : State) : Out := fop3 f (fun rm a b d => f32.fmaBits rm true false d a b) s
/-- fnmsh: -(d × a) - b. -/
def execFnmsh (f : VF) (s : State) : Out := fop3 f (fun rm a b d => f32.fmaBits rm true true d a b) s

/-- The binary32 of a 20-bit immediate (R36). -/
def fimm (i : BitVec 20) : Nat := i.toNat * 2 ^ 12

/-- fmah with an immediate addend (R112): the multiplicand is the other register of the pair; it accepts no prefix (R107). -/
def execFmahImm (d : BitVec 5) (i : BitVec 20) (s : State) : Out :=
  let a := d.toNat ^^^ 1
  s.issue [.v d.toNat, .v a] fun t =>
    let r := lanes.map fun j => f32.fmaBits t.rm false false (elem 32 (t.rv d.toNat) j) (elem 32 (t.rv a) j) (fimm i)
    fpComplete s t (r.map (·.2)) (fun t => t.wv d.toNat (vecOf 32 (r.map (·.1)))) 4 t.pp

/-- vmov of an immediate to all lanes (R114). -/
def execVmovImm (d : BitVec 5) (i : BitVec 20) (s : State) : Out :=
  s.issue [.v d.toNat] fun t => s.retire (t.wv d.toNat (vecOf 32 (lanes.map fun _ => fimm i))) 4 false

/-! ### Major 0x14 (R113) -/

/-- fadd. -/
def execFadd16 (f : VF) (bf : Bool) (s : State) : Out := fop16 f bf (fun F rm a b _ => F.addBits rm a b) s
/-- fsub. -/
def execFsub16 (f : VF) (bf : Bool) (s : State) : Out := fop16 f bf (fun F rm a b _ => F.subBits rm a b) s
/-- fmul. -/
def execFmul16 (f : VF) (bf : Bool) (s : State) : Out := fop16 f bf (fun F rm a b _ => F.mulBits rm a b) s
/-- fmin. -/
def execFmin16 (f : VF) (bf : Bool) (s : State) : Out := fop16 f bf (fun F _ a b _ => F.minmax true a b) s
/-- fmax. -/
def execFmax16 (f : VF) (bf : Bool) (s : State) : Out := fop16 f bf (fun F _ a b _ => F.minmax false a b) s
/-- fmac. -/
def execFmac16 (f : VF) (bf : Bool) (s : State) : Out := fop16 f bf (fun F rm a b d => F.fmaBits rm false false a b d) s
/-- fnmac. -/
def execFnmac16 (f : VF) (bf : Bool) (s : State) : Out := fop16 f bf (fun F rm a b d => F.fmaBits rm true false a b d) s
/-- fmah. -/
def execFmah16 (f : VF) (bf : Bool) (s : State) : Out := fop16 f bf (fun F rm a b d => F.fmaBits rm false false d a b) s

end Sys2Proof.Machine
end

