-- ==== Sys2Proof/Machine/Access.lean ====
section
/-! DEFINITION. Loads, stores, stamp-checked loads, gathers, scatters and atomics (R130-R148), what they do at their home (R134,
R135, R314-R320) and the replies that end them (R132, R142). -/

namespace Sys2Proof.Machine

/-! ### Issue -/

/-- The rcinv barrier of a line for a core: the writes performed before the last invalidate (R154). -/
def State.barrier (s : State) (core line : Nat) : Nat :=
  max (s.inval.get 0 core) (s.inval.get 0 ((line + 1) * 4096 + core))

/-- An access of the running thread with the given parts. -/
def State.access (s : State) (ps : List Piece) (code : Nat) : Access where
  id := s.nextId
  thread := s.cur
  kind := .home
  todo := ps
  acc := []
  dst := none
  ext := .zext 8
  wreg := 0
  wait := none
  value := 0
  wit := 0
  refused := false
  replied := false
  gs := none
  stamp := s.me.ts
  bars := ps.map fun p => (p.addr / 64, s.barrier (coreOf s.cur) (p.addr / 64))
  since := s.pkg.histN
  code := code
  cls := s.me.cls

/-- The read-cache lines of DRAM pieces are invalid in a core from now on (R141, R154). -/
def State.dropLines (s : State) (core : Nat) (ps : List Piece) : State :=
  { s with inval := ps.foldl (fun (m : Store Nat) p =>
      if p.addr < dramEnd then m.set 0 ((p.addr / 64 + 1) * 4096 + core) s.pkg.histN else m) s.inval }

/-- The units in which a part is read or written (R133, R315): 4-byte lanes of a 64-byte access that is not 64-aligned, else the part
itself. -/
def unitsOf (e : Ext) (p : Piece) : List Piece :=
  match e with
  | .vec => if p.len = 64 then [p] else (List.range (p.len / 4)).map fun i => ⟨p.addr + 4 * i, 4, p.off + 4 * i⟩
  | .lanes _ => [p]
  | .sext _ => [p]
  | .zext _ => [p]

/-- What a load sends to the homes: each unit on its own, but a part at a foreign home or in the image SRAM whole (R243, R262). -/
def loadPieces (e : Ext) (ps : List Piece) : List Piece :=
  ps.flatMap fun p => if isForeign p.addr || decide (imageBase ≤ p.addr) then [p] else unitsOf e p

/-- The access leaves the thread. -/
def State.send (s : State) (a : Access) : State := { s with flight := s.flight ++ [a], nextId := s.nextId + 1 }

/-- A load of n bytes at g[base] + off into dst (R140, R143): plain, or read at the home once w[wn] is satisfied. -/
def loadForm (plain : Bool) (wn base : Nat) (off : Word) (n : Nat) (dst : Reg) (ext : Ext) (code len : Nat) (w : Bool)
    (s : State) : Out :=
  s.issue [.g base, dst, .w wn] fun t =>
    if t.ol = 63 then s.stallWith .counter
    else if !validWit (t.rw wn) then s.trap .witness (t.rw wn)
    else
      s.checked .load (t.rg base + off) n (if n = 64 then 4 else n) fun s' ps =>
        let a := { s'.access (loadPieces ext ps) code with
          kind := if plain then .plain (s'.nodeV s'.cur) else .home
          dst := some dst
          ext := ext
          wait := if plain then none else some (t.rw wn) }
        (s'.send a).retire ({ t with ol := t.ol + 1 }.mark [dst]) len w

/-- A store of the n low bytes of a register at g[base] + off with its witness to w[wn] (R141); its lines leave the core's read
cache. -/
def storeForm (src : Reg) (data : Thread → Nat) (wn base : Nat) (off : Word) (n len : Nat) (s : State) : Out :=
  s.issue [.g base, src, .w wn] fun t =>
    if t.os = 63 then s.stallWith .counter
    else
      s.checked .store (t.rg base + off) n (if n = 64 then 4 else n) fun s' ps =>
        let a := { s'.access ps 0 with
          kind := .store (data t % 2 ^ (8 * n))
          ext := if n = 64 then .vec else .zext n
          wreg := wn }
        ((s'.dropLines (coreOf s'.cur) ps).send a).retire ({ t with os := t.os + 1 }.mark [.w wn]) len false

/-- The scaled offset of an M-format access (R36). -/
def offM (o : BitVec 6) (n : Nat) : Word := o.signExtend 64 * word n

/-- The size in bytes of size codes 000-011. -/
def sizeM (s : BitVec 2) : Nat := 2 ^ s.toNat

/-- ld, sign-extending (R140); a nonzero w field is ignored with WARN. -/
def execLd (d b : BitVec 6) (s : BitVec 2) (w : BitVec 4) (o : BitVec 6) (st : State) : Out :=
  loadForm true 0 b.toNat (offM o (sizeM s)) (sizeM s) (gR d) (.sext (sizeM s)) (0x1E * 128) 4 (w != 0) st
/-- ld.v (R140). -/
def execLdV (d : BitVec 5) (b : BitVec 6) (w : BitVec 4) (o : BitVec 6) (st : State) : Out :=
  loadForm true 0 b.toNat (offM o 64) 64 (.v d.toNat) .vec (0x1E * 128) 4 (w != 0) st
/-- ldu, zero-extending (R140). -/
def execLdu (d b : BitVec 6) (s : BitVec 2) (w : BitVec 4) (o : BitVec 6) (st : State) : Out :=
  loadForm true 0 b.toNat (offM o (sizeM s)) (sizeM s) (gR d) (.zext (sizeM s)) (0x1F * 128) 4 (w != 0) st
/-- The 16-bit ld.d (R41): the 32-bit form with off3 and w = 0. -/
def execLdD16 (d a : BitVec 4) (o : BitVec 3) (st : State) : Out :=
  loadForm true 0 a.toNat (word (8 * o.toNat)) 8 (gR d) (.sext 8) (0x1E * 128) 2 false st
/-- ldx (R101). -/
def execLdx (d : BitVec 6) (x : BitVec 3) (i : BitVec 13) (st : State) : Out :=
  loadForm true 0 d.toNat (i.signExtend 64 * 8) 8 (.x x.toNat) (.zext 8) (0x11 * 128) 4 false st
/-- st (R141). -/
def execSt (d b : BitVec 6) (s : BitVec 2) (w : BitVec 4) (o : BitVec 6) (st : State) : Out :=
  storeForm (gR d) (fun t => (t.rg d.toNat).toNat) w.toNat b.toNat (offM o (sizeM s)) (sizeM s) 4 st
/-- st.v (R141). -/
def execStV (d : BitVec 5) (b : BitVec 6) (w : BitVec 4) (o : BitVec 6) (st : State) : Out :=
  storeForm (.v d.toNat) (fun t => (t.rv d.toNat).toNat) w.toNat b.toNat (offM o 64) 64 4 st
/-- The 16-bit st.d (R41): the 32-bit form with off3 and w = 0. -/
def execStD16 (d a : BitVec 4) (o : BitVec 3) (st : State) : Out :=
  storeForm (gR d) (fun t => (t.rg d.toNat).toNat) 0 a.toNat (word (8 * o.toNat)) 8 2 st
/-- ldw (R143). -/
def execLdw (d b : BitVec 6) (s : BitVec 2) (w : BitVec 4) (o : BitVec 6) (st : State) : Out :=
  loadForm false w.toNat b.toNat (offM o (sizeM s)) (sizeM s) (gR d) (.sext (sizeM s)) (0x21 * 128) 4 false st
/-- ldw.v (R143). -/
def execLdwV (d : BitVec 5) (b : BitVec 6) (w : BitVec 4) (o : BitVec 6) (st : State) : Out :=
  loadForm false w.toNat b.toNat (offM o 64) 64 (.v d.toNat) .vec (0x21 * 128) 4 false st

/-! ### What a load reads -/

/-- The units of a store that no home has performed, in order. -/
def Access.unitsOut (a : Access) : List Piece := a.acc.map (·.1) ++ a.todo.flatMap (unitsOf a.ext)

/-- A store of the history names address x. -/
def Hist.names (h : Hist) (x : Nat) : Bool := decide (h.at_ ≤ x) && decide (x < h.at_ + h.len)

/-- A write performed since the n-th, by another thread than `th`, names address x. -/
def Pkg.overwritten (p : Pkg) (th n x : Nat) : Bool :=
  p.hist.any fun h => decide (n ≤ h.n) && h.names x && h.own.map (·.1) != some th

/-- Address x lies in a part. -/
def Piece.holds (p : Piece) (x : Nat) : Bool := decide (p.addr ≤ x) && decide (x < p.addr + p.len)

/-- Change each byte of a list by its address, the first at lo. -/
def atEach (f : Nat → Byte → Byte) : Nat → List Byte → List Byte
  | _, [] => []
  | lo, b :: r => f lo b :: atEach f (lo + 1) r

/-- The bytes from lo on with the unit of an own store on its way laid over them, unless another's writes have covered all it has there
since (R134); of one unit either all is taken or nothing (R315). -/
def Access.layOver (a : Access) (p : Pkg) (lo : Nat) (bs : List Byte) (u : Piece) : List Byte :=
  let mine := ((List.range bs.length).map (lo + ·)).filter u.holds
  if mine.all fun x => p.overwritten a.thread a.since x then bs
  else
    match a.kind with
    | .store v => atEach (fun i b => if u.holds i then BitVec.ofNat 8 (v / 2 ^ (8 * (u.off + (i - u.addr)))) else b) lo bs
    | .plain _ => bs
    | .home => bs
    | .atomic _ _ _ => bs

/-- The bytes from lo on as the thread's own stores issued before access `id` leave them (R134). -/
def State.ownBytes (s : State) (th id lo : Nat) (bs : List Byte) : List Byte :=
  (s.flight.filter fun a => a.thread == th && decide (a.id < id)).foldl (fun bs a =>
    a.unitsOut.foldl (fun bs u => a.layOver s.pkg lo bs u) bs) bs

/-- An entry of the history covers address x. -/
def Hist.covers (h : Hist) (x : Nat) : Bool := decide (h.addr ≤ x) && decide (x < h.addr + h.old.length)

/-- Put back what an entry of the history overwrote of the bytes from lo on. -/
def Hist.undo (h : Hist) (lo : Nat) (bs : List Byte) : List Byte :=
  atEach (fun i b => if h.covers i then (h.old[i - h.addr]?).getD b else b) lo bs

/-- An entry of the history is a write of the thread itself, issued before access `id`, that is the last one to one of the n bytes at lo:
a load of them returns it, and so no moment before it (R134, R315). -/
def Pkg.pins (p : Pkg) (th id lo n : Nat) (h : Hist) : Bool :=
  (match h.own with
  | some (t, i) => t == th && decide (i < id)
  | none => false) &&
    (List.range n).any fun i => h.names (lo + i) && (p.hist.find? fun x => x.names (lo + i)).map (·.n) == some h.n

/-- The bytes from lo on as they stood before the newest `age` writes to them, as far as the bound of R318 reaches: writes
performed since the root published v - 1 and since the line was last invalidated, and none that `pin` holds fast. -/
def rewind (pin : Hist → Bool) (v bar lo : Nat) (bs : List Byte) : Nat → List Hist → List Byte
  | _, [] => bs
  | age, h :: r =>
    if lo < h.addr + h.old.length ∧ h.addr < lo + bs.length then
      match age with
      | 0 => bs
      | k + 1 => if v ≤ h.v + 1 ∧ bar ≤ h.n ∧ !pin h then rewind pin v bar lo (h.undo lo bs) k r else bs
    else rewind pin v bar lo bs age r

/-- The bytes a unit of a load returns: what the home holds, or held within the bound of R318 for a plain load of age `age`, but the
thread's own stores where R134 gives them. The image SRAM is read as it stands (R18, R243). -/
def State.unitBytes (s : State) (a : Access) (lo n age : Nat) : List Byte :=
  let now := byteList (readMem s.pkg.mem lo n) n
  let held := match a.kind with
    | .plain v =>
      let bar := ((a.bars.find? fun b => b.1 == lo / 64).map (·.2)).getD 0
      if imageBase ≤ lo then now else rewind (s.pkg.pins a.thread a.id lo n) v bar lo now age s.pkg.hist
    | .home => now
    | .store _ => now
    | .atomic _ _ _ => now
  s.ownBytes a.thread a.id lo held

/-- The bytes of a part of a load, unit by unit (R133, R315). -/
def State.partBytes (s : State) (a : Access) (p : Piece) (ages : List Nat) : List Byte :=
  (unitsOf a.ext p).zipIdx.flatMap fun u => s.unitBytes a u.1.addr u.1.len (ages[u.2]?.getD 0)

/-- The byte a load from a foreign home returns: the release buffer's, else the other side's (R257). -/
def State.foreignAt (s : State) (x i : Nat) : Byte :=
  match s.released.reverse.find? fun h => decide (h.addr ≤ x) && decide (x < h.addr + h.bytes.length) with
  | some h => (h.bytes[x - h.addr]?).getD 0
  | none => Config.foreignByte (s.free + i)

/-- The value of a load of len bytes from homes 641-644, a READ entry for each eight bytes (R262); the thread's own stores that wait for
the release buffer are seen (R134). -/
def readForeign (th id code addr : Nat) : Nat → Nat → State → Nat → (State → Nat → Out) → Out
  | 0, _, s, v, k => k s v
  | n + 1, i, s, v, k =>
    let x := word (bytesNat (s.ownBytes th id (addr + 8 * i) ((List.range 8).map fun j => s.foreignAt (addr + 8 * i + j) j)))
    let go := fun (s' : State) (y : Word) =>
      readForeign th id code addr n (i + 1) { s' with free := s'.free + 8 } (v + y.toNat * 2 ^ (64 * i)) k
    if isSteward th then go s x
    else s.chooseLate ⟨0x02, th, code, x⟩ (.next s) fun s' e => go s' e.val

/-! ### At the home (R314) -/

/-- Replace an access, or drop it once nothing of it is left. -/
def State.putAccess (s : State) (a : Access) : State :=
  if a.replied && a.todo.isEmpty && a.acc.isEmpty then { s with flight := s.flight.filter fun b => b.id != a.id }
  else { s with flight := s.flight.map fun b => if b.id = a.id then a else b }

/-- The access with a number. -/
def State.inFlight (s : State) (id : Nat) : Option Access := s.flight.find? fun a => a.id == id

/-- The data a store writes for one part. -/
def Access.partData (a : Access) (p : Piece) : Nat :=
  match a.kind with
  | .store v => v / 2 ^ (8 * p.off) % 2 ^ (8 * p.len)
  | .plain _ => 0
  | .home => 0
  | .atomic _ _ _ => 0

/-- The number under which the writes of an op are in flight. -/
def opWriter (k : Nat) : Nat := 0x10000 + k

/-- Whose access it is: a thread's, or an op's writes that its homes have accepted. -/
def Access.actor (a : Access) : Actor := if a.thread < 0x10000 then .thread a.thread else .op (a.thread - 0x10000)

/-- Perform an accepted part. -/
def State.performPart (s : State) (a : Access) (x : Piece × Nat × Nat × Nat) : State :=
  (s.write a.actor (some (a.thread, a.id)) a.cls a.stamp x.1.addr x.1.len (a.partData x.1)).putAccess
    { a with acc := a.acc.erase x }

/-- The accepted part of a home that was accepted first, with its access. -/
def State.oldest (s : State) (h : Nat) : Option (Access × Piece × Nat × Nat × Nat) :=
  let n := s.pkg.seqs.get 0 h
  let all := s.flight.flatMap fun a => (a.acc.filter fun x => x.2.1 == h).map fun x => (a, x)
  all.foldl (fun best y =>
    match best with
    | none => some y
    | some b =>
      if (n + 2 ^ 20 - 1 - b.2.2.2.1) % 2 ^ 20 < (n + 2 ^ 20 - 1 - y.2.2.2.1) % 2 ^ 20 then some y else some b) none

/-- A home performs what it has accepted, in order (R137). -/
def State.flushHome (s : State) (h : Nat) : Nat → State
  | 0 => s
  | n + 1 =>
    match s.oldest h with
    | none => s
    | some (a, x) => (s.performPart a x).flushHome h n

/-- How many parts the homes have accepted and not performed. -/
def State.acceptedCount (s : State) : Nat := s.flight.foldl (fun n a => n + a.acc.length) 0

/-- Every accepted part of a home performed. -/
def State.flush (s : State) (h : Nat) : State := s.flushHome h s.acceptedCount

/-- What the homes have accepted of an actor is performed. -/
def State.flushOf (s : State) (a : Actor) : State :=
  ((s.flight.filter fun x => x.actor = a).flatMap fun x => x.acc.map fun y => y.2.1).eraseDups.foldl State.flush s

/-- The work of an actor crosses every open recovery mark: what the homes have accepted of it belongs to the image too (R258, R259). -/
def State.crossWith (s : State) (a : Actor) : State := (if s.marks.any fun m => m.before a then s.flushOf a else s).cross a

/-- Writes that have their numbers leave for their homes, which perform them one by one, in any order where one number covers several
(R133, R315): each with address, length, value, home, number and epoch. -/
def writesOut : List (Nat × Nat × Nat × Nat × Nat × Nat) → Nat → Nat × List (Piece × Nat × Nat × Nat)
  | [], _ => (0, [])
  | (a, n, v, h, q, e) :: r, off =>
    let x := writesOut r (off + n)
    (v % 2 ^ (8 * n) + 2 ^ (8 * n) * x.1, (⟨a, n, off⟩, h, q, e) :: x.2)

/-- An access of writes that their homes have accepted. -/
def State.sendWrites (s : State) (who cls : Nat) (stamp : Word) (ws : List (Nat × Nat × Nat × Nat × Nat × Nat)) : State :=
  if ws.isEmpty then s
  else
    let x := writesOut ws 0
    { s with
      flight := s.flight ++ [⟨s.nextId, who, .store x.1, [], x.2, none, .zext 8, 0, none, 0, 0, false, true, none, stamp, [], s.pkg.histN, 0, cls⟩]
      nextId := s.nextId + 1 }

/-- A home performs what it has accepted before the access that it numbered q. -/
def State.flushBefore (s : State) (h q : Nat) : Nat → State
  | 0 => s
  | n + 1 =>
    match s.oldest h with
    | none => s
    | some (a, x) => if x.2.2.1 = q then s else (s.performPart a x).flushBefore h q n

/-- A home performs one accepted unit of an access, after all it accepted before that access; the units of one access come in any order
(R315). -/
def State.performUnit (s : State) (id : Nat) (x : Piece × Nat × Nat × Nat) : State :=
  let s' := s.flushBefore x.2.1 x.2.2.1 s.acceptedCount
  match s'.inFlight id with
  | some a => if a.acc.contains x then s'.performPart a x else s'
  | none => s'

/-- merge with the EPOCH entry where Ecur enters the result (R146, R262). -/
def State.mergeAt (s : State) (site : Nat) (p q : Word) (wait : Out) (k : State → Word → Out) : Out :=
  if (mergeValid s.pkg.ecur p q).2 && !(isSteward site && decide (site < 0x1000)) then
    s.epochAt site wait fun s' e => k s' (mergeValid e p q).1
  else k s (mergeValid s.pkg.ecur p q).1

/-- The merge that a reply makes for its thread. -/
def State.mergeLate (s : State) (site : Nat) (p q : Word) (wait : Out) (k : State → Word → Out) : Out :=
  if (mergeValid s.pkg.ecur p q).2 && !isSteward site then
    s.epochLate site wait fun s' e => k s' (mergeValid e p q).1
  else k s (mergeValid s.pkg.ecur p q).1

/-- A home accepts a part of an access: the next number for its units, and the witness of what is accepted so far, in which two lines
at one home give the later number (R137). -/
def State.accept (s : State) (a : Access) (p : Piece) (wait : Out) (k : State → Access → Out) : Out :=
  let h := homeOf p.addr
  let r := s.pkg.nextSeq h
  s.mergeLate a.thread a.wit (witOf h r.1) wait fun s' w =>
    let a' := { a with
      todo := a.todo.erase p
      acc := a.acc ++ (unitsOf a.ext p).map fun u => (u, h, r.1, s.pkg.ecur)
      wit := w }
    k ((s'.updBy (.thread a.thread) fun q => (q.nextSeq h).2).putAccess a') a' 

/-- No earlier store or atomic of the thread, and no lower lane of a scatter, waits for the same home (R134, R145); the two lines of one
store come in any order (R315). -/
def State.firstAtHome (s : State) (a : Access) (p : Piece) : Bool :=
  let h := homeOf p.addr
  !(s.flight.any fun b =>
    b.thread == a.thread && decide (b.id < a.id) && b.todo.any (fun q => homeOf q.addr == h) &&
      (match b.kind with
      | .store _ => true
      | .atomic _ _ _ => true
      | .plain _ => false
      | .home => false)) &&
    !((match a.ext with
      | .lanes _ => true
      | .vec => false
      | .sext _ => false
      | .zext _ => false) && (a.todo.takeWhile fun q => q != p).any fun q => homeOf q.addr == h)

/-- A store's part reaches its home: it takes the next sequence number, and unless `later` everything the home has accepted is
performed at once. A full release buffer accepts nothing; what it accepts is performed (R257). -/
def State.storePart (s : State) (a : Access) (p : Piece) (later : Bool) (k : State → Access → Out) : Out :=
  if !s.firstAtHome a p then .next s
  else if isForeign p.addr && !s.releaseRoom p.len then .next s
  else
    s.accept a p (.next s) fun s' a' =>
      let s'' := if later && !isForeign p.addr then s' else s'.flush (homeOf p.addr)
      k s'' ((s''.inFlight a'.id).getD a')

/-- Bytes read into the value of a load. -/
def Access.gather (a : Access) (p : Piece) (v : Nat) : Access :=
  { a with value := overlay a.value p.off p.len v, todo := a.todo.erase p }

/-- The parts that are read with one part at one moment: all of an access in the image SRAM, whose bytes are of one latch (R243), but
for the lanes of a gather, which are accesses of their own (R133). -/
def Access.together (a : Access) (p : Piece) : List Piece :=
  let gathers := match a.ext with
    | .lanes _ => true
    | .vec => false
    | .sext _ => false
    | .zext _ => false
  if imageBase ≤ p.addr ∧ !gathers then a.todo.filter fun q => decide (imageBase ≤ q.addr) else [p]

/-- In replay the latch of an input region is due and its entry has not come: reads of the n bytes wait for it (R265). -/
def State.latchDue (s : State) (a n : Nat) : Bool :=
  s.replaying && decide (imageBase ≤ a) && (List.range 8).any fun t => (s.pkg.validRegions t).any fun r =>
    let g := s.pkg.region t r
    let c := s.pkg.cls g.cls
    g.kind == 1 && decide (a < g.base + g.len) && decide (g.base < a + n) && c.en && decide (c.startOf c.next ≤ s.time)

/-- A load's part is read (R140, R143): at its home, once its witness is satisfied, if it is not plain. A line in error refuses
the access (R135). -/
def State.loadPart (s : State) (a : Access) (p : Piece) (ages : List Nat) (k : State → Access → Out) : Out :=
  let ready := match a.wait with
    | some w => s.satisfied (s.nodeV a.thread) w
    | none => true
  if !ready || s.latchDue p.addr p.len then .next s
  else if isForeign p.addr then
    readForeign a.thread a.id a.code p.addr ((p.len + 7) / 8) 0 s 0 fun s' v =>
      let a' := a.gather p v
      k (s'.putAccess a') a'
  else if (a.together p).any fun q => s.pkg.errLines.contains (q.addr / 64) then
    let a' := { a with refused := true, todo := [] }
    k (s.noteError.putAccess a') a'
  else
    let a' := (a.together p).foldl (fun (b : Access) q => b.gather q (bytesNat (s.partBytes a q ages))) a
    k (s.putAccess a') a'

/-- The new value of an atomic, and x the size-wide operand (R148). -/
def atomicNew (op w : Nat) (old x y : Nat) : Nat :=
  match op with
  | 0 => x
  | 1 => if old = x then y else old
  | 2 => (old + x) % 2 ^ w
  | 3 => old &&& x
  | 4 => old ||| x
  | 5 => old ^^^ x
  | 6 => if toSigned w x < toSigned w old then x else old
  | 7 => if toSigned w old < toSigned w x then x else old
  | 8 => min old x
  | 9 => max old x
  | _ => (fadd32 old x).1

/-- The steps that an ARB entry orders and that wait at a home: atomics, drawer operations and reducing applications (R262). -/
def State.waitingAt (s : State) (h : Nat) : Nat :=
  (s.flight.filter fun b => (match b.kind with
    | .atomic _ _ _ => true
    | .plain _ => false
    | .home => false
    | .store _ => false) && b.todo.any fun q => homeOf q.addr == h).length +
  (s.pkg.asks.filter fun x => homeOf x.at_ == h).length +
  s.pkg.ops.foldl (fun n x => n + ((x.2.map (·.chunks)).getD []).foldl (fun k c => k + (c.lines.filter fun l => homeOf (64 * l) == h).length) 0) 0

/-- An atomic's one step at its home (R148, R320): an ARB entry, its sequence number, the old value back and the new one in. -/
def State.atomicPart (s : State) (a : Access) (op : Nat) (x y : Word) (p : Piece) : Out :=
  let h := homeOf p.addr
  if !s.firstAtHome a p then .next s
  else if s.pkg.errLines.contains (p.addr / 64) then .next (s.noteError.putAccess { a with refused := true, todo := [] })
  else
    s.arbitrate (0x800 + h) (s.waitingAt h) a.thread (.next s) fun s0 =>
      let s1 := s0.flush h
      let w := 8 * p.len
      let old := readMem s1.pkg.mem p.addr p.len
      let new := atomicNew op w old (x.toNat % 2 ^ w) (y.toNat % 2 ^ w)
      let q := (s1.pkg.nextSeq h).1
      let s2 := s1.updBy (.thread a.thread) fun r => (r.nextSeq h).2
      .next ((s2.write (.thread a.thread) (some (a.thread, a.id)) a.cls a.stamp p.addr p.len new).putAccess
        { a with todo := [], value := old, wit := witOf h q })

/-- Every part of a store, in order; what waits for the release buffer or the log stays. -/
def storeAll (id : Nat) : Nat → State → Out
  | 0, s => .next s
  | n + 1, s =>
    match s.inFlight id with
    | none => .next s
    | some a =>
      match a.todo with
      | [] => .next (a.acc.foldl (fun s x => s.flush x.2.1) s)
      | p :: _ => s.storePart a p false fun s' _ => storeAll id n s'

/-- Every part of a load, in order, each with the ages of its units. -/
def loadAll (id : Nat) (ages : List Nat) : Nat → State → Out
  | 0, s => .next s
  | n + 1, s =>
    match s.inFlight id with
    | none => .next s
    | some a =>
      match a.todo with
      | [] => .next s
      | p :: _ => s.loadPart a p ages fun s' _ => loadAll id (ages.drop (unitsOf a.ext p).length) n s'

/-! ### Drawer operations at the shelf (R150-R152) -/

/-- What an operation that has issued answers at a drawer: the value of g[d]. -/
def Pkg.drawerAnswer (p : Pkg) (x : DrawerAsk) : Word :=
  let d := p.drawer x.at_
  match x.func with
  | 1 => if d.filled = 0 then 0 else word (p.takeFilled x.at_).1
  | 2 => flag (d.taken != 0)
  | 4 => if d.free = 0 then 0 else word (p.claim x.at_).1
  | 5 => flag (d.claimed != 0)
  | _ => setBits (p.rd (x.at_ + 16)) 63 1 (num d.en)

/-- What it leaves of the drawer. -/
def Pkg.drawerDone (p : Pkg) (now : Nat) (x : DrawerAsk) : Pkg :=
  let d := p.drawer x.at_
  match x.func with
  | 1 => if d.filled = 0 then p else (p.takeFilled x.at_).2.2
  | 2 => if d.taken = 0 then p else p.putDrawer x.at_ { d with taken := d.taken - 1, free := d.free + 1 }
  | 4 => if d.free = 0 then p else (p.claim x.at_).2
  | 5 => p.post now x.at_ x.wit
  | _ => p

/-- The request is served. -/
def Pkg.served (p : Pkg) (x : DrawerAsk) : Pkg := { p with asks := p.asks.filter fun y => y.id != x.id }

/-- A drawer operation arrives at the shelf and is performed, an ARB step there (R152): one thread's operations arrive at one shelf in the
order of their issue. A `dclaim` waits for a free slot, a `dtake` that finds none filled goes back to its thread, which suspends (R151).
DESIGN CHOICE (log 85): a drawer disabled meanwhile sends these two back, to trap, and the others act on its counters as they stand. DESIGN
CHOICE (log 104): so does a bench switched to another tenant meanwhile, and there the others change nothing and answer 0. -/
def State.askPart (s : State) (x : DrawerAsk) : Out :=
  let n := x.thread
  let d := s.pkg.drawer x.at_
  let mine := s.pkg.inMap (s.tenantOf n) (homeOf x.at_ / 8)
  let done := fun (s1 : State) (f : Pkg → Pkg) => s1.updBy (.thread n) fun p => (f p).served x
  if s.pkg.asks.any fun y => y.thread == n && decide (y.id < x.id) && homeOf y.at_ == homeOf x.at_ then .next s
  else if (x.func = 0 ∨ x.func = 3) ∧ !(d.en && mine) then .next ((done s id).setThr n { s.thr n with stall := none })
  else if x.func = 3 ∧ d.free = 0 then .next s
  else
    s.arbitrate (0x800 + homeOf x.at_) (s.waitingAt (homeOf x.at_)) n (.next s) fun s1 =>
      let now := s1.tick
      match x.func with
      | 0 =>
        let r := s1.pkg.takeFilled x.at_
        if d.filled = 0 then .next ((done s1 id).setThr n { s1.thr n with stall := some .drawer })
        else .next ((done s1 fun p => (p.takeFilled x.at_).2.2).completeOf n (fun t => (t.wg x.d (word r.1)).ww x.b r.2.1) false)
      | 3 => .next ((done s1 fun p => (p.claim x.at_).2).completeOf n (fun t => t.wg x.d (word (s1.pkg.claim x.at_).1)) (x.b != 0))
      | _ =>
        let v := if mine then s1.pkg.drawerAnswer x else 0
        let wit := if v = 0 then 0 else s1.pkg.slotWits.get 0 (slotWitKey x.at_ d.head)
        let go := fun (s2 : State) (v : Word) =>
          Host.Outcome.next ((done s2 fun p => if mine then p.drawerDone now x else p).setThr n
            (let t := ((s2.thr n).wg x.d v).unmark (.g x.d)
            if x.func = 1 then (t.ww x.b wit).unmark (.w x.b) else t))
        if isSteward n then go s1 v
        else s1.chooseLate ⟨0x02, n, 0x26 * 128 + x.func, v⟩ (.next s) fun s2 e => go s2 e.val

/-- ACCESS_AT_HOME: an access, or a drawer operation, at its home. The command word: below 65,536 ages of units for all parts; 65,536 + 2
i + c the i-th part alone, for a store accepted and (c = 1) performed; 131,072 + j the j-th accepted unit performed; 262,144 a part's line
found in error. -/
def execAccessAtHome (id : Nat) (ages : List Nat) (s : State) : Out :=
  match s.inFlight id with
  | none =>
    match s.pkg.asks.find? fun x => x.id == id with
    | some x => s.askPart x
    | none => .next s
  | some a =>
    match ages with
    | [] =>
      match a.kind with
      | .store _ => storeAll id (a.todo.length + 1) s
      | .atomic op x y => match a.todo with
        | [] => .next s
        | p :: _ => s.atomicPart a op x y p
      | .plain _ => loadAll id [] a.todo.length s
      | .home => loadAll id [] a.todo.length s
    | c :: rest =>
      if c < 65536 then
        match a.kind with
        | .store _ => .next s
        | .atomic _ _ _ => .next s
        | .plain _ => loadAll id ages a.todo.length s
        | .home => loadAll id ages a.todo.length s
      else if c < 131072 then
        match a.todo[(c - 65536) / 2]? with
        | none => .next s
        | some p =>
          match a.kind with
          | .store _ => s.storePart a p (c % 2 == 0) fun s' _ => .next s'
          | .atomic op x y => s.atomicPart a op x y p
          | .plain _ => s.loadPart a p rest fun s' _ => .next s'
          | .home => s.loadPart a p rest fun s' _ => .next s'
      else if c < 262144 then
        match a.acc[c - 131072]? with
        | none => .next s
        | some x => .next (s.performUnit id x)
      else
        match a.kind, a.todo with
        | .store _, _ => .next s
        | _, [] => .next s
        | _, p :: _ =>
          if isForeign p.addr then .next s
          else .next (s.updBy .hub fun q => { q with errLines := p.addr / 64 :: q.errLines })

/-! ### Replies (R132, R142) -/

/-- Write a loaded value into its register. -/
def Thread.put (t : Thread) (r : Reg) (e : Ext) (v : Nat) : Thread :=
  let x : Word := match e with
    | .sext n => BitVec.ofInt 64 (toSigned (8 * n) (v % 2 ^ (8 * n)))
    | .zext n => word (v % 2 ^ (8 * n))
    | .vec => word v
    | .lanes _ => word v
  match r with
  | .g n => t.wg n x
  | .x n => t.wx n x
  | .v n =>
    let keep := match e with
      | .lanes m => m
      | .sext _ => 0xFFFF
      | .zext _ => 0xFFFF
      | .vec => 0xFFFF
    t.wv n (vecOf 32 (lanes.map fun j => if keep.testBit j then v / 2 ^ (32 * j) else elem 32 (t.rv n) j))
  | .k _ => t
  | .w n => t.ww n x

/-- LOAD_REPLY: the data reach the destination and OL falls; a refused load writes nothing and its registers stay busy (R135).
The stamp of a stamp-checked load is written after the data (R144). An atomic's reply is also its witness's. -/
def execLoadReply (id : Nat) (s : State) : Out :=
  match s.inFlight id with
  | none => .next s
  | some a =>
    if !a.todo.isEmpty then .next s
    else
      let t := s.thr a.thread
      let data := fun (t : Thread) =>
        if a.refused then t
        else
          let t' := match a.dst with
            | some r => (t.put r a.ext a.value).unmark r
            | none => t
          match a.gs with
          | some n => (t'.wg n a.stamp).unmark (.g n)
          | none => t'
      let drop := { s with flight := s.flight.filter fun b => b.id != a.id }
      match a.kind with
      | .store _ => .next s
      | .plain _ => .next (drop.setThr a.thread { data t with ol := t.ol - 1 })
      | .home => .next (drop.setThr a.thread { data t with ol := t.ol - 1 })
      | .atomic _ _ _ =>
        if a.refused then .next (drop.setThr a.thread { t with ol := t.ol - 1, os := t.os - 1 })
        else
          s.mergeLate a.thread t.fw a.wit (.next s) fun s' f =>
            .next ({ s' with flight := drop.flight }.setThr a.thread
              { ((data t).ww a.wreg a.wit).unmark (.w a.wreg) with ol := t.ol - 1, os := t.os - 1, fw := f })

/-- WITNESS_RETURN: the home has accepted a store; its witness is written, FW merges it and OS falls (R132, R141, R142). -/
def execWitnessReturn (id : Nat) (s : State) : Out :=
  match s.inFlight id with
  | none => .next s
  | some a =>
    match a.kind with
    | .store _ =>
      if !a.todo.isEmpty || a.replied then .next s
      else
        let t := s.thr a.thread
        s.mergeLate a.thread t.fw a.wit (.next s) fun s' f =>
          .next ((s'.putAccess { a with replied := true }).setThr a.thread
            { (t.ww a.wreg a.wit).unmark (.w a.wreg) with os := t.os - 1, fw := f })
    | .plain _ => .next s
    | .home => .next s
    | .atomic _ _ _ => .next s

/-! ### Stamp-checked loads (R144) -/

/-- ldc: checks 2 to 4, then staleness, whose outcome is a STAMP entry (R262, R265); the data and the stamp are read at the
home in one step and written when the reply comes (log 5). Parts at homes 641-644 are read there as those of an `ldw`. -/
def stampLoad (gs base : Nat) (off : Word) (n : Nat) (dst : Reg) (ext : Ext) (s : State) : Out :=
  s.issue [.g base, dst, .g gs] fun t =>
    if t.ol = 63 then s.stallWith .counter
    else
      let a := t.rg base + off
      s.rows .load a n (if n = 64 then 4 else n) fun ps ls =>
        if ps.any fun q => s.latchDue q.addr q.len then s.stallWith .log
        else
        let p := s.pkg
        let ten := s.tenantOf s.cur
        let found := (p.regionAt ten a.toNat n).map fun r => p.region ten r
        let stale := match found with
          | none => true
          | some g => p.stale g
        let stamp := match found with
          | none => 0
          | some g => g.stamp
        let go := fun (s1 : State) (bad : Bool) (v : Word) =>
          if bad then (s1.useLeaves .load ls).trap .stale a
          else
            s1.watched .load a n ls fun s2 =>
              let acc := { s2.access ps (0x22 * 128) with dst := some dst, ext := ext, gs := some gs, stamp := v }
              let here := ps.filter fun q => !isForeign q.addr
              let full := here.foldl (fun (x : Access) q => x.gather q (bytesNat (s2.partBytes acc q []))) acc
              let bad := here.any fun q => s2.pkg.errLines.contains (q.addr / 64)
              let sent := { full with refused := bad, todo := if bad then [] else full.todo }
              ((if bad then s2.noteError else s2).send sent).retire ({ t with ol := t.ol + 1 }.mark [dst, .g gs]) 4 false
        if isSteward s.cur then go s stale stamp
        else
          s.choose ⟨0x03, s.cur, if stale then 1 else 0, stamp⟩ false (s.stallWith .log) fun s1 e =>
            let s2 := if e.val = stamp then s1 else s1.differ
            go s2 (e.arg % 2 == 1) e.val

/-- ldc. -/
def execLdc (d b : BitVec 6) (s : BitVec 2) (w : BitVec 4) (o : BitVec 6) (st : State) : Out :=
  stampLoad w.toNat b.toNat (offM o (sizeM s)) (sizeM s) (gR d) (.sext (sizeM s)) st
/-- ldc.v. -/
def execLdcV (d : BitVec 5) (b : BitVec 6) (w : BitVec 4) (o : BitVec 6) (st : State) : Out :=
  stampLoad w.toNat b.toNat (offM o 64) 64 (.v d.toNat) .vec st

/-! ### Gather and scatter (R145) -/

/-- The address of lane j. -/
def laneAddr (f : VF) (t : Thread) (j : Nat) : Word :=
  t.rg f.b.toNat + (BitVec.ofNat 32 (elem 32 (t.rv f.a.toNat) j)).signExtend 64

/-- The lanes one pass takes, from lane j on: those whose checks pass, up to the first that fails, or one lane where a stop is
due. The answer gives the pieces, the lanes, the leaves used, the lane to go on with, and whether the last lane was reached. -/
def lanesOf (s : State) (f : VF) (t : Thread) (u : Use) (one : Bool) :
    Nat → Nat → List Piece × List Nat × List Leaf × Nat
  | 0, j => ([], [], [], j)
  | n + 1, j =>
    if !f.active t j then
      let r := lanesOf s f t u one n (j + 1)
      r
    else
      let a := laneAddr f t j
      let good := a.toNat % 4 = 0 && (t.watch u a 4).isNone && !s.pkg.pageMoves (s.tenantOf s.cur) a 4
      match if good then checkParts (s.view s.cur t.sup u) u [(a, 4, 4 * j)] else .fault .align a with
      | .ok ps ls =>
        if one then (ps, [j], ls, j + 1)
        else
          let r := lanesOf s f t u one n (j + 1)
          (ps ++ r.1, j :: r.2.1, ls ++ r.2.2.1, r.2.2.2)
      | .fault _ _ => ([], [], [], j)
      | .absent _ _ _ _ => ([], [], [], j)

/-- One pass of a gather or scatter from lane ctl.prog, to lane 15 or to the last that the turn allows: it sends the access of the lanes
that pass and completes after lane 15, over the length of R30, which skips the literal word of an ignored source (R46); otherwise it stops
with ctl.prog at the next lane, and where that lane is the first one it traps or parks. -/
def lanePass (f : VF) (u : Use) (code : Nat) (uses : List Reg) (full : Thread → Bool) (w : Bool) (wn : Nat)
    (shape : State → Thread → List Nat → Access → Access) (count empty : Thread → Thread) (s : State) : Out :=
  s.issue uses fun t =>
    if full t then s.stallWith .counter
    else if !validWit (t.rw wn) then s.trap .witness (t.rw wn)
    else
      let p := bits t.prog 0 4
      let m := (s.lastPart.map fun x => min (16 - p) (max 1 (x + 1 - p))).getD (16 - p)
      let r := lanesOf s f t u t.stopDueNow m p
      if r.2.1.isEmpty && decide (r.2.2.2 < p + m) then
        (s.setMe { empty t with prog := word r.2.2.2 }).checked u (laneAddr f t r.2.2.2) 4 4 fun s' _ => .next s'
      else
        let s' := s.useLeaves u r.2.2.1
        let a := shape s' t r.2.1 (s'.access r.1 code)
        let s'' := if r.2.1.isEmpty then s' else (if u.writes then s'.dropLines (coreOf s.cur) r.1 else s').send a
        let t' := if r.2.1.isEmpty then empty t else count t
        if 16 ≤ r.2.2.2 then s''.retire t' f.len w
        else .next (s''.commit s.cur { t' with prog := word r.2.2.2, stall := none })

/-- vgather (R145). -/
def execVgather (f : VF) (n : BitVec 4) (s : State) : Out :=
  let d := Reg.v f.d.toNat
  lanePass f .load (0x23 * 128 + n.toNat) [.g f.b.toNat, .v f.a.toNat, .k f.k.toNat, d, .w n.toNat] (fun t => t.ol == 63)
    f.noB n.toNat
    (fun s' t js a => { a with
      kind := if n = 0 then .plain (s'.nodeV s'.cur) else .home
      dst := some d
      ext := .lanes (js.foldl (fun m j => m + 2 ^ j) 0)
      wait := if n = 0 then none else some (t.rw n.toNat) })
    (fun t => { t with ol := t.ol + 1 }.mark [d]) id s

/-- vscatter (R145): after a stop the merged witness goes on from w[n]. -/
def execVscatter (f : VF) (n : BitVec 4) (s : State) : Out :=
  lanePass f .store 0 [.g f.b.toNat, .v f.a.toNat, .k f.k.toNat, .v f.d.toNat, .w n.toNat] (fun t => t.os == 63)
    f.noB (if s.me.prog = 0 then 0 else n.toNat)
    (fun _ t _ a => { a with
      kind := .store (t.rv f.d.toNat).toNat
      ext := .lanes 0
      wreg := n.toNat
      wit := if t.prog = 0 then 0 else t.rw n.toNat })
    (fun t => { t with os := t.os + 1 }.mark [.w n.toNat]) (fun t => if t.prog = 0 then t.ww n.toNat 0 else t) s

/-! ### Atomics (R148) -/

/-- An atomic of n bytes: with WIN it leaves the thread only once w[w] is satisfied (R320). -/
def atomic (op : Nat) (d b : BitVec 6) (n : Nat) (w : BitVec 4) (win : Bool) (s : State) : Out :=
  s.issue ([.g b.toNat, gR d, .w w.toNat] ++ if op = 1 then [.g (d.toNat + 1)] else []) fun t =>
    if t.ol = 63 || t.os = 63 then s.stallWith .counter
    else if win && !validWit (t.rw w.toNat) then s.trap .witness (t.rw w.toNat)
    else
      let a := t.rg b.toNat
      s.rows .atomic a n n fun ps ls =>
        if ps.any fun p => isForeign p.addr then (s.useLeaves .atomic ls).trap .xlatPerm a
        else
          s.watched .atomic a n ls fun s' =>
            if win && !s.satisfied (s.nodeV s.cur) (t.rw w.toNat) then s.stallWith .witness
            else
              let acc := { s'.access ps (0x25 * 128) with
                kind := .atomic op (t.rg d.toNat) (t.rg (d.toNat + 1))
                dst := some (gR d)
                ext := .sext n
                wreg := w.toNat }
              (s'.send acc).retire ({ t with ol := t.ol + 1, os := t.os + 1 }.mark [gR d, .w w.toNat]) 4 false

/-- The size of an atomic. -/
def sizeA (dw : Bool) : Nat := if dw then 8 else 4

/-- amo.swap. -/
def execAmoSwap (d b : BitVec 6) (dw : Bool) (w : BitVec 4) (win : Bool) (s : State) : Out := atomic 0 d b (sizeA dw) w win s
/-- amo.cas. -/
def execAmoCas (d b : BitVec 6) (dw : Bool) (w : BitVec 4) (win : Bool) (s : State) : Out := atomic 1 d b (sizeA dw) w win s
/-- amo.add. -/
def execAmoAdd (d b : BitVec 6) (dw : Bool) (w : BitVec 4) (win : Bool) (s : State) : Out := atomic 2 d b (sizeA dw) w win s
/-- amo.and. -/
def execAmoAnd (d b : BitVec 6) (dw : Bool) (w : BitVec 4) (win : Bool) (s : State) : Out := atomic 3 d b (sizeA dw) w win s
/-- amo.or. -/
def execAmoOr (d b : BitVec 6) (dw : Bool) (w : BitVec 4) (win : Bool) (s : State) : Out := atomic 4 d b (sizeA dw) w win s
/-- amo.xor. -/
def execAmoXor (d b : BitVec 6) (dw : Bool) (w : BitVec 4) (win : Bool) (s : State) : Out := atomic 5 d b (sizeA dw) w win s
/-- amo.min. -/
def execAmoMin (d b : BitVec 6) (dw : Bool) (w : BitVec 4) (win : Bool) (s : State) : Out := atomic 6 d b (sizeA dw) w win s
/-- amo.max. -/
def execAmoMax (d b : BitVec 6) (dw : Bool) (w : BitVec 4) (win : Bool) (s : State) : Out := atomic 7 d b (sizeA dw) w win s
/-- amo.minu. -/
def execAmoMinu (d b : BitVec 6) (dw : Bool) (w : BitVec 4) (win : Bool) (s : State) : Out := atomic 8 d b (sizeA dw) w win s
/-- amo.maxu. -/
def execAmoMaxu (d b : BitVec 6) (dw : Bool) (w : BitVec 4) (win : Bool) (s : State) : Out := atomic 9 d b (sizeA dw) w win s
/-- amo.fadd. -/
def execAmoFadd (d b : BitVec 6) (w : BitVec 4) (win : Bool) (s : State) : Out := atomic 10 d b 4 w win s

end Sys2Proof.Machine
end

