-- ==== Sys2Proof/Machine/Aes.lean ====
section
/-! DEFINITION. AES-256-GCM, the encryption that the spec names for the trace blocks of a confidential tenant (R389). -/

namespace Sys2Proof.Machine

/-! ### The byte field -/

/-- A byte times the polynomial of degree one. -/
def byteDouble (x : Byte) : Byte := (x <<< 1) ^^^ (if x.getLsbD 7 then 0x1B#8 else 0)

/-- The product of two bytes, over the lowest n bits of the second. -/
def byteMul (x y : Byte) : Nat → Byte
  | 0 => 0
  | n + 1 => (if y.getLsbD 0 then x else 0) ^^^ byteMul (byteDouble x) (y >>> 1) n

/-- A byte to the power 2^(n+1) - 2; for n = 7 that is the inverse. -/
def byteInv (x : Byte) : Nat → Byte
  | 0 => 1
  | n + 1 =>
    let sq := byteMul x x 8
    byteMul sq (byteInv sq n) 8

/-- The substitution of AES: the inverse, then an affine map. -/
def subByte (x : Byte) : Byte :=
  let b := byteInv x 7
  [1, 2, 3, 4].foldl (fun y n => y ^^^ b.rotateLeft n) (b ^^^ 0x63#8)

/-! ### AES-256 -/

/-- Two lists of bytes, exclusive or. -/
def xorBytes (a b : List Byte) : List Byte := a.zipWith (· ^^^ ·) b

/-- The next words of the key schedule, newest first: `n` more, of which the next is number i; `rc` is the round constant. -/
def keyWords : Nat → Nat → Byte → List (List Byte) → List (List Byte)
  | 0, _, _, ws => ws
  | n + 1, i, rc, ws =>
    let last := ws.headD []
    let t := if i % 8 = 0 then xorBytes ((last.drop 1 ++ last.take 1).map subByte) [rc, 0, 0, 0]
      else if i % 8 = 4 then last.map subByte else last
    keyWords n (i + 1) (if i % 8 = 0 then byteDouble rc else rc) (xorBytes (ws.getD 7 []) t :: ws)

/-- The fifteen round keys of a 32-byte key. -/
def roundKeys (key : List Byte) : List (List Byte) :=
  let first := ((List.range 8).map fun i => (key.drop (4 * i)).take 4).reverse
  let ws := (keyWords 52 8 1 first).reverse
  (List.range 15).map fun r => ((ws.drop (4 * r)).take 4).flatten

/-- Row r of the block moves left by r columns; the block is held column by column. -/
def shiftRows (b : List Byte) : List Byte := (List.range 16).map fun i => b.getD ((i + 4 * (i % 4)) % 16) 0

/-- One column times the fixed polynomial of AES. -/
def mixColumn (c : List Byte) : List Byte :=
  (List.range 4).map fun i =>
    let a := fun j => c.getD ((i + j) % 4) 0
    byteDouble (a 0) ^^^ (byteDouble (a 1) ^^^ a 1) ^^^ a 2 ^^^ a 3

/-- A block of 16 bytes encrypted: the first round key, 13 whole rounds, and one without the columns' mixing. -/
def aesBlock (keys : List (List Byte)) (b : List Byte) : List Byte :=
  let sub := fun (x : List Byte) => shiftRows (x.map subByte)
  let x := ((keys.drop 1).take 13).foldl (fun x k =>
    let y := sub x
    xorBytes ((List.range 4).flatMap fun i => mixColumn ((y.drop (4 * i)).take 4)) k) (xorBytes b (keys.headD []))
  xorBytes (sub x) (keys.getD 14 [])

/-! ### The counter mode and its tag -/

/-- The product in the field of GCM, whose bits run from the most significant on, over the highest n bits of the first factor. -/
def ghashMul (x v : BitVec 128) : Nat → BitVec 128
  | 0 => 0
  | n + 1 =>
    (if x.getLsbD 127 then v else 0) ^^^
      ghashMul (x <<< 1) ((v >>> 1) ^^^ (if v.getLsbD 0 then BitVec.ofNat 128 (0xE1 * 2 ^ 120) else 0)) n

/-- A number from its bytes, the most significant first. -/
def bigNat (bs : List Byte) : Nat := bytesNat bs.reverse

/-- A list of bytes in blocks of 16, n of them, the last filled with zeros. -/
def blocksOf (bs : List Byte) : List (List Byte) :=
  (List.range ((bs.length + 15) / 16)).map fun i => ((bs.drop (16 * i)).take 16 ++ List.replicate 15 0#8).take 16

/-- GHASH under h of additional data and ciphertext. -/
def ghash (h : BitVec 128) (aad text : List Byte) : BitVec 128 :=
  (blocksOf aad ++ blocksOf text ++ [bigEndian (8 * aad.length) 8 ++ bigEndian (8 * text.length) 8]).foldl
    (fun y b => ghashMul (y ^^^ BitVec.ofNat 128 (bigNat b)) h 128) 0

/-- AES-256-GCM with a 12-byte IV: the ciphertext, then the 16-byte tag. -/
def gcmEncrypt (key iv aad plain : List Byte) : List Byte :=
  let keys := roundKeys key
  let pad := fun (n : Nat) => aesBlock keys (iv ++ bigEndian n 4)
  let text := ((blocksOf plain).zipIdx.flatMap fun b => xorBytes b.1 (pad (b.2 + 2))).take plain.length
  let h := BitVec.ofNat 128 (bigNat (aesBlock keys (List.replicate 16 0#8)))
  text ++ xorBytes (pad 1) (bigEndian (ghash h aad text).toNat 16)

end Sys2Proof.Machine
end

