-- ==== Sys2Proof/Machine/Lives.lean ====
section
/-! DEFINITION. What tasks and ops share: a tenant's tables (R298, R308, R399), messages (R166), join blocks (R162), tokens (R183)
and the end, cancel and reaping of an op (R173, R186, R198, R207-R209, R281). -/

namespace Sys2Proof.Machine

/-! ### Errors and generations (R173, R260, R308) -/

/-- An access to the generation table, an op journal or an engine save area failed: an uncorrectable error, of which the steward
hears (R399). -/
def State.areaError (s : State) (die va : Nat) : State := s.updBy .hub fun p => p.areaError die va

/-- Go on with the generation bench b holds; a table that cannot be read is an uncorrectable error (R399). -/
def State.withGen (s : State) (b t job : Nat) (k : State → Nat → Out) : Out :=
  match s.pkg.genAt b t job with
  | some g => k (s.updBy .hub fun p => p.used t (p.genAddr t job) .load) g
  | none => k (s.areaError (b / 16) (s.pkg.genAddr t job)) 0

/-- The point at which a task first observes a new generation (R173, R262): where the package leads, it is written; where it
replays, the next CANCEL entry of the site decides. -/
def State.observe (s : State) (site gen job point : Nat) (val : Word) (old : Bool) (k : State → Bool → Out) : Out :=
  let own := if old then k (s.writeLog ⟨0x07, site, gen * 65536 + job, val⟩) true else k s false
  if s.replaying then
    match s.nextEntry site with
    | some e =>
      if e.kind = 0x07 ∧ e.val.toNat % 4 = point ∧ (point = 3 → e.val = val) then
        s.choose ⟨0x07, site, e.arg, e.val⟩ true (.next s) fun s' _ => k s' true
      else k s false
    | none => if s.pair.role = 2 then k s false else own
  else own

/-! ### Messages (R166) -/

/-- A header. -/
def headerOf (job src tag : Nat) (wt : Bool) (pri entry dest : Nat) : Word :=
  word (job * 2 ^ 48 + src * 2 ^ 38 + tag * 2 ^ 22 + num wt * 2 ^ 21 + pri * 2 ^ 19 + entry * 2 ^ 9 + dest)

/-- A send word: generation and send time in ticks. -/
def sendWordOf (gen now : Nat) : Word := word (gen * 2 ^ 56 + now % 2 ^ 56)

/-- A message sets out. -/
def Pkg.post1 (p : Pkg) (t now : Nat) (header stamp sendWord : Word) (pay : List Word) (cls : Nat) : Pkg :=
  { p with
    messages := p.messages ++ [⟨p.arrival, t, header, stamp, sendWord, pay, p.arrival, now, 0, false, cls⟩]
    arrival := p.arrival + 1 }

/-- Entries of a mailbox priority in use, messages on their way among them (R167). -/
def Pkg.occupied (p : Pkg) (core pri : Nat) : Nat :=
  ((p.core core).mail.get [] pri).length + (p.messages.filter fun m => m.dest == core && m.pri == pri).length

/-- The requests that wait for an entry of a mailbox priority, that of thread `n` apart (R262). -/
def State.mailWaits (s : State) (n dest pri : Nat) : Nat :=
  (s.threads.filter fun x => x.1 != n && x.2.stall == some (.mailbox dest pri)).length +
    (s.pkg.offers.filter fun o => o.msg.dest == dest && o.msg.pri == pri).length

/-- A message of the machine is accepted into a free entry of its mailbox (R305), and the FAILED slot it tells of falls free (R350). -/
def Pkg.accepted (p : Pkg) (o : Offer) : Pkg :=
  let q := { p with messages := p.messages ++ [o.msg] }
  match o.slot with
  | some slot => q.freeUp slot
  | none => q

/-- The machine sends a message: it is accepted at once where two entries are free, else offered until one is; the acceptance into the last
one is a choice of the log (R262, R305). -/
def Pkg.offer (p : Pkg) (t now : Nat) (header stamp sendWord : Word) (pay : List Word) (cls : Nat) (slot : Option Nat) : Pkg :=
  let m : Message := ⟨p.arrival, t, header, stamp, sendWord, pay, p.arrival, now, 0, false, cls⟩
  let q := { p with arrival := p.arrival + 1 }
  if q.occupied (bits header 0 9) (bits header 19 2) < 15 then q.accepted ⟨m, slot⟩ else { q with offers := q.offers ++ [⟨m, slot⟩] }

/-- A message of the machine to the tenant's orphan handler, entry 1,023 (R209, R299, R350), which releases a FAILED slot once it is
accepted; `none` where there is no handler. -/
def Pkg.toOrphanHandler (p : Pkg) (t now job src tag : Nat) (stamp : Word) (pay : List Word) (cls : Nat) (slot : Option Nat) :
    Option Pkg :=
  (p.entryOf t 1023).map fun e =>
    p.offer t now (headerOf job src tag false e.pri 1023 e.home) stamp (sendWordOf ((p.generation t job).getD 0) now) pay cls slot

/-! ### Join blocks (R162-R164) -/

/-- Merge a list of witnesses into one, with the EPOCH entries (R146). -/
def mergeAll (site : Nat) (wait : Out) : List Word → State → Word → (State → Word → Out) → Out
  | [], s, w, k => k s w
  | x :: r, s, w, k => s.mergeAt site w x wait fun s' m => mergeAll site wait r s' m k

/-- One step at the home of join block B of tenant t (R162, R164): add k to COUNT, merge witnesses into JWIT, and with `dec` take one child
off; a COUNT of 0 readies the waiter. The answer's flag is the WARN of the step. -/
def State.joinStep (s : State) (who : Actor) (site src t b k : Nat) (ws : List Word) (dec : Bool) (wait : Out)
    (go : State → Bool → Out) : Out :=
  s.arbitrate (0x800 + homeOf b) (1 + s.waitingAt (homeOf b)) src wait fun s0 =>
    let s1 := s0.flush (homeOf b)
    let jw := s1.pkg.rd (b + 8)
    let bad := !ws.isEmpty && !validWit jw
    mergeAll site wait (if bad then [] else ws) s1 jw fun s2 jw' =>
      let count := (s2.pkg.rd b).toNat + k
      let left := if dec then count - 1 else count
      let waiter := (s2.pkg.rd (b + 16)).toNat
      let now := s2.tick
      go (s2.updBy who fun p =>
        let q := ((p.nextSeq (homeOf b)).2.wr b (word left)).wr (b + 8) jw'
        if left = 0 ∧ waiter ≠ 0 ∧ dec then (q.wr (b + 16) 0).wakeIn now t 2 waiter else q) (bad || (dec && count == 0))

/-! ### Ops (R183-R185) -/

/-- The op sits in a copy-engine slot. -/
def isCopy (k : Nat) : Bool := decide (k % 1024 < 768)
/-- The op is under the key it has while its tenant is out. -/
def isOut (k : Nat) : Bool := decide (65536 ≤ k)
/-- The key under which an op of tenant t waits while its bench runs another tenant or is gated by force (R286). -/
def outKey (t k : Nat) : Nat := k + 65536 * (t + 1)
/-- The bench of an op's engine. -/
def opBench (k : Nat) : Nat := k % 65536 / 1024
/-- The core that owns an op's slot (R183). -/
def opCore (k : Nat) : Nat := opBench k * 8 + if k % 1024 < 768 then k % 1024 / 96 else (k % 1024 - 768) / 8
/-- The engines of the bench stop (R286). -/
def Pkg.halting (p : Pkg) (b : Nat) : Bool := (p.bench b).halting.isSome
/-- The engine's site in the order log (R262). -/
def engineSite (k : Nat) : Nat := if isCopy k then 0x1040 + opBench k else 0x1000 + opBench k
/-- The source number of a step of an op (R262). -/
def opSource (k : Nat) : Nat := 0x10000 + k % 65536
/-- KIND. -/
def Op.kind (o : Op) : Nat := bits o.cmd 0 4
/-- QUEUE. -/
def Op.queue (o : Op) : Nat := bits o.cmd 4 2
/-- PRI. -/
def Op.pri (o : Op) : Nat := bits o.cmd 6 2
/-- DET. -/
def Op.det (o : Op) : Bool := o.cmd.getLsbD 8
/-- N. -/
def Op.n (o : Op) : Nat := bits o.cmd 32 10
/-- The op has ended (R185). -/
def Op.ended (o : Op) : Bool := decide (4 ≤ o.state)

/-- STATUS of the fault record (R190). -/
def Op.status (o : Op) : Word :=
  word (o.prog * 2 ^ 32 + o.flags * 2 ^ 20 + o.state * 2 ^ 16 + o.reason * 256 + o.cause)

/-- The token of an op with this command (R183). -/
def tokenOf (cmd : Word) (job gen k : Nat) : Word :=
  word (bits cmd 6 2 * 2 ^ 57 + bits cmd 8 1 * 2 ^ 56 + job * 2 ^ 40 + gen * 2 ^ 24 + k / 1024 * 2 ^ 16 +
    if k % 1024 < 768 then k % 1024 else 2 ^ 12 + (k % 1024 - 768))

/-- The op a token's slot field names. -/
def tokenKey (t : Word) : Nat := bits t 16 6 * 1024 + if bits t 12 4 = 0 then bits t 0 12 else 768 + bits t 0 12

/-- The key of the op of tenant t in a slot: its own, or the one it has while its engine is stopped (R286). -/
def Pkg.opKey (p : Pkg) (t k : Nat) : Nat := if (p.op (outKey t k)).isSome then outKey t k else k

/-- The op that a token of tenant t names under a key; one reaped while it was out is none (R281). -/
def Pkg.tokenOp (p : Pkg) (k : Nat) : Option Op := (p.op k).filter fun o => !(isOut k && o.ended && o.owner == .gone)

/-- The live and ended ops a task owns, by slot, those of a bench that its tenant has left among them. -/
def Pkg.opsOf (p : Pkg) (t slot : Nat) : List (Nat × Op) :=
  p.ops.filterMap fun x => match x.2 with
    | some o => if o.owner = .task t slot then some (x.1, o) else none
    | none => none

/-- Note a write at a home with its sequence number. -/
def addHome (h q : Nat) : List (Nat × Nat) → List (Nat × Nat)
  | [] => [(h, q)]
  | (a, x) :: r => if a = h then (a, laterSeq x q) :: r else if h < a then (h, q) :: (a, x) :: r else (a, x) :: addHome h q r

/-- WITN of the writes at these homes: exact for one or two (R199, R285). -/
def homesWit (ecur : Nat) : List (Nat × Nat) → Word
  | [] => 0
  | [(a, x)] => witOf a x
  | [(a, x), (b, y)] => exactOf (entryOf a x) (entryOf b y)
  | _ => epochWit ecur

/-- Add an amount to a signal counter, saturating (R176). -/
def Pkg.addSignal (p : Pkg) (core ctr amount : Nat) : Pkg :=
  p.onCore core fun k => { k with signals := k.signals.set 0 ctr (min (2 ^ 32 - 1) (k.signals.get 0 ctr + amount)) }

/-- An op leaves FIFO, queue and fences. -/
def Pkg.unqueue (p : Pkg) (k : Nat) : Pkg :=
  let c := opCore k
  let drop := fun (l : List QItem) => l.filter fun x => x != .op k
  let q := p.onCore c fun x =>
    { x with fifo := x.fifo.filter (fun y => y != .op k), queues := x.queues.map fun y => (y.1, drop y.2) }
  q.onBench (opBench k) fun b => { b with bqueues := b.bqueues.map fun y => (y.1, drop y.2) }

/-- An ended op stands no more in the way of a fence. -/
def Pkg.passFences (p : Pkg) (k : Nat) : Pkg := { p with fences := p.fences.map fun f => (f.1, f.2.erase k) }

/-- The governor's account of a die gets an op's units back (R383). -/
def Pkg.giveBack (p : Pkg) (die d : Nat) : Pkg :=
  let g := p.pgov.get pgovReset die
  { p with pgov := p.pgov.set pgovReset die (setBits g 40 12 (bits g 40 12 - d)) }

/-- The generation that follows one (R183). -/
def nextGen (g : Nat) : Nat := if g = 65535 then 1 else g + 1

/-- Free a slot: its generation advances (R183, R281). One of a tenant that is out is free when the tenant is back: it stays as an ended op
that nothing owns. -/
def Pkg.reap (p : Pkg) (k : Nat) : Pkg :=
  if isOut k then p.onOp k fun o => { o with owner := .gone, state := max 4 o.state }
  else { p.setOp k none with gens := p.gens.set 1 k (nextGen (p.gens.get 1 k)) }

/-- Reap a slot, an ARB step at the engine (R262). -/
def State.reapBy (s : State) (who : Actor) (src k : Nat) (wait : Out) (go : State → Out) : Out :=
  s.arbitrate (engineSite k) 1 src wait fun s' => go (s'.updBy who fun p => p.reap k)

/-- The task has an attached op that is live (R164). -/
def Pkg.holdsLive (p : Pkg) (t slot : Nat) : Bool := (p.opsOf t slot).any fun x => !x.2.ended && !x.2.det

/-- What an ended op releases at once: those that wait on its token, and its task's exit (R206, R164). -/
def Pkg.releaseWaiters (p : Pkg) (now k : Nat) : Pkg :=
  match p.op k with
  | some o =>
    let q := p.wakeAll now o.tenant 4 k
    match o.owner with
    | .task t slot => if !o.det && !q.holdsLive t slot then q.wakeIn now t 7 slot else q
    | .block _ _ => q
    | .tenant _ => q
    | .gone => q
  | none => p

/-- The signal of an ending copy (R198), of a kind that has one (R188): a target outside the map or with another RGEN makes the op
FAULTED, with FADDR 0 (R190, R311). -/
def Pkg.opSignal (p : Pkg) (k : Nat) : Pkg :=
  match p.op k with
  | none => p
  | some o =>
    if isCopy k && decide (o.kind ≤ 2) && o.w3.getLsbD 63 then
      let core := bits o.w3 0 9
      if !p.inMap o.tenant (core / 8) then p.onOp k fun o => { o with state := 5, cause := 0x06, reason := 0, faddr := 0 }
      else if (p.core core).rgen ≠ bits o.w3 16 16 then p.onOp k fun o => { o with state := 5, cause := 0x0C, reason := 2, faddr := 0 }
      else p.addSignal core (bits o.w3 9 3) 1
    else p

/-- What becomes of an ended op by its owner (R281): kept for its task, reaped where a cancelled task, a join block or the tenant
owns it; the block gets its witness, the orphan handler its message (R209). -/
def State.settleOp (s : State) (k : Nat) (wait : Out) (go : State → Out) : Out :=
  match s.pkg.op k with
  | none => go s
  | some o =>
    match o.owner with
    | .task _ _ => go s
    | .gone => s.reapBy (.op k) (opSource k) k wait go
    | .block t b =>
      s.joinStep (.op k) (engineSite k) (opSource k) t b 0 [o.witn] true wait fun s1 _ =>
        s1.reapBy (.op k) (opSource k) k wait go
    | .tenant t =>
      let status := o.status
      let now := s.ticks
      s.reapBy (.op k) (opSource k) k wait fun s1 =>
        go (s1.updBy (.op k) fun p =>
          (p.toOrphanHandler t now o.job (opCore k) 0 o.stamp [o.token, status, o.faddr, o.witn, o.token] o.cls none).getD
            { p with orphans := p.orphans.set 0 t (p.orphans.get 0 t + 1) })

/-- An op ends once its writes are performed (R186): WITN is formed, a claimed drawer slot is posted, the signal sent, leave given back, the thread's count
taken down, and all that waits for the end goes on. -/
def State.endOp (s : State) (k st cause reason : Nat) (faddr : Word) (wait : Out) (go : State → Out) : Out :=
  match s.pkg.op k with
  | none => go s
  | some o =>
    if o.ended then go s
    else
      let formed := fun (s0 : State) (e : Nat) =>
        let w := homesWit e o.homes
        let finish := fun (s1 : State) =>
          let now := s1.tick
          let s2 := s1.updBy (.op k) fun p =>
            let q := (p.unqueue k).onOp k fun o =>
              { o with
                state := st, cause := cause, reason := reason, faddr := faddr, witn := w, posted := true, chunks := []
                plan := if o.claim.isSome then o.plan else none, leaveAsked := none, leaveHeld := 0, pageReq := none, counted := false, place := 2, rows := [] }
            ((q.giveBack (opBench k / 16) o.leaveHeld).passFences k).opSignal k
          let s3 := match o.thread with
            | some n =>
              if o.counted then
                let t := s2.thr n
                s2.setThr n (if isCopy k then { t with oc := t.oc - 1 } else { t with ot := t.ot - 1 })
              else s2
            | none => s2
          ((s3.updBy (.op k) fun p => p.releaseWaiters now k).cross (.op k)).settleOp k wait go
        match o.claim with
        | some a =>
          if o.posted then finish s0
          else
            s0.arbitrate (0x800 + homeOf a) (1 + s0.waitingAt (homeOf a)) (opSource k) wait fun s1 =>
              let now := s1.tick
              finish (s1.updBy (.op k) fun p => p.post now a w)
        | none => finish s0
      let done := s.flushOf (.op k)
      if 3 ≤ o.homes.length then done.epochAt (engineSite k) wait formed else formed done s.pkg.ecur

/-- The CHUNK entry of a cancel that takes effect at a copy's chunk PROG (R211, R262). -/
def chunkEntry (k : Nat) (o : Op) : LogEntry := ⟨0x0B, engineSite k, k % 1024, word o.prog⟩

/-- Where a pending CHUNK entry of the log stops op k, before its slot is given to another op (R211, R262). -/
def chunkOf (k : Nat) : List (Nat × LogEntry) → Option Nat
  | [] => none
  | e :: r =>
    if e.2.site = engineSite k ∧ e.2.arg = k % 1024 then
      if e.2.kind = 0x0B then some e.2.val.toNat else if e.2.kind = 0x0A then none else chunkOf k r
    else chunkOf k r

/-- Cancel an op as it stands (R207); the answer is the code of R207. A running copy stops at its next chunk boundary, one that has done all
its chunks at the last; one that has not started is cancelled at its chunk 0. DEDUCED (log 93): a copy that is SUSPENDED on its descriptor's page is at a boundary,
answers 2 and stops there. An op whose engine is stopped ends at once, at its PROG (R286). -/
def State.cancelOp (s : State) (k : Nat) (wait : Out) (go : State → Nat → Out) : Out :=
  match s.pkg.op k with
  | none => go s 0
  | some o =>
    if o.ended then go s 0
    else if o.state ≤ 1 then
      if isCopy k then s.chooseLate (chunkEntry k o) wait fun s1 _ => s1.endOp k 6 0x0F 0 0 wait fun s' => go s' 1
      else s.endOp k 6 0x0F 0 0 wait fun s' => go s' 1
    else if isOut k then
      let end_ := fun (s1 : State) => s1.endOp k 6 0x0F 0 0 wait fun s' => go s' 2
      if isCopy k && !o.stopping then s.chooseLate (chunkEntry k o) wait fun s1 _ => end_ s1 else end_ s
    else if isCopy k then
      let stop := fun (s1 : State) => go (s1.updBy (.op k) fun p => p.onOp k fun o => { o with stopping := true }) 2
      if o.finished && !o.stopping then s.chooseLate (chunkEntry k o) wait fun s1 _ => stop s1 else stop s
    else if o.state = 2 then go s 3
    else s.endOp k 6 0x0F 0 0 wait fun s' => go s' 2

/-- The ops of a task that ends as cancelled (R173): attached ones are cancelled; what is still live belongs to no task. -/
def State.dropOps (s : State) (who : Actor) (src t slot : Nat) (wait : Out) (go : State → Out) : Out :=
  forEach (fun (x : Nat × Op) s k =>
    if x.2.det then k s
    else
      let s1 := s.updBy who fun p => p.onOp x.1 fun o => { o with owner := .gone, counted := false }
      if x.2.ended then s1.reapBy who src x.1 wait k else s1.cancelOp x.1 wait fun s2 _ => k s2)
    (s.pkg.opsOf t slot) s go

/-- The detached ops of an ending task (R209): ended ones are reaped and their witnesses kept for the join block; live ones go to
the block, or to the tenant. The answer counts those handed to the block. -/
def State.handOver (s : State) (who : Actor) (src t slot link : Nat) (wait : Out) (go : State → Nat → List Word → Out) : Out :=
  let det := (s.pkg.opsOf t slot).filter fun x => x.2.det
  let ended := det.filter fun x => x.2.ended
  let live := det.filter fun x => !x.2.ended
  forEach (fun (x : Nat × Op) s k => s.reapBy who src x.1 wait k) ended s fun s1 =>
    forEach (fun (x : Nat × Op) s k =>
      s.arbitrate (engineSite x.1) 1 src wait fun s' =>
        k (s'.updBy who fun p => p.onOp x.1 fun o => { o with owner := if link = 0 then .tenant t else .block t link })) live s1
      fun s2 => go s2 (if link = 0 then 0 else live.length) (if link = 0 then [] else ended.map fun x => x.2.witn)

/-- Where the run of a record's message is kept (R295). -/
def runKey (t slot : Nat) : Nat := t * 2 ^ 48 + slot

/-- Write the state a task of tenant t ended in and free its slot (R164, R173, R296); a FAILED slot stays held. The core at which the
task waits in `recv`, which need not be that of its slot (R302), holds its waiter no more. DESIGN CHOICE (log 113): the run of a message that
is still open then, its task having failed or been found cancelled at dispatch, is added to no account (R295). -/
def Pkg.endRecord (p : Pkg) (t slot st : Nat) : Pkg :=
  let r := p.record slot
  let q := { p.putRecord slot { r with state := st, key := 0 } with
    liveRel := p.liveRel.filter fun x => !(x.1 == t && x.2.2 == slot)
    sleepers := p.sleepers.filter fun z => z.slot != slot
    waits := p.waits.filter fun x => !(x.2.1 == t && x.2.2 == slot)
    runs := p.runs.set none (runKey t slot) none
    cores := p.cores.map fun c => (c.1, { c.2 with waiters := c.2.waiters.filter fun w => !(w.tenant == t && w.slot == slot) }) }
  if st = 10 then q else q.freeUp slot

/-- A task ends: its detached ops, its join link, its record (R164, R173). -/
def State.endTask (s : State) (who : Actor) (site src t slot link : Nat) (ws : List Word) (st : Nat) (wait : Out)
    (go : State → Bool → Out) : Out :=
  s.handOver who src t slot link wait fun s1 k more =>
    let close := fun (s2 : State) (warn : Bool) =>
      go (if slot = 0 then s2 else s2.updBy who fun p => p.endRecord t slot st) warn
    if link = 0 then close s1 false else s1.joinStep who site src t link k (ws ++ more) true wait close

end Sys2Proof.Machine
end

