-- ==== Sys2Proof/Machine/Tasks.lean ====
section
/-! DEFINITION. Suspension points (R159), spawn, join, yield and exit (R161-R165), messages (R166-R169, R293, R295), blocked bits
(R170), cancel (R171-R173, R308) and the trace ring (R388, R389). -/

namespace Sys2Proof.Machine

/-! ### Leaving a thread -/

/-- A waiting instruction of thread n is withdrawn (R80, R156): its barrier arrival, its rotate join with what that counts in OS (R132),
and its `dtake` or `dclaim` on the way are gone. -/
def State.withdraw (s : State) (n : Nat) : State :=
  let t := s.thr n
  let joined := (s.pkg.bench (benchOf n)).rotate.any fun r => r.thread == n
  (s.setThr n { t with stall := none, os := if joined then t.os - 1 else t.os }).updBy (.thread n) fun p =>
    { p with asks := p.asks.filter fun x => !(x.thread == n && (x.func == 0 || x.func == 3)) }.onBench (benchOf n) fun b =>
      { b with
        arrivals := b.arrivals.filter fun a => a.thread != n
        rotate := b.rotate.filter fun r => r.thread != n }

/-- The stores of thread n that wait for their witness, but for a rotate that would be withdrawn (R132, R153). -/
def State.storesOwed (s : State) (n : Nat) : Nat :=
  (s.thr n).os - if (s.pkg.bench (benchOf n)).rotate.any fun r => r.thread == n then 1 else 0

/-- A `sigb`, `cancel` or drawer operation of thread n that has issued has still to write its register (R152, R171, R176, R219). -/
def Pkg.owes (p : Pkg) (n : Nat) : Bool :=
  (p.adds.any fun m => m.thread == n) || (p.cancels.any fun m => m.thread == n) ||
    p.asks.any fun x => x.thread == n && x.func != 0 && x.func != 3

/-- What thread n still waits for of those writes no register any more. -/
def Pkg.forgive (p : Pkg) (n : Nat) : Pkg :=
  { p with
    adds := p.adds.map fun m => if m.thread = n then { m with d := 0 } else m
    asks := p.asks.map fun m => if m.thread = n then { m with d := 0, b := 0 } else m
    cancels := p.cancels.map fun m => if m.thread = n then { m with d := 0 } else m }

/-- The four words of a trace record (R389). -/
def traceWords (type now : Nat) (w1 w2 w3 : Word) : List Word := [word (type * 2 ^ 60 + now % 2 ^ 56), w1, w2, w3]

/-- Word 1 of an ACT, SUSP or SMP record. -/
def traceWho (k : Task) (n low : Nat) : Word :=
  word (k.job * 2 ^ 48 + coreOf n * 2 ^ 39 + n % 4 * 2 ^ 37 + (k.sender.getD 0x1FF) * 2 ^ 28 + k.tag * 2 ^ 12 + low * 2 ^ 8)

/-- The trace unit's buffer takes a record, or drops it and counts it: 512 records of 32 bytes fit in 16 KiB. The first record that
fits after a drop is a LOSS record (R388, R389). -/
def Pkg.trace (p : Pkg) (b now : Nat) (on : Nat) (r : List Word) : Pkg :=
  let x := p.bench b
  let loss := if x.tlost = 0 then [] else [traceWords 4 now 0 (word x.tlost) 0]
  if !(x.trctl.getLsbD 63) || !(x.trctl.getLsbD on) then p
  else if x.tbuf.length + loss.length < 512 then p.onBench b fun x => { x with tbuf := x.tbuf ++ loss ++ [r], tlost := 0 }
  else p.onBench b fun x => { x with trctl := setBits x.trctl 0 32 (bits x.trctl 0 32 + 1), tlost := x.tlost + 1 }

/-! ### The trace ring (R388, R389) -/

/-- Write a list of bytes at a resolved address. -/
def Pkg.putBytes (p : Pkg) (a : Nat) (bs : List Byte) : Pkg := p.perform none a bs.length (bytesNat bs)

/-- The bytes of a record. -/
def recordBytes (r : List Word) : List Byte := r.flatMap fun w => byteList w.toNat 8

/-- The 512-byte block of a confidential tenant: header, 15 places of records encrypted, tag (R389). -/
def traceBlock (key : List Byte) (b t block : Nat) (rs : List (List Word)) : List Byte :=
  let iv := [BitVec.ofNat 8 b, BitVec.ofNat 8 t, 0#8, 0#8] ++ byteList block 8
  let head := iv ++ byteList rs.length 4
  let plain := (rs.flatMap recordBytes ++ List.replicate 480 0#8).take 480
  head ++ gcmEncrypt key iv head plain

/-- Take n records from the buffer and put m bytes into the ring; a page of the ring that cannot be written drops them (R399). -/
def State.ringWrite (s : State) (b t : Nat) (d : TenantDesc) (n : Nat) (bytes : List Byte) : State :=
  let x := s.pkg.bench b
  let wr := bits x.trptr 0 32
  let m := bytes.length
  let next := (wr + m) % d.trsize
  match s.pkg.place t (d.trbase + wr) .store with
  | some a => s.updBy .hub fun p => ((p.putBytes a bytes).used t (d.trbase + wr) .store).onBench b fun x =>
      { x with tbuf := x.tbuf.drop n, trptr := setBits x.trptr 0 32 next, tblock := x.tblock + 1 }
  | none => { s.updBy .hub (fun p => p.onBench b fun x =>
      { x with tbuf := x.tbuf.drop n, trctl := setBits x.trctl 0 32 (bits x.trctl 0 32 + n), tlost := x.tlost + n }) with
      outputs := s.outputs ++ [.steward (b / 16) 0x20 (word (d.trbase + wr))] }

/-- The records of a bench's buffer go to the ring of its tenant while they fit; `all` also sends an unfilled block. -/
def State.drainTrace (s : State) (b : Nat) (all : Bool) : Nat → State
  | 0 => s
  | n + 1 =>
    let x := s.pkg.bench b
    match x.tenant with
    | none => s
    | some t =>
      match s.pkg.desc t with
      | none => s
      | some d =>
        let wr := bits x.trptr 0 32
        let rd := bits x.trptr 32 32
        let size := if d.conf then 512 else 32
        let free := (rd + d.trsize - wr - 1) % d.trsize
        if d.trsize = 0 ∨ x.tbuf.isEmpty ∨ free < size then s
        else if d.conf then
          if x.tbuf.length < 15 && !all then s
          else (s.ringWrite b t d 15 (traceBlock (s.onyx.keys.get [] t) b t x.tblock (x.tbuf.take 15))).drainTrace b all n
        else (s.ringWrite b t d 1 (recordBytes (x.tbuf.headD []))).drainTrace b all n

/-- A drain of what the buffer may hold. -/
def State.drain (s : State) (b : Nat) (all : Bool) : State := s.drainTrace b all 512

/-! ### Delay accounts and the end of a segment (R159, R295) -/

/-- Add to a delay account: part 0 transit, 1 wait, 2 run, 3 count (R295, R390). -/
def Pkg.account (p : Pkg) (core sender part n : Nat) : Pkg :=
  p.onCore core fun c =>
    { c with accounts := c.accounts.set 0 (sender * 4 + part) ((c.accounts.get 0 (sender * 4 + part) + n) % 2 ^ 64) }

/-- The time from one package tick to another; the send time of a message has 56 bits (R166). -/
def elapsed (since now : Nat) : Nat := (now % 2 ^ 56 + 2 ^ 56 - since % 2 ^ 56) % 2 ^ 56

/-- A message is taken by the task of a record: transit and wait are added to the account of its sender, and its run begins (R295). -/
def Pkg.took (p : Pkg) (now core t slot : Nat) (m : Message) : Pkg :=
  let q := ((p.account core m.src 0 (elapsed (bits m.sendWord 0 56) m.since)).account core m.src 1 (elapsed m.since now)).account core m.src 3 1
  { q with runs := q.runs.set none (runKey t slot) (some (m.src, core, now)) }

/-- The task of a record reaches a suspension point: the run of the message it took ends, wherever it runs (R295). -/
def Pkg.ranFor (p : Pkg) (now t slot : Nat) : Pkg :=
  match p.runs.get none (runKey t slot) with
  | some (src, core, began) => { p.account core src 2 (elapsed began now) with runs := p.runs.set none (runKey t slot) none }
  | none => p

/-- The ops a leaving task pushed no longer count for the thread (R220). -/
def State.freeOps (s : State) (n : Nat) : State :=
  s.updBy (.thread n) fun p =>
    { p with ops := p.ops.map fun x => (x.1, x.2.map fun o => if o.thread = some n then { o with thread := none, counted := false } else o) }

/-- The thread falls free after its task's segment (R159): the trace sees the end, the thread has passed a
suspension point and crosses an open recovery mark (R258), and a primary sends a progress mark (R265). -/
def State.leave (s : State) (n : Nat) (k : Task) (st : Nat) (at_ : Word) : State :=
  let now := s.ticks
  let t := s.thr n
  let s1 := s.updBy (.thread n) fun p =>
    let q := (p.forgive n).trace (benchOf n) now 61 (traceWords 2 now (traceWho k n st) at_ t.ts)
    { q with passes := q.passes.set 0 n (q.passes.get 0 n + 1) }
  let s2 := (((s1.withdraw n).freeOps n).setThr n { (s1.withdraw n).thr n with
      task := none, stopDue := false, preemptDue := false, park := none, oc := 0, ot := 0 }).crossWith (.thread n)
  let m := s2.pkg.passes.get 0 n
  if s.pair.role = 1 && decide (s.pair.progSent.get 0 n < m) then
    { s2 with pair := { s2.pair with progSent := s2.pair.progSent.set 0 n m } }.sendFlit 2 1 (byteList n 2)
  else s2

/-- A thread may pass a suspension point: its loads and stores are done (R159), and a standby's primary has passed it (R265). DEDUCED
(log 73): what a `sigb`, `cancel` or drawer operation writes has come too, as no register of the next task takes it. -/
def State.mayPass (s : State) : Option Stall :=
  let t := s.me
  if t.ol ≠ 0 ∨ t.os ≠ 0 ∨ s.pkg.owes s.cur then some .leaving
  else if s.pair.role = 2 ∧ !s.pair.taking ∧ s.pair.allowed.get 0 s.cur ≤ s.pkg.passes.get 0 s.cur then some .log
  else none

/-- The running task ends as cancelled (R173). DESIGN CHOICE (log 74): the suspending instruction does not complete, so what it
discards or ignores sets no WARN and reaches no bit of ctl.bflag; the step at a join link may set it. -/
def State.endCancelled (s : State) (k : Task) (at_ : Word) : Out :=
  let n := s.cur
  let wait := s.stallWith .log
  let now := s.ticks
  (s.upd fun p => p.ranFor now k.tenant k.slot).dropOps (.thread n) n k.tenant k.slot wait fun s1 =>
    s1.endTask (.thread n) n n k.tenant k.slot k.link [nullWit] 9 wait fun s2 warn =>
      .next ((s2.commit n ((s2.thr n).warn warn)).leave n k 9 at_)

/-- A READY record of a task in the grace of its budget is written STOPPED, a STOP entry (R252, R262). DESIGN CHOICE (log 75): its VAL
is RESUME, which no pre-emption at this instruction names. -/
def State.stopReady (s : State) (st : Nat) (resume : Word) (k : State → Nat → Out) : Out :=
  let n := s.cur
  let named := match s.nextEntry n with
    | some e => e.kind == 8 && e.val == resume && e.arg == 0
    | none => false
  if st = 0 && (if s.replaying then named else s.me.stopDue) then
    s.choose ⟨0x08, n, 0, resume⟩ true (s.stallWith .log) fun s1 _ => k s1 11
  else k s st

/-- A suspension point (R159) of a thread that may pass it: the record is written with the given state and key, and `extra` is
part of the step. A READY record of a stopped budget is written STOPPED (R252). A cancelled task ends here instead (R173). A
thread without a task, a steward's, goes on at the resume address (log 12). -/
def State.suspend (s : State) (resume : Word) (st key full : Nat) (warn : Bool) (extra : Pkg → Pkg) : Out :=
  let n := s.cur
  let t := s.me
  match t.task with
  | none => s.jump t resume warn
  | some k =>
    s.withGen (benchOf n) k.tenant k.job fun s0 g =>
      let now := s.ticks
      let tick := s.tick
      let write := fun (s1 : State) => s1.stopReady st resume fun s1 st' =>
        let r : Rec :=
          { fail := false, pre := false, entry := k.entry, bud := k.bud, resume := resume.toNat, key := key, state := st'
            gen := k.gen, dom := k.dom, cls := k.cls, pri := k.pri, job := k.job, stamp := t.ts, link := k.link
            args := [t.rg 1, t.rg 2, t.rg 3, t.rg 4] }
        let s2 := s1.upd fun p =>
          let q := (p.ranFor now k.tenant k.slot).putRecord k.slot r
          let q' := if st' = 0 then q.pushYielded tick (slotCore k.slot) k.slot
            else { q with sleepers := q.sleepers ++ [⟨k.slot, k.tenant, st', if st' = 11 then k.cls else full⟩] }
          extra q'
        Host.Outcome.next ((s2.commit n (t.dropPrefix.warn (warn || t.pp))).leave n k st' t.pc)
      if k.seen && g != k.gen then s0.endCancelled k t.pc
      else
        s0.observe n g k.job 1 1 (g != k.gen) fun s1 old => if old then s1.endCancelled k t.pc else write s1

/-- A suspension that waits for the log keeps the mark of what its instruction has done before. -/
def State.keepStall (s : State) (k : Stall) (o : Out) : Out :=
  match o with
  | .next s' => if (s'.thr s.cur).stall = some .log then s.stallWith k else o
  | .fault f => .fault f
  | .refused r => .refused r

/-! ### Major 0x28 -/

/-- The level of a steal request between two cores (R303). -/
def stealLevel (a b : Nat) : Nat := if a / 8 = b / 8 then 0 else if a / 128 = b / 128 then 1 else 2

/-- The waiting steal request, of a bench that tenant t runs on, that takes a child of domain `dom` (R303, R372). -/
def Pkg.thiefFor (p : Pkg) (core t dom : Nat) : Option Nat :=
  (p.core core).steals.find? fun c => decide (stealLevel core c ≤ (if dom = 3 then 2 else dom)) && p.inMap t (c / 8)

/-- A thread of a core that is free. -/
def State.freeThread (s : State) (core : Nat) : Option Nat :=
  ((List.range 4).map (fun i => 4 * core + i)).find? fun n => (s.thr n).task.isNone && (s.thr n).park.isNone

/-- Hand a child to a thief, or to the deque (R161, R303, R304); a hand-over is a STEAL entry. -/
def State.place (s : State) (slot tenant dom : Nat) (wait : Out) (go : State → Out) : Out :=
  let core := coreOf s.cur
  let now := s.tick
  let hand := fun (s1 : State) (c : Nat) =>
    go (s1.upd fun p =>
      ((p.onCore core fun x => { x with steals := x.steals.erase c }).onCore c fun x => { x with thief := none }).candidate
        c slot tenant now false true)
  let own := fun (s1 : State) => go (s1.upd fun p => p.pushNewest core slot)
  let free := match s.pkg.thiefFor core tenant dom with
    | some c => hand (s.writeLog ⟨0x05, s.cur, 0, word ((s.freeThread c).getD (4 * c))⟩) c
    | none => own s
  if s.replaying then
    match s.nextEntry s.cur with
    | some e => if e.kind = 0x05 then s.choose ⟨0x05, s.cur, 0, e.val⟩ true wait fun s1 _ => hand s1 (coreOf e.val.toNat) else own s
    | none => if s.pair.role = 2 then own s else free
  else free

/-- The checks of a join block at b: 32-aligned, in the shelf window, permitted (R161-R163). -/
def State.joinBlock (s : State) (b : Word) (k : State → Out) : Out :=
  if b.toNat % 32 ≠ 0 then s.trap .align b
  else if b.toNat < shelfBase ∨ shelfBase + 0x10000000 ≤ b.toNat then s.trap .xlatPerm b
  else s.checked .atomic b 32 32 fun s' _ => k s'

/-- spawn (R161, R296, R299). -/
def execSpawn (d a b : BitVec 6) (s : State) : Out :=
  let c := s.me.rg b.toNat
  let jn := c.getLsbD 4
  s.issue ([gR a, gR b, .x 0, .x 1, .x 2, .x 3] ++ if jn then [.x 4] else []) fun t =>
    let target := t.rg a.toNat
    if target.getLsbD 0 then s.trap .align target
    else
      let go := fun (s1 : State) =>
        match t.task with
        | none => s1.retire t 4 (d != 0)
        | some k =>
          match s1.pkg.freeSlot (coreOf s.cur) with
          | none =>
            match t.stall with
            | some (.pool _) => .next s
            | _ => s.stallWith (.pool s.tick)
          | some slot =>
            let wait := s.stallWith .log
            let r : Rec :=
              { fail := false, pre := false, entry := k.entry, bud := k.bud, resume := target.toNat % 2 ^ 48, key := 0, state := 0
                gen := k.gen, dom := bits c 2 2, cls := k.cls, pri := bits c 0 2, job := k.job, stamp := t.ts
                link := if jn then (t.rx 4).toNat else 0, args := [t.rx 0, t.rx 1, t.rx 2, t.rx 3] }
            let born := fun (s2 : State) =>
              (s2.upd fun p => ((p.takeSlot slot).putRecord slot r).onCore (coreOf s.cur) fun c =>
                { c with spawned := slot :: c.spawned }).place slot k.tenant r.dom wait fun s3 =>
                s3.retire s3.me 4 (d != 0 || bits c 5 59 != 0)
            if jn then s1.joinStep (.thread s.cur) s.cur s.cur (s.tenantOf s.cur) (t.rx 4).toNat 1 [] false wait fun s2 _ => born s2 else born s1
      if jn then s.joinBlock (t.rx 4) go else go s

/-- The task of a `join` whose slot stands in WAITER suspends once it may (R159, R163); a COUNT that has reached 0 meanwhile makes it
ready at once. -/
def State.joinSuspend (s : State) (at_ : Nat) (warn : Bool) : Out :=
  let t := s.me
  let slot := (t.task.map (·.slot)).getD 0
  let now := s.tick
  match s.mayPass with
  | some _ => s.stallWith (.joining at_)
  | none => s.keepStall (.joining at_) <| s.suspend t.pc 2 0 0 warn fun p =>
    if p.rd (at_ + 16) ≠ word slot then p.wake now slot
    else if p.rd at_ = 0 then (p.wr (at_ + 16) 0).wake now slot
    else p

/-- join (R162, R163): the answer is a READ entry, 1 at once or 0 suspended. The block is judged and updated in one step, after all that its
home has accepted (R137). WAITER is written before the wait for OL and OS. DEDUCED
(log 76): a `join` that runs again and finds its own slot in WAITER holds the block. -/
def execJoin (d a b : BitVec 6) (s : State) : Out :=
  s.issue [.w d.toNat, gR a] fun t =>
    let blk := t.rg a.toNat
    if t.stall = some (.joining blk.toNat) then s.joinSuspend blk.toNat (b != 0)
    else
      s.joinBlock blk fun s0 =>
        let at_ := blk.toNat
        let s1 := s0.flush (homeOf at_)
        let count := s1.pkg.rd at_
        let wait := s.stallWith .log
        let slot := word ((t.task.map (·.slot)).getD 0)
        let waiter := s1.pkg.rd (at_ + 16)
        let held := waiter != 0 && waiter != slot
        if count ≠ 0 && held then s.stallWith .waiters
        else
          s1.read 0x28 1 (flag (count == 0)) fun s2 v =>
            if v = 0 then
              if held then wait
              else
                s2.arbitrate (0x800 + homeOf at_) (1 + s2.waitingAt (homeOf at_)) s.cur wait fun s3 =>
                  (s3.upd fun p => (p.nextSeq (homeOf at_)).2.wr (at_ + 16) slot).joinSuspend at_ (b != 0)
            else if count ≠ 0 then wait
            else
              s2.arbitrate (0x800 + homeOf at_) (1 + s2.waitingAt (homeOf at_)) s.cur wait fun s3 =>
                let jw := s3.pkg.rd (at_ + 8)
                (s3.upd fun p => (p.nextSeq (homeOf at_)).2.wr (at_ + 8) 0).retire (t.ww d.toNat jw) 4 (b != 0)

/-- yield (R165). -/
def execYield (d a b : BitVec 6) (s : State) : Out :=
  match s.mayPass with
  | some st => s.stallWith st
  | none => s.suspend (s.me.pc + 4) 0 0 0 (d != 0 || a != 0 || b != 0) id

/-- exit (R164, R209). -/
def execExit (d a b : BitVec 6) (s : State) : Out :=
  let t := s.me
  let n := s.cur
  let w := d != 0 || a != 0 || b != 0
  match s.mayPass with
  | some st => s.stallWith st
  | none =>
    match t.task with
    | none => s.retire t 4 w
    | some k =>
      if s.pkg.holdsLive k.tenant k.slot then s.suspend t.pc 7 0 0 w id
      else
        s.withGen (benchOf n) k.tenant k.job fun s0 g =>
          let wait := s.stallWith .log
          let now := s.ticks
          let finish := fun (s1 : State) =>
            let mine := (s1.pkg.opsOf k.tenant k.slot).filter fun x => !x.2.det
            mergeAll n wait (mine.map fun x => x.2.witn) s1 t.fw fun s2 x =>
              forEach (fun (y : Nat × Op) s k => s.reapBy (.thread n) n y.1 wait k) mine s2 fun s3 =>
                (s3.upd fun p => p.ranFor now k.tenant k.slot).endTask (.thread n) n n k.tenant k.slot k.link [x] 8 wait fun s4 warn =>
                  .next ((s4.commit n (t.dropPrefix.warn (w || t.pp || warn))).leave n k 8 t.pc)
          if k.seen && g != k.gen then s0.endCancelled k t.pc
          else s0.observe n g k.job 1 1 (g != k.gen) fun s1 old => if old then s1.endCancelled k t.pc else finish s1

/-! ### Messages (R166-R169) -/

/-- Note in a ready record the sender of the message that woke it. -/
def noteSender (slot src : Nat) : List Ready → List Ready
  | [] => []
  | x :: r => (if x.slot = slot then { x with sender := some src } else x) :: noteSender slot src r

/-- A message reaches a waiter (R169, R293), in package time `now` and core tick `tick`: it is written at a0, the stamp lowered, the
record readied; the delay accounts take it (R295). -/
def Pkg.deliver (p : Pkg) (now tick core t slot : Nat) (m : Message) : Pkg :=
  let r := p.record slot
  let a := (r.args.head?.getD 0).toNat
  let q := (p.perform none a 64 (wordsNat ([m.header, m.stamp, m.sendWord] ++ m.pay))).putRecord slot
    { r with stamp := if m.stamp.toNat < r.stamp.toNat then m.stamp else r.stamp }
  let q' := q.took now core t slot m
  (({ q' with seqs := (q'.nextSeq core).2.seqs }.onCore core fun c =>
    { c with waiters := c.waiters.filter fun w => w.slot != slot }).wake tick slot).onCore (slotCore slot) fun c =>
      { c with ready := noteSender slot m.src c.ready }

/-- The generation a message carries is no longer current at its destination's bench (R305). -/
def Pkg.oldMessage (p : Pkg) (m : Message) : Bool :=
  match p.genAt (m.dest / 8) m.tenant m.job with
  | some g => g != m.gen
  | none => false

/-- A message leaves its mailbox. -/
def Pkg.dropMail (p : Pkg) (core : Nat) (m : Message) : Pkg :=
  p.onCore core fun c => { c with mail := c.mail.set [] m.pri ((c.mail.get [] m.pri).filter fun x => x.id != m.id) }

/-- The mail of a core. -/
def Pkg.mailOf (p : Pkg) (core : Nat) : List Message := [0, 1, 2, 3].flatMap fun i => (p.core core).mail.get [] i

/-- The matching message a waiter takes first: lowest PRI, then stamp, then arrival (R293). -/
def Pkg.mailFor (p : Pkg) (core tenant tag job : Nat) : Option Message :=
  let fits := (p.mailOf core).filter fun m => m.wt && m.tenant == tenant && m.tag == tag && m.job == job
  fits.foldl (fun best m =>
    match best with
    | none => some m
    | some b =>
      if m.pri < b.pri ∨ (m.pri = b.pri ∧ (m.stamp.toNat < b.stamp.toNat ∨ (m.stamp = b.stamp ∧ m.arrival < b.arrival)))
      then some m else some b) none

/-- A stopped job of a bench (R391). -/
def Pkg.jobStopped (p : Pkg) (b t job : Nat) : Bool := (p.bench b).stopped.contains (t * 65536 + job)

/-- A waiter whose job is not stopped (R391) takes its message if one waits; messages of an old generation are discarded on the way
(R305). -/
def Pkg.serveWaiter (p : Pkg) (now tick core slot tenant tag job : Nat) : Nat → Pkg
  | 0 => p
  | n + 1 =>
    match if p.jobStopped (core / 8) tenant job then none else p.mailFor core tenant tag job with
    | none => p
    | some m =>
      let q := p.dropMail core m
      let q := q.useGen (core / 8) tenant m.job
      if p.oldMessage m then
        (q.onCore core fun c => { c with stalegen := (c.stalegen + 1) % 65536 }).serveWaiter now tick core slot tenant tag job n
      else q.deliver now tick core tenant slot m

/-- send and send.try (R167). -/
def sendForm (try_ : Bool) (d a b : BitVec 6) (s : State) : Out :=
  s.issue [gR d, .v a.toNat] fun t =>
    let v := t.rv a.toNat
    let w := fun i => word (elem 64 v i)
    let h := w 0
    let dest := bits h 0 9
    let pri := bits h 19 2
    let warn := b != 0 || bits h 38 10 != 0 || bits h 48 16 != 0
    let job := t.job
    let header := (h &&& 0x3FFFFFFFFF#64) ||| word (job * 2 ^ 48 + coreOf s.cur % 512 * 2 ^ 38)
    let ten := s.tenantOf s.cur
    if !s.pkg.inMap ten (dest / 8) then s.trap .shelfPerm (word dest)
    else
      let used := s.pkg.occupied dest pri
      let accept := fun (s1 : State) =>
        let now := s1.ticks
        (s1.upd fun p => p.post1 ten now header t.ts (sendWordOf ((t.task.map (·.gen)).getD 0) now)
          [w 3, w 4, w 5, w 6, w 7] t.cls).retire (t.wg d.toNat 1) 4 warn
      let offer := fun (s1 : State) (wait : Out) =>
        if 16 ≤ used then wait
        else if used = 15 then s1.arbitrate (0x800 + dest) (1 + s1.mailWaits s.cur dest pri) s.cur wait accept
        else accept s1
      if try_ then
        s.read 0x29 1 (flag (decide (used < 16))) fun s1 v =>
          if v = 0 then s1.retire (t.wg d.toNat 0) 4 warn else offer s1 (s.stallWith .log)
      else offer s (s.stallWith (.mailbox dest pri))

/-- send (R167). -/
def execSend (d a b : BitVec 6) (s : State) : Out := sendForm false d a b s
/-- send.try (R167). -/
def execSendTry (d a b : BitVec 6) (s : State) : Out := sendForm true d a b s

/-- recv (R169). -/
def execRecv (d a b : BitVec 6) (s : State) : Out :=
  s.issue [gR a, .g 1] fun t =>
    let g1 := t.rg 1
    let core := coreOf s.cur
    if g1.toNat % 64 ≠ 0 then s.trap .align g1
    else if g1.toNat < shelfOf core ∨ shelfOf core + 0x5F000 < g1.toNat + 64 then s.trap .shelfPerm g1
    else if 16 ≤ (s.pkg.core core).waiters.length then s.stallWith .waiters
    else
      match s.mayPass with
      | some st => s.stallWith st
      | none =>
        let tag := bits (t.rg a.toNat) 0 16
        let slot := (t.task.map (·.slot)).getD 0
        let ten := s.tenantOf s.cur
        let now := s.ticks
        let tick := s.tick
        (s.flush core).suspend (t.pc + 4) 5 tag tag (d != 0 || b != 0 || bits (t.rg a.toNat) 16 48 != 0) fun p =>
          (p.onCore core fun c => { c with waiters := c.waiters ++ [⟨slot, ten, tag, t.job⟩] }).serveWaiter
            now tick core slot ten tag t.job 64

/-! ### Blocked bits (R170) -/

/-- The benches of a tenant's effective map. -/
def Pkg.benchesOf (p : Pkg) (t : Nat) : List Nat := (List.range 64).filter fun b => p.inMap t b

/-- Work of a tenant that was passed over may be a candidate again: its gated benches that hold work are to wake (R300, R307). -/
def Pkg.stir (p : Pkg) (t : Nat) : Pkg := (p.benchesOf t).foldl Pkg.rouse p

/-- tbset, tbclr and tbrd: the old bit, and what becomes of it, in one step at the table after all that its home has accepted.
DEDUCED (log 41): where the entry cannot be reached, of which the steward hears (R399), the bit reads 0 and nothing is written. -/
def blockedForm (d a b : BitVec 6) (f : Option Bool) (s : State) : Out :=
  s.issue [gR d, gR a] fun t =>
    let ten := s.tenantOf s.cur
    let i := bits (t.rg a.toNat) 0 10
    let va := s.pkg.entryVa ten i
    let u : Use := if f.isSome then .atomic else .load
    let warn := b != 0 || bits (t.rg a.toNat) 10 54 != 0
    match s.pkg.entryAddr ten i u with
    | none => (s.updBy .hub fun p => p.lost (dieOf s.cur) va).retire (t.wg d.toNat 0) 4 warn
    | some at_ =>
      let h := homeOf at_
      let s1 := if f.isSome then s.flush h else s
      let w := s1.pkg.rd at_
      (s1.upd fun p =>
        (match f with
        | none => p
        | some v => ((p.nextSeq h).2.performAs none (at_ + 7) 1 at_ 8 (setBits w 61 1 (num v)).toNat).stir ten).used ten va u).retire
          (t.wg d.toNat (flag (w.getLsbD 61))) 4 warn

/-- tbset. -/
def execTbset (d a b : BitVec 6) (s : State) : Out := blockedForm d a b (some true) s
/-- tbclr. -/
def execTbclr (d a b : BitVec 6) (s : State) : Out := blockedForm d a b (some false) s
/-- tbrd. -/
def execTbrd (d a b : BitVec 6) (s : State) : Out := blockedForm d a b none s

/-! ### Cancel (R171-R173, R308) -/

/-- Every bench of the map has acknowledged the cancel of a job. -/
def Pkg.acknowledged (p : Pkg) (t job : Nat) : Bool :=
  (p.benchesOf t).all fun b => (p.bench b).gens.get 0 (t * 65536 + job) == 0

/-- cancel (R171): the table is written first, then the benches hear of it, and the new generation is written when all of them have
acknowledged; till then the register is busy (R219). -/
def execCancel (d a b : BitVec 6) (s : State) : Out :=
  s.issue [gR d, gR a] fun t =>
    let job := bits (t.rg a.toNat) 0 16
    let ten := s.tenantOf s.cur
    let old := (s.pkg.generation ten job).getD 0
    let g := (old + 1) % 256
    let s1 := match s.pkg.desc ten with
      | some ds => match s.pkg.place ten (ds.gtbase + job) .store with
        | some at_ => (s.flush (homeOf at_)).upd fun p => ((p.nextSeq (homeOf at_)).2.perform none at_ 1 g).used ten (ds.gtbase + job) .store
        | none => s.areaError (dieOf s.cur) (ds.gtbase + job)
      | none => s
    let assisted := s.pkg.assisted ten 3
    let s2 := s1.upd fun p =>
      let q := (p.benchesOf ten).foldl (fun p b => p.onBench b fun x =>
        { x with gens := if x.gens.get 0 (ten * 65536 + job) = 0 then x.gens.set 0 (ten * 65536 + job) (old + 1) else x.gens }) p
      { q with
        cancels := q.cancels ++ [⟨s.cur, d.toNat, ten, job, g⟩]
        cancelHeld := if assisted then (ten, job) :: q.cancelHeld else q.cancelHeld }
    let s3 := if assisted then s2.service ten 3 job [word job, word g, 0, 0] else s2
    let t' := { t with task := t.task.map fun (k : Task) => if k.job = job then { k with gen := g } else k }
    if (s.pkg.benchesOf ten).isEmpty then
      (s3.updBy (.thread s.cur) fun p => { p with cancels := p.cancels.filter fun m => m.thread != s.cur }).retire
        (t'.wg d.toNat (word g)) 4 (b != 0 || bits (t.rg a.toNat) 16 48 != 0)
    else s3.retire (t'.mark [gR d]) 4 (b != 0 || bits (t.rg a.toNat) 16 48 != 0)

/-- The `cancel` instructions of a job that wait are answered once every bench of the map has acknowledged (R171). -/
def State.answerCancels (s : State) (t job : Nat) : State :=
  if s.pkg.acknowledged t job then
    (s.pkg.cancels.filter fun m => m.tenant == t && m.job == job).foldl (fun s m =>
      (s.updBy (.thread m.thread) fun p => { p with cancels := p.cancels.erase m }).setThr m.thread
        (((s.thr m.thread).wg m.d (word m.gen)).unmark (.g m.d))) s
  else s

/-- The value of ccheck: a READ entry; the first 1 a task reads is its CANCEL point too (R172, R173). -/
def ccheckForm (func : Nat) (s : State) (k : State → Thread → Word → Out) : Out :=
  let t := s.me
  match t.task with
  | none => k s t 0
  | some tk =>
    s.withGen (benchOf s.cur) tk.tenant tk.job fun s0 g =>
      s0.read 0x2B func (flag (g != tk.gen)) fun s1 v =>
        if v = 1 && !tk.seen then
          s1.choose ⟨0x07, s.cur, g * 65536 + tk.job, 0⟩ false (s.stallWith .log) fun s2 _ =>
            k s2 { t with task := some { tk with seen := true } } v
        else k s1 t v

/-- ccheck. -/
def execCcheck (d a b : BitVec 6) (s : State) : Out :=
  s.issue [gR d] fun _ => ccheckForm 1 s fun s' t v => s'.retire (t.wg d.toNat v) 4 (a != 0 || b != 0)
/-- ccheck.x: a 1 is written, then traps CANCEL. -/
def execCcheckX (d a b : BitVec 6) (s : State) : Out :=
  s.issue [gR d] fun _ => ccheckForm 2 s fun s' t v =>
    if v = 1 then .next (s'.trapFor s.cur (t.wg d.toNat v) .cancel t.pc (word t.job))
    else s'.retire (t.wg d.toNat v) 4 (a != 0 || b != 0)

end Sys2Proof.Machine
end

