-- ==== Sys2Proof/Machine/Sync.lean ====
section
/-! DEFINITION. Barriers and signals (R174-R176), the scan cycle and horizon (R177, R178), stamps (R179, R180), publish (R181),
drawer operations (R150-R152) and the ring rotate (R153). -/

namespace Sys2Proof.Machine

/-- A READ entry of another thread's waiting instruction (R262). -/
def State.readOf (s : State) (n major func : Nat) (v : Word) (wait : Out) (k : State → Word → Out) : Out :=
  if isSteward n then k s v else s.choose ⟨0x02, n, major * 128 + func, v⟩ true wait fun s' e => k s' e.val

/-! ### Barriers and signals -/

/-- Every arrival of a list gets the same answer (R174), each with its READ entry. -/
def answerAll (v : Word) (w : Bool) (wait : Out) (l : List Arrival) (s : State) : Out :=
  forEach (fun (a : Arrival) s k =>
    s.readOf a.thread 0x2C 0 v wait fun s' x => k (s'.completeOf a.thread (fun t => t.wg a.d x) (w || a.warn))) l s .next

/-- bbar (R174). -/
def execBbar (d a b : BitVec 6) (s : State) : Out :=
  s.issue [gR d, gR a] fun t =>
    let w := t.rg a.toNat
    let mask := bits w 0 32
    let bar := bits w 32 2
    let n := s.cur
    let mine : Arrival := ⟨bar, mask, n, d.toNat, b != 0 || bits w 34 30 != 0⟩
    let wait := s.stallWith .log
    let others := (s.pkg.bench (benchOf n)).arrivals.filter fun x => x.bar == bar && x.thread != n
    let clear := fun (s : State) => s.upd fun p => p.onBench (benchOf n) fun x =>
      { x with arrivals := x.arrivals.filter fun y => y.bar != bar }
    if t.os ≠ 0 then s.stallWith .ownStores
    else if !(mask.testBit (n % 32)) then answerAll 0 true wait [mine] s
    else if others.any fun x => x.mask != mask then answerAll 0 true wait (others ++ [mine]) (clear s)
    else if (List.range 32).all fun i => !(mask.testBit i) || i == n % 32 || others.any fun x => x.thread % 32 == i then
      answerAll 1 false wait (others ++ [mine]) (clear s)
    else
      let s' := s.upd fun p => p.onBench (benchOf n) fun x =>
        { x with arrivals := (x.arrivals.filter fun y => y.thread != n) ++ [mine] }
      s'.stallWith .barrier

/-- mbar (R175): OS = 0, then w[d] takes the epoch witness of Ecur, then a stall until it is satisfied. -/
def execMbar (d a b : BitVec 6) (s : State) : Out :=
  s.issue [.w d.toNat] fun t =>
    match t.stall with
    | some (.epoch e) => if e < s.nodeV s.cur then s.retire t 4 (a != 0 || b != 0) else .next s
    | _ =>
      if t.os ≠ 0 then s.stallWith .ownStores
      else
        let go := fun (s' : State) (e : Nat) =>
          Host.Outcome.next (s'.setMe { t.ww d.toNat (epochWit e) with stall := some (.epoch e) })
        if isSteward s.cur then go s s.pkg.ecur else s.epochAt s.cur (s.stallWith .log) go

/-- sigb (R176): the add sets out to the target's bench controller; its answer is written by SIGNAL_ADD, and till then the register is
busy (R219). -/
def execSigb (d a b : BitVec 6) (s : State) : Out :=
  s.issue [gR d, gR a, gR b] fun t =>
    let w := t.rg a.toNat
    let core := bits w 0 9
    if !s.pkg.inMap (s.tenantOf s.cur) (core / 8) then s.trap .shelfPerm (word core)
    else
      let m : SignalMsg := ⟨s.pkg.arrival, s.tenantOf s.cur, core, bits w 9 3, bits w 16 16, bits (t.rg b.toNat) 0 32, s.cur, d.toNat⟩
      (s.upd fun p => { p with adds := p.adds ++ [m], arrival := p.arrival + 1 }).retire (t.mark [gR d]) 4
        (bits w 12 4 != 0 || bits w 32 32 != 0)

/-- SIGNAL_ADD: the add is made if RGEN matches (R176). The answer is 2 where it differs, 1 for a gated core, 0 for one that runs
a task, 1 for one with a task pre-empted in `swait`, and a free value where none of these holds (log 10). DESIGN CHOICE (log 77): a core
that runs a task and has such a task too answers 0. DESIGN CHOICE (log 104): where the bench has been switched to another tenant meanwhile
nothing is added, and the answer is 2. -/
def execSignalAdd (id : Nat) (s : State) : Out :=
  match s.pkg.adds.find? fun m => m.id == id with
  | none => .next s
  | some m =>
    let n := m.thread
    let c := s.pkg.core m.core
    let runs := (List.range 4).any fun i => (s.thr (4 * m.core + i)).task.isSome
    let fits := c.rgen = m.rgen ∧ s.pkg.inMap m.tenant (m.core / 8)
    let v : Word :=
      if ¬fits then 2
      else if (s.pkg.bench (m.core / 8)).gated then 1
      else if runs then 0
      else if s.pkg.waits.any fun x => x.1 == m.core then 1
      else flag (Config.signalIdle s.free)
    let answer := fun (k : State → Word → Out) =>
      if isSteward n then k s v else s.chooseLate ⟨0x02, n, 0x2C * 128 + 2, v⟩ (.next s) fun s' e => k s' e.val
    answer fun s1 x =>
      let s2 := s1.updBy (.thread n) fun p =>
        let q := if fits then p.addSignal m.core m.counter m.amount else p
        { q with adds := q.adds.filter fun y => y.id != id }
      .next ({ s2 with free := s2.free + 1 }.setThr n (((s2.thr n).wg m.d x).unmark (.g m.d)))

/-- swait (R176). -/
def execSwait (d a b : BitVec 6) (s : State) : Out :=
  s.issue [gR d, gR a, gR b] fun t =>
    let i := bits (t.rg a.toNat) 0 3
    let x := bits (t.rg b.toNat) 0 32
    let core := coreOf s.cur
    let have_ := (s.pkg.core core).signals.get 0 i
    if have_ < x then s.stallWith .signal
    else
      s.read 0x2C 3 (word (have_ - x)) fun s1 v =>
        (s1.upd fun p => p.onCore core fun c => { c with signals := c.signals.set 0 i (have_ - x) }).retire
          (t.wg d.toNat v) 4 false

/-- rgen (R176). -/
def execRgen (d a b : BitVec 6) (s : State) : Out :=
  s.issue [gR d, gR a] fun t =>
    s.read 0x2C 4 (word (s.pkg.core (bits (t.rg a.toNat) 0 9)).rgen) fun s1 v => s1.retire (t.wg d.toNat v) 4 (b != 0)

/-! ### Scan cycle and horizon -/

/-- The cycle number a class shows: all ones while it is not running (R237). -/
def Pkg.cycleOf (p : Pkg) (k : Nat) : Word := (p.cycle k).getD allOnes

/-- The cycle c of class k has started, or the class no longer runs (R177, R236). -/
def Pkg.reached (p : Pkg) (k : Nat) (c : Nat) : Bool :=
  match p.cycle k with
  | none => true
  | some x => decide ((x - word c).toNat < 2 ^ 63)

/-- cwait (R177, R236): C is the cycle number at issue, whatever starts while the suspension waits for OL and OS. A task that suspends
only once the cycle it awaits has started, or its class has stopped, is ready at once. -/
def execCwait (d a b : BitVec 6) (s : State) : Out :=
  s.issue [gR a] fun t =>
    let n := (t.rg a.toNat).toNat
    let m := if n = 0 then 1 else min n 65535
    let w := d != 0 || b != 0 || m != n
    let sleep := fun (c : Nat) =>
      match s.mayPass with
      | some _ => s.stallWith (.cycle c)
      | none =>
        let till := (c + m) % 2 ^ 64
        let now := s.tick
        let slot := (t.task.map (·.slot)).getD 0
        s.keepStall (.cycle c) <| s.suspend (t.pc + 4) 6 (till % 65536) till w fun p => if p.reached t.cls till then p.wakeAs now slot true else p
    match t.stall with
    | some (.cycle c) => sleep c
    | _ =>
      match s.pkg.cycle t.cls with
      | none => s.retire t 4 true
      | some c => sleep c.toNat

/-- rdcyc (R177): a READ entry. -/
def execRdcyc (d a b : BitVec 6) (s : State) : Out :=
  s.issue [gR d, gR a] fun t =>
    s.read 0x2D 1 (s.pkg.cycleOf (bits (t.rg a.toNat) 0 3)) fun s1 v => s1.retire (t.wg d.toNat v) 4 (b != 0)

/-- H of the running task's class as the bench's node last received it (R254). -/
def State.nodeH (s : State) (n : Nat) : Nat :=
  let k := (s.thr n).cls
  if isSteward n then s.pkg.horizons.get 0 k else (s.pkg.bench (benchOf n)).nodeH.get 0 k

/-- hwait (R178): a wait that could never end answers 0 with WARN. -/
def execHwait (d a b : BitVec 6) (s : State) : Out :=
  s.issue [gR d, gR a] fun t =>
    let x := (t.rg a.toNat).toNat
    if t.ts.toNat ≤ x then s.retire (t.wg d.toNat 0) 4 true
    else if x < s.nodeH s.cur then s.retire (t.wg d.toNat 1) 4 (b != 0)
    else s.stallWith .generation

/-- rdhor: a READ entry. -/
def execRdhor (d a b : BitVec 6) (s : State) : Out :=
  s.issue [gR d] fun t =>
    s.read 0x2D 3 (word (s.nodeH s.cur)) fun s1 v => s1.retire (t.wg d.toNat v) 4 (a != 0 || b != 0)
/-- rdvis: a READ entry. -/
def execRdvis (d a b : BitVec 6) (s : State) : Out :=
  s.issue [gR d] fun t =>
    s.read 0x2D 4 (word (s.nodeV s.cur)) fun s1 v => s1.retire (t.wg d.toNat v) 4 (a != 0 || b != 0)

/-! ### Stamps and publish -/

/-- tsmin (R179). -/
def execTsmin (d a b : BitVec 6) (s : State) : Out :=
  s.issue [gR a] fun t =>
    let x := t.rg a.toNat
    s.retire { t with ts := if x.toNat < t.ts.toNat then x else t.ts } 4 (d != 0 || b != 0)
/-- tsrd (R179). -/
def execTsrd (d a b : BitVec 6) (s : State) : Out :=
  s.issue [gR d] fun t => s.retire (t.wg d.toNat t.ts) 4 (a != 0 || b != 0)

/-- The smaller of two stamps. -/
def minWord (x y : Word) : Word := if x.toNat < y.toNat then x else y

/-- stset (R180). -/
def execStset (d a b : BitVec 6) (s : State) : Out :=
  s.issue [gR a, gR b] fun t =>
    let r := bits (t.rg a.toNat) 0 8
    let ten := s.tenantOf s.cur
    let g := s.pkg.region ten r
    if g.kind = 0 then s.trap .stale (word r)
    else if g.kind = 1 then s.trap .xlatPerm (word r)
    else if t.os ≠ 0 then s.stallWith .ownStores
    else
      let x := t.rg b.toNat
      let m := minWord x t.ts
      ((s.flush 640).upd fun p => (p.nextSeq 640).2.wr (regionAddr ten r + 16) m).retire t 4
        (d != 0 || bits (t.rg a.toNat) 8 56 != 0 || m != x)

/-- The age stchk writes: max(C - S, 0), or all ones (R180). -/
def State.ageOf (s : State) (n r : Nat) : Word :=
  let g := s.pkg.region (s.tenantOf n) r
  if g.kind = 0 then allOnes
  else
    match s.pkg.age g with
    | none => allOnes
    | some x => word x.toNat

/-- stchk: a READ entry. -/
def execStchk (d a b : BitVec 6) (s : State) : Out :=
  s.issue [gR d, gR a] fun t =>
    let r := bits (t.rg a.toNat) 0 8
    s.read 0x2E 1 (s.ageOf s.cur r) fun s1 v => s1.retire (t.wg d.toNat v) 4 (b != 0 || bits (t.rg a.toNat) 8 56 != 0)
/-- stchk.x: the value is written, then a stale region traps. -/
def execStchkX (d a b : BitVec 6) (s : State) : Out :=
  s.issue [gR d, gR a] fun t =>
    let r := bits (t.rg a.toNat) 0 8
    let w := b != 0 || bits (t.rg a.toNat) 8 56 != 0
    s.read 0x2E 2 (s.ageOf s.cur r) fun s1 v =>
      let t' := t.wg d.toNat v
      if v = allOnes || decide ((s.pkg.region (s.tenantOf s.cur) r).limit < v.toNat) then
        .next (s1.trapFor s.cur t' .stale t.pc (word r))
      else s1.retire t' 4 w

/-- pub (R181). -/
def execPub (d a b : BitVec 6) (s : State) : Out :=
  s.issue [gR d, gR a, gR b] fun t =>
    let r := bits (t.rg a.toNat) 0 8
    let ten := s.tenantOf s.cur
    let g := s.pkg.region ten r
    if g.kind ≠ 2 then s.retire (t.wg d.toNat allOnes) 4 true
    else if t.os ≠ 0 then s.stallWith .ownStores
    else
      let x := t.rg b.toNat
      let m := minWord x t.ts
      let k := s.pkg.cls g.cls
      let due : Word :=
        match s.pkg.cycle g.cls with
        | none => allOnes
        | some c => if k.cutDone = some c.toNat then c + 1 else c
      ((s.flush 640).upd fun p =>
        let q := (p.nextSeq 640).2.wr (regionAddr ten r + 16) m
        { q with pubs := if q.pubs.contains (ten, r) then q.pubs else (ten, r) :: q.pubs }).retire (t.wg d.toNat due) 4 (m != x)

/-! ### Drawer operations (R150-R152) -/

/-- The checks of a drawer operation on the descriptor at g[a]. -/
def State.drawerOp (s : State) (a : Word) (k : Nat → Out) : Out :=
  let o := a.toNat - shelfBase
  if a.toNat % 64 ≠ 0 then s.trap .align a
  else if a.toNat < shelfBase ∨ shelfBase + 0x10000000 ≤ a.toNat ∨ o % 0x80000 < 0x5F000 ∨ 0x60000 ≤ o % 0x80000 then
    s.trap .shelfPerm a
  else if !s.pkg.inMap (s.tenantOf s.cur) (o / 0x80000 / 8) then s.trap .shelfPerm a
  else if !(s.pkg.drawer a.toNat).en then s.trap .shelfPerm a
  else k a.toNat

/-- A drawer operation leaves for the drawer's shelf, where ACCESS_AT_HOME performs it (R152). -/
def State.ask (s : State) (func a d b : Nat) (w : Word) : State :=
  { s.upd (fun p => { p with asks := p.asks ++ [⟨s.nextId, s.cur, func, a, d, b, w⟩] }) with nextId := s.nextId + 1 }

/-- dtake (R150, R151): the thread waits for the answer; where the drawer was found empty the task suspends, and is ready at once if a
slot was filled, or the drawer disabled, meanwhile. -/
def execDtake (d a b : BitVec 6) (s : State) : Out :=
  s.issue [gR d, gR a, .w b.toNat] fun t =>
    match t.stall with
    | some .asked => .next s
    | some .drawer =>
      match s.mayPass with
      | some _ => .next s
      | none =>
        let at_ := (t.rg a.toNat).toNat
        let slot := (t.task.map (·.slot)).getD 0
        let now := s.tick
        s.keepStall .drawer <| s.suspend t.pc 3 (keyOfDrawer at_) (keyOfDrawer at_) false fun p =>
          if !(p.drawer at_).en || (p.drawer at_).filled != 0 then p.wake now slot else p
    | _ => s.drawerOp (t.rg a.toNat) fun at_ => (s.ask 0 at_ d.toNat b.toNat 0).stallWith .asked

/-- dtake.try: 0 and the null witness for an empty drawer. -/
def execDtakeTry (d a b : BitVec 6) (s : State) : Out :=
  s.issue [gR d, gR a, .w b.toNat] fun t =>
    s.drawerOp (t.rg a.toNat) fun at_ => (s.ask 1 at_ d.toNat b.toNat 0).retire (t.mark [gR d, .w b.toNat]) 4 false

/-- dfree. -/
def execDfree (d a b : BitVec 6) (s : State) : Out :=
  s.issue [gR d, gR a] fun t =>
    s.drawerOp (t.rg a.toNat) fun at_ => (s.ask 2 at_ d.toNat 0 0).retire (t.mark [gR d]) 4 (b != 0)

/-- dclaim: stalls until a slot is free. -/
def execDclaim (d a b : BitVec 6) (s : State) : Out :=
  s.issue [gR d, gR a] fun t =>
    match t.stall with
    | some .asked => .next s
    | _ => s.drawerOp (t.rg a.toNat) fun at_ => (s.ask 3 at_ d.toNat (if b = 0 then 0 else 1) 0).stallWith .asked

/-- dclaim.try: 0 for a full drawer. -/
def execDclaimTry (d a b : BitVec 6) (s : State) : Out :=
  s.issue [gR d, gR a] fun t =>
    s.drawerOp (t.rg a.toNat) fun at_ => (s.ask 4 at_ d.toNat 0 0).retire (t.mark [gR d]) 4 (b != 0)

/-- dpost: w[b] is an input witness (R138). -/
def execDpost (d a b : BitVec 6) (s : State) : Out :=
  s.issue [gR d, gR a, .w b.toNat] fun t =>
    if !validWit (t.rw b.toNat) then s.trap .witness (t.rw b.toNat)
    else s.drawerOp (t.rg a.toNat) fun at_ => (s.ask 5 at_ d.toNat 0 (t.rw b.toNat)).retire (t.mark [gR d]) 4 false

/-- dprobe: DSTATE with EN in bit 63. -/
def execDprobe (d a b : BitVec 6) (s : State) : Out :=
  s.issue [gR d, gR a] fun t =>
    s.drawerOp (t.rg a.toNat) fun at_ => (s.ask 6 at_ d.toNat 0 0).retire (t.mark [gR d]) 4 (b != 0)

/-- DRAWER_ENABLE: the step at the home that sets EN of a descriptor (R149). -/
def execDrawerEnable (core n : Nat) (s : State) : Out :=
  let a := drawerAddr core n
  let old := readMem s.pkg.mem a 64
  .next (s.updBy .hub fun p => p.performAs none (a + 3) 1 a 64 (descriptorAfter old (old / 2 ^ 32 * 2 ^ 32 + 2 ^ 31 + old % 2 ^ 31)))

/-- DRAWER_DISABLE: the step at the home that clears EN; the readers become ready (R149, R151). -/
def execDrawerDisable (core n : Nat) (s : State) : Out :=
  let a := drawerAddr core n
  let old := readMem s.pkg.mem a 64
  let now := s.tick
  .next (s.updBy .hub fun p =>
    (p.performAs none (a + 3) 1 a 64 (descriptorAfter old (old / 2 ^ 32 * 2 ^ 32 + old % 2 ^ 31))).wakeReaders now a)

/-! ### Ring rotate (R153) -/

/-- A store or atomic of core c's threads to its own shelf is not yet performed. -/
def State.shelfStoresOut (s : State) (c : Nat) : Bool :=
  s.flight.any fun a => coreOf a.thread == c && (match a.kind with
    | .store _ => true
    | .atomic _ _ _ => true
    | .plain _ => false
    | .home => false) && (a.todo.any (fun p => homeOf p.addr == c) || a.acc.any fun x => x.2.1 == c)

/-- The rotate's joins agree on length and direction (R153). -/
def agree (js : List RotJoin) : Bool :=
  js.all fun j => j.down == (js.head?.map (·.down)).getD false && j.len == (js.head?.map (·.len)).getD 0

/-- The core whose tile core c receives. -/
def rotateFrom (down : Bool) (c : Nat) : Nat := if down then c / 8 * 8 + (c + 1) % 8 else c / 8 * 8 + (c + 7) % 8

/-- One core's join completes: its OS falls (R132). -/
def State.endJoin (s : State) (j : RotJoin) (f : Thread → Thread) (w : Bool) : State :=
  s.completeOf j.thread (fun t => { f t with os := t.os - 1 }) w

/-- The 64-byte lines of a tile that enters core c's shelf at an offset, each with its sequence number there (R133, R137). -/
def tileWrites (p : Pkg) (c off len tile : Nat) : List (Nat × Nat × Nat × Nat × Nat × Nat) :=
  (List.range (len / 64)).map fun i => (shelfOf c + off + 64 * i, 64, tile / 2 ^ (512 * i), c, (p.seqs.get 0 c + i) % 2 ^ 20, p.ecur)

/-- Home h gives n numbers. -/
def Pkg.skipSeqs (p : Pkg) (h n : Nat) : Pkg := { p with seqs := p.seqs.set 0 h ((p.seqs.get 0 h + n) % 2 ^ 20) }

/-- The neighbour's tile, as read before any write, is accepted by one core's shelf, which performs its lines one by one (R315). DEDUCED
(log 106): they are stores of the thread that joined. The last line's witness goes to w[d] and is merged into FW, an EPOCH entry where
Ecur enters it (R142, R146). -/
def rotateInto (tiles : List (RotJoin × Nat)) (wait : Out) (j : RotJoin) (s : State) (k : State → Out) : Out :=
  let c := coreOf j.thread
  match tiles.find? fun x => coreOf x.1.thread == rotateFrom j.down c with
  | none => k s
  | some x =>
    let n := j.len / 64
    let t := s.thr j.thread
    let q := (s.pkg.seqs.get 0 c + n - 1) % 2 ^ 20
    let s1 := (s.updBy (.thread j.thread) fun p => p.skipSeqs c n).sendWrites j.thread t.cls t.ts (tileWrites s.pkg c j.off j.len x.2)
    s1.mergeAt j.thread t.fw (witOf c q) wait fun s2 f =>
      k (s2.endJoin j (fun t => { t.ww j.w (witOf c q) with fw := f }) false)

/-- All eight cores have joined: tiles are read whole, then accepted by the neighbours' shelves, and each core gets the witness of the
writes into its own shelf; joins that differ move nothing. -/
def rotateAll (js : List RotJoin) (s : State) (wait : Out) : Out :=
  if !agree js then .next (js.foldl (fun s j => s.endJoin j (fun t => t.ww j.w 0) true) s)
  else
    let tiles := js.map fun j => (j, readMem s.pkg.mem (shelfOf (coreOf j.thread) + j.off) j.len)
    forEach (rotateInto tiles wait) js s .next

/-- The shelf offset of the first byte of a tile that the thread may not access: the area of R304 with S = 0, and what lies beyond
0x5_F000 (R131, R153); `none` where the tile is permitted. -/
def rotateBad (sup : Bool) (o n : Nat) : Option Nat :=
  if !sup && decide (o < 0x8000) && decide (0x3800 < o + n) then some (max o 0x3800)
  else if 0x5F000 < o + n then some (max o 0x5F000)
  else none

/-- rrot and rrot.dn (R153): the join counts in OS (R132). -/
def rotateForm (down : Bool) (d a b : BitVec 6) (s : State) : Out :=
  s.issue [.w d.toNat, gR a, gR b] fun t =>
    let off := t.rg a.toNat
    let len := t.rg b.toNat
    let o := off.toNat
    let n := s.cur
    let joined := (s.pkg.bench (benchOf n)).rotate
    if joined.any fun j => j.thread == n then s.stallWith .ring
    else if o % 64 ≠ 0 then s.trap .align off
    else if len.toNat % 64 ≠ 0 ∨ len.toNat < 64 ∨ 4096 < len.toNat then s.trap .align len
    else
      match rotateBad t.sup o len.toNat with
      | some x => s.trap .shelfPerm (word (shelfOf (coreOf n) + x))
      | none =>
        if t.os = 63 then s.stallWith .counter
        else if s.shelfStoresOut (coreOf n) then s.stallWith .ownStores
        else if joined.any fun j => coreOf j.thread == coreOf n then s.stallWith .ring
        else
          let mine : RotJoin := ⟨n, down, o, len.toNat, d.toNat⟩
          let s1 := s.setMe { t with os := t.os + 1 }
          if joined.length = 7 then
            rotateAll (joined ++ [mine]) (s1.upd fun p => p.onBench (benchOf n) fun x => { x with rotate := [] }) (s.stallWith .log)
          else (s1.upd fun p => p.onBench (benchOf n) fun x => { x with rotate := x.rotate ++ [mine] }).stallWith .ring

/-- rrot. -/
def execRrot (d a b : BitVec 6) (s : State) : Out := rotateForm false d a b s
/-- rrot.dn. -/
def execRrotDn (d a b : BitVec 6) (s : State) : Out := rotateForm true d a b s

end Sys2Proof.Machine
end

