-- ==== Sys2Proof/Machine/Engines.lean ====
section
/-! DEFINITION. Pushing a command (R187-R192, R200-R202), the queue fence (R205) and the token instructions (R184, R206-R210). -/

namespace Sys2Proof.Machine

/-! ### The command word (R187) -/

/-- The fields of CMD. -/
structure CmdFields where
  n : Nat := 0
  rop : Nat := 0
  mode : Bool := false
  raw : Bool := false
  clr : Bool := false
  only : Bool := false
  slot : Nat := 0
  tile : Nat := 0
  fmt : Nat := 0
  acc : Bool := false
  det : Bool := false
  pri : Nat := 0
  queue : Nat := 0
  kind : Nat := 0
  deriving DecidableEq, Repr

/-- CMD from its fields. -/
def CmdFields.word (c : CmdFields) : Word :=
  Machine.word (c.n * 2 ^ 32 + c.rop * 2 ^ 22 + num c.mode * 2 ^ 21 + num c.raw * 2 ^ 20 + num c.clr * 2 ^ 19 + num c.only * 2 ^ 18 +
    c.slot * 2 ^ 15 + c.tile * 2 ^ 13 + c.fmt * 2 ^ 10 + num c.acc * 2 ^ 9 + num c.det * 2 ^ 8 + c.pri * 2 ^ 6 + c.queue * 2 ^ 4 + c.kind)

/-- KIND names the Beryl engine; a KIND that names no engine goes to the copy engine (R191). -/
def berylKind (cmd : Word) : Bool := decide (8 ≤ bits cmd 0 4) && decide (bits cmd 0 4 ≤ 10)

/-- A field that the kind does not use is nonzero, KIND is unassigned, a reserved bit is set, or the kind does not accept FMT
(R187, R189, R196, R200-R202). -/
def badCmd (cmd w3 : Word) : Bool :=
  let kind := bits cmd 0 4
  let n := bits cmd 32 10
  let rop := bits cmd 22 4
  let mode := cmd.getLsbD 21
  let drain := cmd.getLsbD 20 || cmd.getLsbD 19 || cmd.getLsbD 18 || mode
  let slot := bits cmd 15 3
  let tile := bits cmd 13 2
  let fmt := bits cmd 10 3
  let acc := cmd.getLsbD 9
  bits cmd 42 22 != 0 || bits cmd 26 6 != 0 ||
    (if kind ≤ 2 then
      n != 0 || drain || slot != 0 || tile != 0 || fmt != 0 || acc || bits w3 32 31 != 0 ||
        (if kind = 1 then decide (9 ≤ rop) else rop != 0)
    else if kind = 8 then rop != 0 || drain || tile != 0 || acc || (fmt != 3 && fmt != 4)
    else if kind = 9 then rop != 0 || drain || (fmt != 3 && fmt != 4)
    else if kind = 10 then rop != 0 || slot != 0 || acc || (fmt != 0 && fmt != 1 && fmt != 2 && fmt != 5)
    else true)

/-- The size of an element that a drain other than RAW writes (R202). -/
def drainSize (fmt : Nat) : Nat := if fmt = 1 ∨ fmt = 2 then 2 else 4

/-- What is judged of the four words at the push (R189): cause, reason and FADDR. DESIGN CHOICE (log 89): of several conditions that fail,
BAD_CMD is recorded before BAD_N, BAD_N before WITNESS and ALIGN, and an address before a stride; the rule orders none. -/
def pushFault (cmd w1 w2 w3 : Word) : Option (Nat × Nat × Word) :=
  let kind := bits cmd 0 4
  let n := bits cmd 32 10
  let only := kind == 10 && cmd.getLsbD 18
  if badCmd cmd w3 then some (0x01, 5, 0)
  else if 8 ≤ kind ∧ !only ∧ (n = 0 ∨ 512 < n ∨ n % 16 ≠ 0) then some (0x01, 7, 0)
  else if kind ≤ 2 then
    if !validWit w2 then some (0x12, 0, 0) else none
  else if kind ≤ 9 then
    if w1.toNat % 16 ≠ 0 then some (0x03, 0, w1)
    else if w3.toNat % 16 ≠ 0 then some (0x03, 0, 0)
    else none
  else if cmd.getLsbD 20 then none
  else
    let z := drainSize (bits cmd 10 3)
    if w1.toNat % z ≠ 0 then some (0x03, 0, w1)
    else if w2.toNat % z ≠ 0 then some (0x03, 0, 0)
    else none

/-! ### The push (R191) -/

/-- The lowest free slot of a core for an engine; a steward has none (R13, R183). -/
def Pkg.freeOp (p : Pkg) (core : Nat) (beryl : Bool) : Option Nat :=
  if 512 ≤ core then none
  else
    let base := core / 8 * 1024 + if beryl then 768 + 8 * (core % 8) else 96 * (core % 8)
    ((List.range (if beryl then 8 else 96)).map fun i => base + i).find? fun k => (p.op k).isNone

/-- The command FIFO has room: 16 commands (R217). -/
def Pkg.fifoRoom (p : Pkg) (core : Nat) : Bool := decide ((p.core core).fifo.length < 16)

/-- An op as its push leaves it. -/
def newOp (s : State) (cmd w1 w2 w3 token : Word) : Op :=
  let t := s.me
  { cmd := cmd, w1 := w1, w2 := w2, w3 := w3, state := 0, cause := 0, reason := 0, flags := 0, prog := 0, faddr := 0, witn := 0
    token := token
    owner := match t.task with
      | some k => .task k.tenant k.slot
      | none => .gone
    tenant := s.tenantOf s.cur, job := t.job, cls := t.cls, stamp := t.ts, sup := t.sup, thread := some s.cur, place := 0
    descRead := false, leaveAsked := none, leaveHeld := 0, claim := none, posted := false, stopping := false, homes := [], chunks := []
    plan := none, finished := false, born := s.pkg.arrival, pageReq := none, counted := !(cmd.getLsbD 8), stopped := false
    issued := 0, rows := [], behind := [], written := [] }

/-- The command enters the FIFO, and the thread's counter rises for an attached op. -/
def State.enterOp (s : State) (k : Nat) (o : Op) : State :=
  let s1 := s.upd fun p =>
    ({ p with arrival := p.arrival + 1 }.setOp k (some o)).onCore (coreOf s.cur) fun c => { c with fifo := c.fifo ++ [Cmd.op k] }
  let t := s.me
  if !o.counted then s1 else s1.setMe (if isCopy k then { t with oc := t.oc + 1 } else { t with ot := t.ot + 1 })

/-- A push: `done` completes the instruction with the value of g[d]. The slot given is a SLOT entry (R211, R262); engines that stop take
none (R286). DESIGN CHOICE (log 114): a slot has one generation counter whatever tenant its bench runs, so an op of an incoming tenant may
share slot and generation, which make the op identity of R289, with one that is journalled away. -/
def State.push (s : State) (cmd w1 w2 w3 : Word) (try_ : Bool) (done : State → Word → Out) : Out :=
  let core := coreOf s.cur
  let beryl := berylKind cmd
  let t := s.me
  if (if beryl then t.ot else t.oc) = 63 then s.stallWith .counter
  else
    let free := s.pkg.freeOp core beryl
    let room := free.isSome && s.pkg.fifoRoom core && !s.pkg.halting (core / 8)
    let k0 := free.getD 0
    let tok := tokenOf cmd t.job (s.pkg.gens.get 1 k0) k0
    let create := fun (s1 : State) =>
      s1.choose ⟨0x0A, engineSite k0, (if isCopy k0 then k0 % 1024 else k0 % 1024 - 768), tok⟩ false (s.stallWith .log) fun s2 e =>
        let k := tokenKey e.val
        if (s2.pkg.op k).isSome then s.stallWith .log
        else
          let s3 := s2.enterOp k (newOp s cmd w1 w2 w3 e.val)
          match pushFault cmd w1 w2 w3 with
          | none => done s3 e.val
          | some (c, r, a) => s3.endOp k 5 c r a (s.stallWith .log) fun s4 => done s4 e.val
    if try_ then
      s.read 0x30 1 (if room then tok else 0) fun s1 v =>
        if v = 0 then done s1 0 else if room then create s1 else s.stallWith .log
    else if room then create s
    else
      match t.stall with
      | some (.fifo _ _) => .next s
      | _ => s.stallWith (.fifo s.tick (num beryl))

/-- Completion of a push that accepts no prefix. -/
def pushDone (d : BitVec 6) (w : Bool) (s : State) (v : Word) : Out := s.retire (s.me.wg d.toNat v) 4 w

/-- Completion of a push that accepts one (R44). -/
def pushDonePfx (d : BitVec 6) (w : Bool) (s : State) (v : Word) : Out := s.retirePrefixed (s.me.wg d.toNat v) 4 w

/-- x[n]. -/
def xR (n : BitVec 3) (i : Nat) : Reg := .x (n.toNat + i)

/-- cq and cq.try: the four words are x[n] to x[n+3]. -/
def cqForm (try_ : Bool) (d : BitVec 6) (x : BitVec 3) (s : State) : Out :=
  s.issue [gR d, xR x 0, xR x 1, xR x 2, xR x 3] fun t =>
    s.push (t.rx x.toNat) (t.rx (x.toNat + 1)) (t.rx (x.toNat + 2)) (t.rx (x.toNat + 3)) try_ (pushDone d false)

/-- cq (R191). -/
def execCq (d : BitVec 6) (x : BitVec 3) (s : State) : Out := cqForm false d x s
/-- cq.try (R191): 0 where nothing is pushed, a READ entry. -/
def execCqTry (d : BitVec 6) (x : BitVec 3) (s : State) : Out := cqForm true d x s

/-- The running task's PRI. -/
def Thread.taskPri (t : Thread) : Nat := (t.task.map (·.pri)).getD 0

/-- A copy of the given kind: words 1-3 from x[n] to x[n+2] (major 0x31). -/
def copyForm (kind : Nat) (d : BitVec 6) (x : BitVec 3) (det : Bool) (q : BitVec 2) (rop : Nat) (s : State) : Out :=
  s.issue [gR d, xR x 0, xR x 1, xR x 2] fun t =>
    let c : CmdFields := { kind := kind, rop := rop, det := det, queue := q.toNat, pri := t.taskPri }
    s.push c.word (t.rx x.toNat) (t.rx (x.toNat + 1)) (t.rx (x.toNat + 2)) false (pushDone d false)

/-- copy. -/
def execCopy (d : BitVec 6) (x : BitVec 3) (det : Bool) (q : BitVec 2) (s : State) : Out := copyForm 0 d x det q 0 s
/-- copy.red. -/
def execCopyRed (d : BitVec 6) (x : BitVec 3) (det : Bool) (q : BitVec 2) (rop : BitVec 4) (s : State) : Out :=
  copyForm 1 d x det q rop.toNat s
/-- copy.mc. -/
def execCopyMc (d : BitVec 6) (x : BitVec 3) (det : Bool) (q : BitVec 2) (s : State) : Out := copyForm 2 d x det q 0 s

/-- N of a Beryl form. -/
def formN (w : Word) : Nat := min w.toNat 1023

/-- A prefix field with what it accepts beside its default: the format code and whether it fell back. -/
def pick (t : Thread) (lo dflt : Nat) (others : List Nat) : Nat × Bool :=
  if !t.pp then (dflt, false)
  else
    let f := bits t.pfx lo 3
    if f = dflt || others.contains f then (f, false) else (dflt, true)

/-- bwl (R200): FMT from the prefix B. -/
def execBwl (d : BitVec 6) (x : BitVec 3) (g : BitVec 6) (q : BitVec 2) (slot : BitVec 3) (det : Bool) (s : State) : Out :=
  s.issue [gR d, gR g, xR x 0, xR x 1, xR x 2] fun t =>
    let f := pick t 5 3 [4]
    let plane := if f.1 = 4 then t.plane else 0
    let c : CmdFields :=
      { kind := 8, n := formN (t.rg g.toNat), slot := slot.toNat, fmt := f.1, det := det, queue := q.toNat, pri := t.taskPri }
    s.push c.word (t.rx x.toNat) (t.rx (x.toNat + 1) + word (1024 * plane)) (t.rx (x.toNat + 2)) false
      (pushDonePfx d (f.2 || t.sat || (t.pp && t.pfx.getLsbD 4) || plane != t.plane))

/-- bmm (R201): FMT from the prefix A, ACC from the prefix. -/
def execBmm (d : BitVec 6) (x : BitVec 3) (g : BitVec 6) (q : BitVec 2) (slot : BitVec 3) (tile : BitVec 2) (det : Bool)
    (s : State) : Out :=
  s.issue [gR d, gR g, xR x 0, xR x 1, xR x 2] fun t =>
    let f := pick t 8 3 [4]
    let plane := if f.1 = 4 then t.plane else 0
    let c : CmdFields :=
      { kind := 9, n := formN (t.rg g.toNat), slot := slot.toNat, tile := tile.toNat, fmt := f.1, acc := t.pp && t.pfx.getLsbD 4
        det := det, queue := q.toNat, pri := t.taskPri }
    s.push c.word (t.rx x.toNat) (t.rx (x.toNat + 1) + word (64 * plane)) (t.rx (x.toNat + 2)) false
      (pushDonePfx d (f.2 || t.sat || plane != t.plane))

/-- bdr (R202): FMT from the prefix A, which RAW ignores. -/
def execBdr (d : BitVec 6) (x : BitVec 3) (g : BitVec 6) (q : BitVec 2) (clr raw : Bool) (tile : BitVec 2) (mode det : Bool)
    (s : State) : Out :=
  s.issue [gR d, gR g, xR x 0, xR x 1, xR x 2] fun t =>
    let f := if raw then (0, false) else pick t 8 0 [1, 2, 5]
    let c : CmdFields :=
      { kind := 10, n := formN (t.rg g.toNat), tile := tile.toNat, fmt := f.1, clr := clr, raw := raw, mode := mode, det := det
        queue := q.toNat, pri := t.taskPri }
    s.push c.word (t.rx x.toNat) (t.rx (x.toNat + 1)) (t.rx (x.toNat + 2)) false
      (pushDonePfx d (f.2 || t.sat || (t.pp && t.pfx.getLsbD 4) || t.plane != 0))

/-- bclr (R202): ONLY = 1; it reads no x and no general register. -/
def execBclr (d : BitVec 6) (x : BitVec 3) (g : BitVec 6) (q : BitVec 2) (clr raw : Bool) (tile : BitVec 2) (mode det : Bool)
    (s : State) : Out :=
  s.issue [gR d] fun t =>
    let f := if raw then (0, false) else pick t 8 0 [1, 2, 5]
    let c : CmdFields :=
      { kind := 10, tile := tile.toNat, fmt := f.1, clr := clr, raw := raw, only := true, mode := mode, det := det
        queue := q.toNat, pri := t.taskPri }
    s.push c.word 0 0 0 false
      (pushDonePfx d (x != 0 || g != 0 || f.2 || t.sat || (t.pp && t.pfx.getLsbD 4) || t.plane != 0))

/-- qfence (R205): the fence enters the FIFO in push order; a steward has no queues. -/
def execQfence (d a b : BitVec 6) (s : State) : Out :=
  s.issue [gR a] fun t =>
    let mask := bits (t.rg a.toNat) 0 8
    let w := d != 0 || b != 0 || bits (t.rg a.toNat) 8 56 != 0 || mask == 0
    let core := coreOf s.cur
    if mask = 0 || isSteward s.cur then s.retire t 4 w
    else if !s.pkg.fifoRoom core then
      match t.stall with
      | some (.fifo _ _) => .next s
      | _ => s.stallWith (.fifo s.tick 2)
    else (s.upd fun p => p.onCore core fun c => { c with fifo := c.fifo ++ [.fence mask s.cur] }).retire t 4 w

/-! ### Tokens (R184) -/

/-- The checks of R184: `k` gets the op's key, and the op unless the token is stale. -/
def State.token (s : State) (t : Word) (k : Nat → Option Op → Out) : Out :=
  if bits t 59 5 ≠ 0 ∨ bits t 22 2 ≠ 0 ∨ 2 ≤ bits t 12 4 ∨ (if bits t 12 4 = 0 then 768 else 64) ≤ bits t 0 12 ∨ bits t 24 16 = 0
  then s.trap (.token 4) t
  else if !s.pkg.inMap (s.tenantOf s.cur) (bits t 16 6) then s.trap .shelfPerm t
  else if bits t 40 16 ≠ s.me.job then s.trap (.token 3) t
  else
    let slot := tokenKey t
    let key := s.pkg.opKey (s.tenantOf s.cur) slot
    if s.pkg.gens.get 1 slot ≠ bits t 24 16 then k key none else k key (s.pkg.tokenOp key)

/-- The running task owns the op. -/
def State.owns (s : State) (o : Op) : Bool :=
  match s.me.task with
  | some k => o.owner == .task k.tenant k.slot
  | none => false

/-- What twait and twait.s do with an ended op: STATE and WITN, and the owner reaps it. -/
def waitEnd (d b : BitVec 6) (key : Nat) (o : Op) (s : State) : Out :=
  let done := fun (s1 : State) => s1.retire ((s1.me.wg d.toNat (word o.state)).ww b.toNat o.witn) 4 false
  if s.owns o then s.reapBy (.thread s.cur) s.cur key (s.stallWith .log) done else done s

/-- twait (R206). -/
def execTwait (d a b : BitVec 6) (s : State) : Out :=
  s.issue [gR d, gR a, .w b.toNat] fun t =>
    let tok := t.rg a.toNat
    s.token tok fun key o =>
      match o with
      | none => s.trap (.token 1) tok
      | some o =>
        if o.ended then waitEnd d b key o s
        else
          match s.mayPass with
          | some st => s.stallWith st
          | none => s.suspend t.pc 4 (bits tok 0 16) key false id

/-- twait.s (R206). -/
def execTwaitS (d a b : BitVec 6) (s : State) : Out :=
  s.issue [gR d, gR a, .w b.toNat] fun t =>
    let tok := t.rg a.toNat
    s.token tok fun key o =>
      match o with
      | none => s.trap (.token 1) tok
      | some o => if o.ended then waitEnd d b key o s else s.stallWith .token

/-- tpoll (R206): a READ entry; a stale token gives 7. -/
def execTpoll (d a b : BitVec 6) (s : State) : Out :=
  s.issue [gR d, gR a] fun t =>
    s.token (t.rg a.toNat) fun _ o =>
      let v := match o with
        | none => 7
        | some o => word (o.state + 8 * num o.det + 16 * o.pri)
      s.read 0x35 2 v fun s1 x => s1.retire (t.wg d.toNat x) 4 (b != 0)

/-- The answer of a tcancel that arrives now (R207). -/
def cancelCode (o : Option Op) (key : Nat) : Nat :=
  match o with
  | none => 0
  | some o =>
    if o.ended then 0
    else if o.state ≤ 1 then 1
    else if isCopy key then 2
    else if o.state = 2 then 3
    else 2

/-- What a `tcancel` whose answer is v does where the op as it stands gives code c: it takes effect now, it waits, or the replay has gone
past what the log names. -/
inductive CancelStep where
  | now
  | early
  | wait
  | past
  deriving DecidableEq, Repr

/-- The step of a `tcancel`: where the package leads, v is c. DEDUCED (log 94): in replay the log's answer holds (R211), an op that has not
come as far waits, and one that has started and done nothing yet is cancelled as if it had not (R283). -/
def cancelStep (o : Op) (copy : Bool) (forced : Option Nat) (c v : Nat) : CancelStep :=
  if v = c then .now
  else if c = 0 then (if v = 3 then .now else .past)
  else if v = 0 ∨ v = 3 then .wait
  else if v = 1 then (if o.prog = 0 ∧ o.issued = 0 ∧ !o.finished then .early else .past)
  else if copy && forced == some 0 then .early
  else .wait

/-- tcancel (R207): a READ entry. One that stops a running copy completes when the copy has ended. -/
def execTcancel (d a b : BitVec 6) (s : State) : Out :=
  s.issue [gR d, gR a] fun t =>
    let tok := t.rg a.toNat
    s.token tok fun key o =>
      let live := match o with
        | some o => !o.ended
        | none => false
      match t.stall with
      | some .token => if live then .next s else s.retire (t.wg d.toNat 2) 4 (b != 0)
      | _ =>
        let code := cancelCode o key
        s.read 0x36 0 (word code) fun s1 v =>
          let done := fun (s2 : State) => s2.retire (s2.me.wg d.toNat v) 4 (b != 0)
          match o with
          | none => done s1
          | some x =>
            let forced := if s.replaying then chunkOf key s.pair.inbox else none
            match cancelStep x (isCopy key) forced code v.toNat with
            | .now => s1.cancelOp key (s.stallWith .log) fun s2 c =>
                if c = 2 && ((s2.pkg.op key).map (fun o => !o.ended)).getD false then s2.stallWith .token else done s2
            | .early =>
              let end_ := fun (s2 : State) => s2.endOp key 6 0x0F 0 0 (s.stallWith .log) done
              if isCopy key then s1.chooseLate (chunkEntry key x) (s.stallWith .log) fun s2 _ => end_ s2 else end_ s1
            | .wait => s.stallWith .log
            | .past => .next s1.diverge

/-- The op leaves its thread's counter (R192). -/
def State.uncount (s : State) (k : Nat) : State :=
  match s.pkg.op k with
  | none => s
  | some o =>
    let s1 := s.upd fun p => p.onOp k fun o => { o with counted := false }
    match o.thread with
    | some n =>
      let t := s.thr n
      if o.counted then s1.setThr n (if isCopy k then { t with oc := t.oc - 1 } else { t with ot := t.ot - 1 }) else s1
    | none => s1

/-- tdet (R208): a READ entry. -/
def execTdet (d a b : BitVec 6) (s : State) : Out :=
  s.issue [gR d, gR a] fun t =>
    let tok := t.rg a.toNat
    s.token tok fun key o =>
      let mine := (o.map s.owns).getD false
      s.read 0x36 1 (if mine then setBits tok 56 1 1 else 0) fun s1 v =>
        if v = 0 then s1.retire (t.wg d.toNat 0) 4 (b != 0)
        else
          let s2 := (s1.upd fun p => p.onOp key fun o => { o with cmd := setBits o.cmd 8 1 1 }).uncount key
          s2.retire (s2.me.wg d.toNat v) 4 (b != 0)

/-- A task may adopt the op: detached, and owned by a task or the tenant. -/
def adoptable (o : Op) : Bool :=
  o.det && match o.owner with
    | .task _ _ => true
    | .tenant _ => true
    | .block _ _ => false
    | .gone => false

/-- tadopt (R208, R283): an ARB step at the engine's slot, and a READ entry. -/
def execTadopt (d a b : BitVec 6) (s : State) : Out :=
  s.issue [gR d, gR a] fun t =>
    let tok := t.rg a.toNat
    s.token tok fun key o =>
      let go := fun (s1 : State) =>
        let ok := (o.map adoptable).getD false
        s1.read 0x36 2 (if ok then setBits tok 56 1 0 else 0) fun s2 v =>
          match v == 0, t.task with
          | false, some k =>
            (s2.upd fun p => p.onOp key fun o =>
              { o with owner := .task k.tenant k.slot, cmd := setBits o.cmd 8 1 0, counted := false }).retire
                (t.wg d.toNat v) 4 (b != 0)
          | _, _ => s2.retire (t.wg d.toNat v) 4 (b != 0)
      match o with
      | none => go s
      | some _ => s.arbitrate (engineSite key) 1 s.cur (s.stallWith .log) go

/-- tpri (R208, R280): a READ entry; the PRI of a live op changes and its place in its queue does not. -/
def execTpri (d a b : BitVec 6) (s : State) : Out :=
  s.issue [gR d, gR a, gR b] fun t =>
    let tok := t.rg a.toNat
    s.token tok fun key o =>
      let live := (o.map fun o => !o.ended).getD false
      let pri := bits (t.rg b.toNat) 0 2
      s.read 0x36 3 (if live then setBits tok 57 2 pri else 0) fun s1 v =>
        let s2 := if v = 0 then s1 else s1.upd fun p => p.onOp key fun o => { o with cmd := setBits o.cmd 6 2 pri }
        s2.retire (t.wg d.toNat v) 4 false

/-- tfrec (R190, R210): a READ entry. WITN of a live op with writes at three homes or more takes Ecur, an EPOCH entry. -/
def execTfrec (d a n : BitVec 6) (s : State) : Out :=
  s.issue [gR d, gR a] fun t =>
    let tok := t.rg a.toNat
    s.token tok fun _ o =>
      match o with
      | none => s.trap (.token 1) tok
      | some o =>
        let done := fun (s1 : State) (v : Word) => s1.read 0x37 1 v fun s2 x => s2.retire (t.wg d.toNat x) 4 false
        match n.toNat with
        | 0 => done s o.status
        | 1 => done s o.faddr
        | 2 =>
          if o.ended then done s o.witn
          else if 3 ≤ o.homes.length then s.epochAt s.cur (s.stallWith .log) fun s1 e => done s1 (epochWit e)
          else done s (homesWit s.pkg.ecur o.homes)
        | _ => done s o.token

end Sys2Proof.Machine
end

