-- ==== Sys2Proof/Machine/OpEvents.lean ====
section
/-! DEFINITION. The steps of ops on their engines (R186, R193-R199, R204, R205, R279, R280, R289-R291, R311, R383) and starved
pushes (R191, R296). -/

namespace Sys2Proof.Machine

/-! ### Queues (R204, R205) -/

/-- Every fence that a stop found before an op lets it pass (R321). -/
def Pkg.unfenced (p : Pkg) (k : Nat) : Bool := ((p.op k).map fun o => o.behind.all fun f => (p.fences.get [] f).isEmpty).getD true

/-- The head of a queue once markers that hold nothing back are gone. -/
def Pkg.headOf (p : Pkg) : List QItem → Option Nat
  | [] => none
  | .op k :: _ => if p.unfenced k then some k else none
  | .marker f :: r => if (p.fences.get [] f).isEmpty then p.headOf r else none

/-- Drop the leading markers that hold nothing back. -/
def dropMarkers (fences : Store (List Nat)) : List QItem → List QItem
  | [] => []
  | .op k :: r => .op k :: r
  | .marker f :: r => if (fences.get [] f).isEmpty then dropMarkers fences r else .marker f :: r

/-- The heads of the copy queues of a bench, in the order of queue number, then core. -/
def Pkg.copyHeads (p : Pkg) (b : Nat) : List Nat :=
  [0, 1, 2, 3].flatMap fun q => (List.range 8).filterMap fun i => p.headOf ((p.core (8 * b + i)).queues.get [] q)

/-- The heads of the Beryl queues of a bench. -/
def Pkg.berylHeads (p : Pkg) (b : Nat) : List Nat :=
  [0, 1, 2, 3].filterMap fun q => p.headOf ((p.bench b).bqueues.get [] q)

/-- The queue an op stands in has it at its head. -/
def Pkg.isHead (p : Pkg) (k : Nat) : Bool :=
  if isCopy k then (p.copyHeads (opBench k)).contains k else (p.berylHeads (opBench k)).contains k

/-- The op at the head of its queue leaves it. -/
def Pkg.leaveQueue (p : Pkg) (k : Nat) : Pkg :=
  let cut := fun (l : List QItem) => (dropMarkers p.fences l).filter fun x => x != .op k
  match p.op k with
  | none => p
  | some o =>
    if isCopy k then p.onCore (opCore k) fun c => { c with queues := c.queues.set [] o.queue (cut (c.queues.get [] o.queue)) }
    else p.onBench (opBench k) fun b => { b with bqueues := b.bqueues.set [] o.queue (cut (b.bqueues.get [] o.queue)) }

/-- The ops a fence of core c with a mask waits for: queued or started, not ended, of the queues it names (R205). -/
def Pkg.aheadOf (p : Pkg) (c mask : Nat) : List Nat :=
  p.ops.filterMap fun x => match x.2 with
    | some o =>
      let named := if isCopy x.1 then opCore x.1 == c && mask.testBit o.queue else opBench x.1 == c / 8 && mask.testBit (4 + o.queue)
      if named && !isOut x.1 && !o.ended && o.place != 0 then some x.1 else none
    | none => none

/-! ### Leave (R279, R383) -/

/-- The demand of an op. -/
def Op.demand (o : Op) : Nat := if o.kind = 9 then o.n / 16 else if o.kind = 8 then 8 else 4

/-- USED, CAP and RSV of a die's governor. -/
def Pkg.governor (p : Pkg) (die : Nat) : Nat × Nat × Nat :=
  let g := p.pgov.get pgovReset die
  (bits g 40 12, bits g 16 12, bits g 28 12)

/-- A request of demand d and priority p fits (R383). -/
def Pkg.fits (p : Pkg) (die d pri : Nat) : Bool :=
  let (used, cap, rsv) := p.governor die
  let limit := if pri = 0 then cap else cap - rsv
  decide (used + d ≤ limit) || (decide (limit < d) && used == 0)

/-- The waiting requests of a die: key, PRI, arrival, demand. -/
def Pkg.requests (p : Pkg) (die : Nat) : List (Nat × Nat × Nat × Nat) :=
  p.ops.filterMap fun x => match x.2 with
    | some o => match o.leaveAsked with
      | some n => if opBench x.1 / 16 = die ∧ !o.ended then some (x.1, o.pri, n, o.demand) else none
      | none => none
    | none => none

/-- A request can be granted: it fits, and none earlier of equal or lower PRI value waits. -/
def Pkg.grantable (p : Pkg) (die : Nat) (r : Nat × Nat × Nat × Nat) : Bool :=
  p.fits die r.2.2.2 r.2.1 &&
    !((p.requests die).any fun q => decide (q.2.2.1 < r.2.2.1) && decide (q.2.1 ≤ r.2.1))

/-- An op asks for leave and enters LEAVE; a request that cannot be granted at once counts in WAITS. -/
def Pkg.askLeave (p : Pkg) (k : Nat) : Pkg :=
  let q := { p with arrival := p.arrival + 1 }.onOp k fun o => { o with state := 1, leaveAsked := some p.arrival }
  let die := opBench k / 16
  match (q.requests die).find? fun r => r.1 == k with
  | none => q
  | some r =>
    if q.grantable die r then q
    else
      let g := q.pgov.get pgovReset die
      { q with pgov := q.pgov.set pgovReset die (setBits g 0 16 (bits g 0 16 + 1)) }

/-- A Beryl op that needs leave asks for it at the head of its queue (R279). -/
def Pkg.settleHeads (p : Pkg) (b : Nat) : Pkg :=
  (p.berylHeads b).foldl (fun p k =>
    match p.op k with
    | some o => if o.state = 0 ∧ o.kind ≤ 9 ∧ o.leaveHeld = 0 ∧ o.leaveAsked.isNone then p.askLeave k else p
    | none => p) p

/-- LEAVE_GRANT: of the requests that can be granted, the first in order of PRI, then arrival, gets its units (R383). -/
def execLeaveGrant (die : Nat) (s : State) : Out :=
  let s0 := (List.range 16).foldl (fun (s : State) i => s.updBy .hub fun p => p.settleHeads (16 * die + i)) s
  let ok := (s0.pkg.requests die).filter fun r => s0.pkg.grantable die r
  let best := ok.foldl (fun (b : Option (Nat × Nat × Nat × Nat)) r =>
    match b with
    | none => some r
    | some x => if r.2.1 < x.2.1 ∨ (r.2.1 = x.2.1 ∧ r.2.2.1 < x.2.2.1) then some r else some x) none
  match best with
  | none => .next s0
  | some r =>
    .next (s0.updBy (.op r.1) fun p =>
      let g := p.pgov.get pgovReset die
      { p with pgov := p.pgov.set pgovReset die (setBits g 40 12 (bits g 40 12 + r.2.2.2)) }.onOp r.1 fun o =>
        { o with leaveAsked := none, leaveHeld := r.2.2.2 })

/-! ### From the FIFO into a queue (R191, R205, R280) -/

/-- The commands at the heads of a bench's FIFOs that enter one of the Beryl queues of a mask (R262). -/
def Pkg.entering (p : Pkg) (b mask : Nat) : Nat :=
  ((List.range 8).filter fun i => match (p.core (8 * b + i)).fifo with
    | .op k :: _ => !isCopy k && mask.testBit (((p.op k).map (·.queue)).getD 0)
    | .fence m _ :: _ => (List.range 4).any fun q => mask.testBit q && m.testBit (4 + q)
    | [] => false).length

/-- An op enters its queue; one that a stop found SUSPENDED before it had started reads its descriptor or its A once more (R286). -/
def Pkg.enterOp (p : Pkg) (k : Nat) (o : Op) : Pkg :=
  let q := p.onOp k fun o => { o with place := 1, state := if o.state = 3 ∧ !o.stopped then num (o.kind == 9) else o.state }
  if isCopy k then q.onCore (opCore k) fun c => { c with queues := c.queues.set [] o.queue (c.queues.get [] o.queue ++ [.op k]) }
  else q.onBench (opBench k) fun x => { x with bqueues := x.bqueues.set [] o.queue (x.bqueues.get [] o.queue ++ [.op k]) }

/-- A fence of a core places its markers (R205). -/
def Pkg.enterFence (p : Pkg) (core mask : Nat) : Pkg :=
  let id := p.fenceN
  let mark := fun (l : List QItem) => l ++ [.marker id]
  ({ p with fences := p.fences.set [] id (p.aheadOf core mask), fenceN := id + 1 }.onCore core fun c =>
    { c with
      queues := (List.range 4).foldl (fun (m : Store (List QItem)) i =>
        if mask.testBit i then m.set [] i (mark (m.get [] i)) else m) c.queues }).onBench (core / 8) fun x =>
      { x with
        bqueues := (List.range 4).foldl (fun (m : Store (List QItem)) i =>
          if mask.testBit (4 + i) then m.set [] i (mark (m.get [] i)) else m) x.bqueues }

/-- The oldest command leaves a core's FIFO. -/
def Pkg.popFifo (p : Pkg) (core : Nat) : Pkg := p.onCore core fun c => { c with fifo := c.fifo.drop 1 }

/-- Whose work the entering of a command is. -/
def Cmd.actor : Cmd → Actor
  | .op key => .op key
  | .fence _ n => .thread n

/-- A command of a core enters its queues; one that enters a Beryl queue is an ARB step (R262, R280). -/
def State.enterCmd (s : State) (core : Nat) (c : Cmd) (wait : Out) (k : State → Out) : Out :=
  let b := core / 8
  match c with
  | .op key =>
    match s.pkg.op key with
    | none => k s
    | some o =>
      let enter := fun (s1 : State) => k (s1.updBy (.op key) fun p => p.enterOp key o)
      if isCopy key then enter s else s.arbitrate (0x1000 + b) (max 1 (s.pkg.entering b (2 ^ o.queue))) (opSource key) wait enter
  | .fence mask n =>
    let enter := fun (s1 : State) => k (s1.updBy (.thread n) fun p => p.enterFence core mask)
    if mask < 16 then enter s else s.arbitrate (0x1000 + b) (max 1 (s.pkg.entering b (mask / 16))) n wait enter

/-- COMMAND_ENQUEUE: the oldest command of a core's FIFO enters its queue. -/
def execCommandEnqueue (core : Nat) (s : State) : Out :=
  match if s.pkg.halting (core / 8) then [] else (s.pkg.core core).fifo with
  | [] => .next s
  | c :: _ => s.enterCmd core c (.next s) fun s1 => .next (s1.updBy c.actor fun p => (p.popFifo core).settleHeads (core / 8))

/-! ### Accesses of an engine (R131, R195, R332) -/

/-- The V that an engine sees is its bench node's. -/
def State.engineV (s : State) (b : Nat) : Nat := (s.pkg.bench b).nodeV

/-- The checks of an engine's access by its core's TLB and its die's walkers, under the S of the op's pusher (R332). The stamp table takes
only loads and stores of threads (R239), and a reducing copy writes no home outside the package (R291). -/
def State.engineView (s : State) (key : Nat) (o : Op) (u : Use) (a : Word) : Chk :=
  if imageBase + 0xFF0000 ≤ a.toNat ∧ a.toNat < imageBase + 0x1000000 then .fault .xlatPerm
  else
    match s.viewAs (opCore key) (opBench key / 16) o.tenant o.sup u a with
    | .ok pa leaf => if u = .atomic && isForeign pa then .fault .xlatPerm else .ok pa leaf
    | .fault c => .fault c
    | .absent l sp at_ => .absent l sp at_

/-- The bytes at a resolved address, as an engine reads them at the home; a foreign home's are open. -/
def State.engineBytes (s : State) (a n : Nat) : Nat :=
  if isForeign a then bytesNat ((List.range n).map fun i => s.foreignAt (a + i) i) else readMem s.pkg.mem a n

/-- What the check of a list of engine accesses finds: the first that is not permitted, else the first that is not present, else all of
them (R195); or that one must wait. -/
inductive Found where
  | ok (addrs : List Nat) (leaves : List (Leaf × Use))
  | fault (cause : Nat) (a : Word)
  | absent (a : Word) (level : Nat) (spr : Bool) (at_ : Nat)
  | wait
  deriving DecidableEq, Repr

/-- A further access, checked before the others: a permission failure wins over a page that is not present, whichever comes first (R195). -/
def Found.after (c : Checked) (u : Use) (r : Found) : Found :=
  match c, r with
  | .fault c b, _ => .fault c.code b
  | _, .fault c b => .fault c b
  | _, .wait => .wait
  | .absent b l sp at_, _ => .absent b l sp at_
  | .ok _ _, .absent b l sp at_ => .absent b l sp at_
  | .ok ps ls, .ok as ms => .ok (ps.map (·.addr) ++ as) (ls.map (fun l => (l, u)) ++ ms)

/-- Check a list of accesses, each within a line. -/
def State.engineChecks (s : State) (key : Nat) (o : Op) : List (Use × Word × Nat) → Found
  | [] => .ok [] []
  | (u, a, n) :: r => Found.after (checkParts (s.engineView key o u) u [(a, n, 0)]) u (s.engineChecks key o r)

/-- What the check of an op's accesses finds: they wait while a page of theirs moves to another package (R341), or while the entry of a
latch that is due has not come (R265). -/
def State.engineFind (s : State) (key : Nat) (o : Op) (xs : List (Use × Word × Nat)) : Found :=
  if xs.any fun x => s.pkg.pageMoves o.tenant x.2.1 x.2.2 then .wait
  else
    match s.engineChecks key o xs with
    | .ok as ls => if (xs.zip as).any fun x => x.1.1 == .load && s.latchDue x.2 x.1.2.2 then .wait else .ok as ls
    | .fault c a => .fault c a
    | .absent a l sp at_ => .absent a l sp at_
    | .wait => .wait

/-- The first of an op's accesses that reads a line in error (R135). -/
def Pkg.errorAt (p : Pkg) (xs : List (Use × Word × Nat)) (as : List Nat) : Option Word :=
  ((xs.zip as).find? fun x => x.1.1 != .store && !isForeign x.2 && p.errLines.contains (x.2 / 64)).map (·.1.2.1)

/-- The accesses of an op have passed: A and D are set, the TLBs filled (R333, R334). -/
def State.useOp (s : State) (key : Nat) (o : Op) (ls : List (Leaf × Use)) : State :=
  if ls.isEmpty then s
  else (s.updBy (.op key) fun p => (p.touchLeaves ls).countUses s.time o.tenant ls).cacheLeaves (opCore key) (opBench key / 16) o.tenant ls.eraseDups

/-- The op crosses every open recovery mark (R258). -/
def State.crossOp (s : State) (k : Nat) : State := s.crossWith (.op k)

/-- The op meets a page that is not present: SUSPENDED, FADDR the address, one service request (R311, R337). A copy crosses an
open mark on parking (R258). -/
def State.parkOp (s : State) (k : Nat) (o : Op) (a : Word) (level : Nat) (spr : Bool) (at_ : Nat) : State :=
  let who := if (s.pkg.reqFor at_).isSome then 0 else o.token
  let r := s.askPage (.op k) o.tenant a.toNat 3 level spr at_ who
  let s' := r.2.updBy (.op k) fun p => p.onOp k fun o => { o with state := 3, faddr := a, pageReq := some r.1 }
  if isCopy k then s'.crossOp k else s'

/-- An op ends FAULTED; a read that a home refuses is a machine check too (R135, R195). While the end waits for the log, nothing of the
step has happened. -/
def State.faultOp (s : State) (k cause reason : Nat) (a : Word) (wait : Out := .next s) : Out :=
  (if cause = 0x11 then s.noteError else s).endOp k 5 cause reason a wait .next

/-! ### Reading the descriptor of a copy (R193, R197) -/

/-- The accesses that read n 8-byte words at a. -/
def wordReads (a : Word) (n : Nat) : List (Use × Word × Nat) := (List.range n).map fun i => (.load, a + word (8 * i), 8)

/-- A signed 48-bit field of a 128-bit dimension entry. -/
def stride (x lo : Nat) : Int := toSigned 48 (x / 2 ^ lo % 2 ^ 48)

/-- The dimensions of a descriptor from its words 8 on. -/
def dimsOf : List Word → List (Nat × Int × Int)
  | a :: b :: r =>
    let x := a.toNat + 2 ^ 64 * b.toNat
    (x % 2 ^ 32, stride x 32, stride x 80) :: dimsOf r
  | _ => []

/-- The element size that a reducing operation takes, as ESZ (R196). -/
def ropSize (rop : Nat) : Nat := if rop = 1 then 3 else 2

/-- A descriptor header breaks R193 (BAD_DESC). -/
def badDesc (kind rop : Nat) (ws : List Word) : Bool :=
  let dctl := ws.getD 2 0
  let drn := dctl.getLsbD 8
  bits dctl 22 42 != 0 || bits dctl 9 7 != 0 || dctl.getLsbD 7 || bits dctl 4 3 == 7 || (drn && kind != 0) ||
    (bits dctl 16 6 != 0 && kind != 2) || (kind == 1 && bits dctl 4 3 != ropSize rop) ||
    (ws.drop 3).any (fun w => w != 0)

/-- The number of elements. -/
def CopyPlan.count (c : CopyPlan) : Nat := c.dims.foldl (fun n d => n * d.1) 1

/-- The bytes written at all destinations (R199). -/
def CopyPlan.size (c : CopyPlan) : Nat := c.count * c.esz * c.bases.length

/-- The byte offsets of element n: source and destination (R194). -/
def CopyPlan.offsets (c : CopyPlan) (n : Nat) : Int × Int :=
  let r := c.dims.foldl (fun (x : Nat × Int × Int) d =>
    let i : Int := (x.1 % d.1 : Nat)
    (x.1 / d.1, x.2.1 + i * d.2.1, x.2.2 + i * d.2.2)) (n, 0, 0)
  (r.2.1, r.2.2)

/-- The source address of element n. -/
def CopyPlan.srcAt (c : CopyPlan) (n : Nat) : Word := c.src + BitVec.ofInt 64 (c.offsets n).1

/-- The destination addresses of element n, in list order. -/
def CopyPlan.dstAt (c : CopyPlan) (n : Nat) : List Word := c.bases.map fun b => b + BitVec.ofInt 64 (c.offsets n).2

/-- The least and the greatest destination offset. -/
def CopyPlan.span (c : CopyPlan) : Int × Int :=
  c.dims.foldl (fun (x : Int × Int) d =>
    let far := ((d.1 : Int) - 1) * d.2.2
    (x.1 + min far 0, x.2 + max far 0)) (0, 0)

/-- Chunks of a copy. -/
def CopyPlan.chunks (c : CopyPlan) : Nat := (c.count + 63) / 64

/-- The elements of a chunk. -/
def CopyPlan.chunk (c : CopyPlan) (i : Nat) : List Nat := (List.range (min 64 (c.count - 64 * i))).map fun j => 64 * i + j

/-- The first address or stride of a plan that is not a multiple of the element size: FADDR, 0 for a stride (R193). -/
def CopyPlan.misaligned (c : CopyPlan) : Option Word :=
  if c.src.toNat % c.esz ≠ 0 then some c.src
  else
    match c.bases.find? fun b => b.toNat % c.esz != 0 with
    | some b => some b
    | none => if c.dims.any fun d => d.2.1 % c.esz != 0 || d.2.2 % c.esz != 0 then some 0 else none

/-- Read 8-byte words for an op, judging pages and lines; `k` gets the words. -/
def State.engineWords (s : State) (key : Nat) (o : Op) (a : Word) (n : Nat) (k : State → List Word → Out) : Out :=
  let xs := wordReads a n
  match s.engineFind key o xs with
  | .wait => .next s
  | .fault c b => s.faultOp key c 0 b
  | .absent b l sp at_ => .next (s.parkOp key o b l sp at_)
  | .ok as ls =>
    match s.pkg.errorAt xs as with
    | some b => s.faultOp key 0x11 0 b
    | none => k { s.useOp key o ls with free := s.free + n } (as.map fun x => word (s.engineBytes x 8))

/-- The descriptor is read: LEAVE for a copy of 64 KiB or more, else ready (R197, R199). -/
def State.planned (s : State) (key : Nat) (c : CopyPlan) : Out :=
  .next (s.updBy (.op key) fun p =>
    let q := p.onOp key fun o => { o with plan := some c, descRead := true, state := 0 }
    if 65536 ≤ c.size then q.askLeave key else q)

/-- A destination offset of the copy reaches beyond a slot of the drawer (R197). -/
def CopyPlan.beyond (c : CopyPlan) (d : Drawer) : Bool :=
  c.count != 0 && (decide (c.span.1 < 0) || decide ((d.size * 64 : Int) < c.span.2 + c.esz))

/-- What the descriptor's words say is judged (R189, R193, R197). DESIGN CHOICE (log 89): of several conditions that fail, the header's
BAD_DESC is recorded first, then ALIGN of the list or of the drawer's descriptor, SHELF_PERM, the reach of a drawer copy, and last ALIGN of
SRC, of the bases and of the strides. -/
def State.judgeDesc (s : State) (key : Nat) (o : Op) (ws : List Word) : Out :=
  let dctl := ws.getD 2 0
  let dst := ws.getD 1 0
  let c : CopyPlan := { src := ws.getD 0 0, esz := 2 ^ bits dctl 4 3, drawer := none, dims := dimsOf (ws.drop 8), bases := [dst] }
  let judge := fun (s1 : State) (c : CopyPlan) =>
    match c.misaligned with
    | some a => s1.faultOp key 0x03 0 a
    | none => s1.planned key c
  if o.kind = 2 then
    if dst.toNat % 8 ≠ 0 then s.faultOp key 0x03 0 dst
    else s.engineWords key o dst (bits dctl 16 6 + 1) fun s1 bs => judge s1 { c with bases := bs }
  else if dctl.getLsbD 8 then
    let off := (dst.toNat - shelfBase) % 0x80000
    if dst.toNat % 64 ≠ 0 then s.faultOp key 0x03 0 dst
    else if dst.toNat < shelfBase ∨ shelfBase + 0x10000000 ≤ dst.toNat ∨ off < 0x5F000 ∨ 0x60000 ≤ off ∨
        !s.pkg.inMap o.tenant ((dst.toNat - shelfBase) / 0x80000 / 8) then s.faultOp key 0x06 0 dst
    else if c.beyond (s.pkg.drawer dst.toNat) then s.faultOp key 0x01 6 0
    else judge s { c with drawer := some dst.toNat, bases := [0] }
  else judge s c

/-- COPY_DESC_READ: a copy at the head of its queue, its WIT satisfied, reads and judges its descriptor (R197). -/
def execCopyDescRead (op : Nat) (s : State) : Out :=
  match s.pkg.op op with
  | none => .next s
  | some o =>
    if !isCopy op || isOut op || s.pkg.halting (opBench op) || o.place != 1 || o.state != 0 || o.descRead || !s.pkg.isHead op ||
        !s.satisfied (s.engineV (opBench op)) o.w2 then .next s
    else if o.w1.toNat % 64 ≠ 0 then s.faultOp op 0x01 6 0
    else
      s.engineWords op o o.w1 8 fun s1 hd =>
        if badDesc o.kind (bits o.cmd 22 4) hd then s1.faultOp op 0x01 6 0
        else
          s1.engineWords op o (o.w1 + 64) (2 * (bits (hd.getD 2 0) 0 4 + 1)) fun s2 ds => s2.judgeDesc op o (hd ++ ds)

/-! ### Operands of Beryl ops (R67, R68, R71) -/

/-- The accesses that read a K-vector of 64 values at a: 64 bytes of i8, or two q4 blocks; by 16-byte pieces. -/
def kvecReads (q4 : Bool) (a : Word) : List (Use × Word × Nat) :=
  (List.range (if q4 then 2 else 4)).map fun i => (.load, a + word (16 * i), 16)

/-- The accesses of K-vector j and its two scale bytes. -/
def operandReads (q4 : Bool) (base pln str : Word) (j : Nat) : List (Use × Word × Nat) :=
  kvecReads q4 (base + word j * str) ++ [(.load, pln + word (2 * j), 1), (.load, pln + word (2 * j + 1), 1)]

/-- The decoded integers of a K-vector: an i8 by its two's complement, a q4 code by the type of its block's scale byte. -/
def decodeVec (q4 : Bool) (data scale0 scale1 : Nat) : List Int :=
  (List.range 64).map fun k =>
    if q4 then q4Decode ((if k < 32 then scale0 else scale1) / 64) (data / 2 ^ (4 * k) % 16)
    else toSigned 8 (data / 2 ^ (8 * k) % 256)

/-- The K-vector at resolved addresses, in the order of `operandReads`. -/
def State.kvecOf (s : State) (q4 : Bool) (as : List Nat) : KVec :=
  let n := if q4 then 2 else 4
  let data := (List.range n).foldl (fun v i => v + s.engineBytes (as.getD i 0) 16 * 2 ^ (128 * i)) 0
  let s0 := s.engineBytes (as.getD n 0) 1
  let s1 := s.engineBytes (as.getD (n + 1) 0) 1
  ⟨decodeVec q4 data s0 s1, s0 % 64, s1 % 64⟩

/-- Operand vector j of the op is read: it may have to wait, fail or find a page that is not present. -/
def State.readVec (s : State) (key : Nat) (o : Op) (j : Nat) (k : State → KVec → Out) : Out :=
  let q4 := bits o.cmd 10 3 == 4
  let xs := operandReads q4 o.w1 o.w2 o.w3 j
  match s.engineFind key o xs with
  | .wait => .next s
  | .fault c a => s.faultOp key c 0 a
  | .absent a l sp at_ => .next (s.parkOp key o a l sp at_)
  | .ok as ls =>
    match s.pkg.errorAt xs as with
    | some a => s.faultOp key 0x11 0 a
    | none => k { s.useOp key o ls with free := s.free + 66 } (s.kvecOf q4 as)

/-! ### Starting (R197, R202-R204, R275) -/

/-- A Beryl op that holds its engine: started and not finished. -/
def Pkg.onEngine (p : Pkg) (b : Nat) : List Op :=
  p.ops.filterMap fun x => match x.2 with
    | some o => if opBench x.1 = b && !isOut x.1 && !isCopy x.1 && !o.ended && o.place == 2 && !o.finished then some o else none
    | none => none

/-- The weight slot of an op. -/
def Op.slot (o : Op) : Nat := bits o.cmd 15 3
/-- The tile of an op. -/
def Op.tile (o : Op) : Nat := bits o.cmd 13 2

/-- The engine can start a Beryl op beside those that run (R203). -/
def canStart (running : List Op) (o : Op) : Bool :=
  if o.kind = 8 then running.all fun r => r.kind != 8 && !(r.kind == 9 && r.slot == o.slot)
  else running.all fun r => r.kind == 8 && !(o.kind == 9 && r.slot == o.slot)

/-- The A of a multiply is in a row buffer, or the op has none (R275). -/
def Op.loaded (o : Op) : Bool := o.kind != 9 || o.rows.length == 32

/-- A head is ready: a copy with its descriptor read, an op with its leave and its A in a buffer (R204, R275, R279). -/
def Pkg.ready (p : Pkg) (k : Nat) : Bool :=
  match p.op k with
  | none => false
  | some o =>
    if isCopy k then o.descRead && (decide (o.state ≤ 1) || o.stopped) && o.leaveAsked.isNone && o.pageReq.isNone
    else (decide (o.state ≤ 1) || o.stopped) && (o.kind == 10 || o.leaveHeld != 0) && o.loaded && canStart (p.onEngine (opBench k)) o

/-- The ready head an engine starts: lowest PRI, then the order of the list (R204). -/
def Pkg.choice (p : Pkg) (ks : List Nat) : Option Nat :=
  ks.foldl (fun (b : Option Nat) k =>
    match b with
    | none => some k
    | some x => if ((p.op k).map (·.pri)).getD 4 < ((p.op x).map (·.pri)).getD 4 then some k else some x) none

/-- The multiplies that a row buffer of a bench is given to (R275). -/
def Pkg.buffered (p : Pkg) (b : Nat) : List Nat :=
  p.ops.filterMap fun x => match x.2 with
    | some o => if opBench x.1 = b && !isOut x.1 && !o.ended && !o.rows.isEmpty then some x.1 else none
    | none => none

/-- The head whose next row of A is read: a multiply that has its leave, with a row buffer or a free one of the two (R275). -/
def Pkg.nextReader (p : Pkg) (b : Nat) : Option Nat :=
  p.choice ((p.berylHeads b).filter fun k => match p.op k with
    | some o => !o.loaded && decide (o.state ≤ 1) && o.leaveHeld != 0 && (!o.rows.isEmpty || decide ((p.buffered b).length < 2))
    | none => false)

/-- One more row of A and its scales are read into the op's buffer (R201, R275). -/
def State.readRow (s : State) (k : Nat) (o : Op) : Out :=
  s.readVec k o o.rows.length fun s1 v => .next (s1.updBy (.op k) fun p => p.onOp k fun o => { o with rows := o.rows ++ [v] })

/-- The copy runs: started, out of its queue. -/
def State.startOp (s : State) (k : Nat) : State :=
  s.updBy (.op k) fun p => (p.leaveQueue k).onOp k fun o => { o with state := 2, place := 2, leaveAsked := none, stopped := false }

/-- A drawer copy claims its slot (R197): EN, then the reach of its offsets in the slots as they are now, then FREE. `begin` starts a copy
that has not started; while the claim waits for the log, it has not. -/
def State.claimDrawer (s : State) (k a : Nat) (begin_ : State → State) : Out :=
  match (s.pkg.op k).bind (·.plan) with
  | none => .next s
  | some c =>
    let d := s.pkg.drawer a
    if !d.en then (begin_ s).faultOp k 0x06 0 (word a) (.next s)
    else if c.beyond d then (begin_ s).faultOp k 0x01 6 0 (.next s)
    else if d.free = 0 then .next (((begin_ s).updBy (.op k) fun p => p.onOp k fun o => { o with state := 3 }).crossOp k)
    else
      s.arbitrate (0x800 + homeOf a) (1 + s.waitingAt (homeOf a)) (opSource k) (.next s) fun s1 =>
        .next ((begin_ s1).updBy (.op k) fun p =>
          let r := p.claim a
          r.2.onOp k fun o => { o with state := 2, claim := some a, plan := some { c with bases := [word r.1] } })

/-- The address conditions of a RAW drain, whose z follows from the tile (R202): FADDR of the first that fails. -/
def rawMisaligned (o : Op) (t : Tile) : Option Word :=
  let z := if t.f32 then 4 else 8
  if o.w1.toNat % z ≠ 0 then some o.w1
  else if o.w2.toNat % z ≠ 0 then some 0
  else if !t.f32 && o.w3.toNat % 8 != 0 then some o.w3
  else none

/-- A Beryl op starts: MODE and, for a RAW drain, ALIGN are judged against the tile as it stands (R74, R189); while the end of one that
fails waits for the log, it has not started. -/
def State.startBeryl (s : State) (k : Nat) (o : Op) : Out :=
  let t := (s.pkg.bench (opBench k)).tiles.get Tile.init o.tile
  let s1 := s.startOp k
  if o.kind = 9 ∧ t.f32 ≠ o.cmd.getLsbD 9 then s1.faultOp k 0x01 8 0 (.next s)
  else if o.kind = 10 && o.cmd.getLsbD 20 then
    match rawMisaligned o t with
    | some a => s1.faultOp k 0x03 0 a (.next s)
    | none => .next s1
  else .next s1

/-- In replay, the chunk of op k at which a cancel is still to take effect. -/
def State.chunkForced (s : State) (k : Nat) : Option Nat := if s.replaying then chunkOf k s.pair.inbox else none

/-- The copy engine starts its ready head, which claims its slot in the same step; in replay, not one that the log cancels before its first
chunk. -/
def State.startCopy (s : State) (b : Nat) : Out :=
  match s.pkg.choice ((s.pkg.copyHeads b).filter fun k => s.pkg.ready k && s.chunkForced k != some 0) with
  | none => .next s
  | some k =>
    match ((s.pkg.op k).bind (·.plan)).bind (·.drawer) with
    | some a => if ((s.pkg.op k).bind (·.claim)).isSome then .next (s.startOp k) else s.claimDrawer k a fun s => s.startOp k
    | none => .next (s.startOp k)

/-- The Beryl op of bench b whose logged start comes next: the next ARB entry of the engine names an op that stands in its queue (R211). -/
def State.loggedStart (s : State) (b : Nat) : Option (Nat × Op) :=
  if s.replaying then
    (s.nextEntry (0x1000 + b)).bind fun e =>
      s.pkg.ops.findSome? fun x => match x.2 with
        | some o => if e.kind = 6 ∧ word (opSource x.1) = e.val ∧ !isCopy x.1 ∧ opBench x.1 = b ∧ !isOut x.1 ∧ !o.ended ∧ o.place = 1 then
            some (x.1, o) else none
        | none => none
  else none

/-- In replay, a thread of the op's job has next a `tcancel` whose answer is 1, and is on its way to it: an op that has not started waits,
as it may be the one (R283, log 94). -/
def State.cancelAhead (s : State) (o : Op) : Bool :=
  s.replaying && s.threads.any fun x =>
    x.2.task.isSome && x.2.job == o.job && s.tenantOf x.1 == o.tenant && x.2.stall != some .token && x.2.stall != some .waitCounters &&
      match s.nextEntry x.1 with
      | some e => e.kind == 2 && e.arg == 0x36 * 128 && e.val == 1
      | none => false

/-- The Beryl engine starts its ready head, or reads a row of A for a head that waits for it (R275). In replay a start that the log orders
comes in its turn, and no other op of its tile starts before it (R211). -/
def State.startHead (s : State) (b : Nat) : Out :=
  let logged := s.loggedStart b
  let ks := (s.pkg.berylHeads b).filter fun k => s.pkg.ready k && match s.pkg.op k, logged with
    | some o, some x => !s.cancelAhead o && (k == x.1 || o.kind == 8 || o.tile != x.2.tile)
    | some o, none => !s.cancelAhead o
    | none, _ => false
  match ((logged.map (·.1)).filter ks.contains).or (s.pkg.choice ks) with
  | some k =>
    match s.pkg.op k with
    | none => .next s
    | some o =>
      let rivals := (ks.filterMap s.pkg.op).filter fun r => r.kind != 8 && r.tile == o.tile
      if logged.map (·.1) = some k ∨ (o.kind ≠ 8 ∧ 2 ≤ rivals.length) then
        s.arbitrate (0x1000 + b) rivals.length (opSource k) (.next s) fun s1 => s1.startBeryl k o
      else s.startBeryl k o
  | none =>
    match s.pkg.nextReader b with
    | none => .next s
    | some k =>
      match s.pkg.op k with
      | some o => s.readRow k o
      | none => .next s

/-- OP_START: an engine starts one of its ready heads (R204). A start that chooses between Beryl queues naming one tile is an ARB
step, and a replay starts the op its entry names (R211, R262). -/
def execOpStart (bench engine : Nat) (s : State) : Out :=
  let s0 := s.updBy .hub fun p => p.settleHeads bench
  if s.pkg.halting bench then .next s else if engine = 0 then s0.startCopy bench else s0.startHead bench

/-- COPY_CLAIM_RESUME: a drawer copy that waits claims a slot once one is free (R197). -/
def execCopyClaimResume (op : Nat) (s : State) : Out :=
  match s.pkg.op op with
  | none => .next s
  | some o =>
    match o.plan.bind (·.drawer) with
    | none => .next s
    | some a =>
      if isOut op || s.pkg.halting (opBench op) || o.state != 3 || o.place != 2 || o.claim.isSome || o.pageReq.isSome || o.stopping then .next s
      else s.claimDrawer op a id

/-! ### Chunks (R194-R196) -/

/-- The distinct lines of a list of resolved addresses, in order of first use. -/
def linesOf (as : List Nat) : List Nat := (as.map (· / 64)).eraseDups

/-- The accesses of a chunk in the order of R195: each element's source, then its destinations. -/
def CopyPlan.accesses (c : CopyPlan) (red : Bool) (i : Nat) : List (Use × Word × Nat) :=
  (c.chunk i).flatMap fun n =>
    (.load, c.srcAt n, c.esz) :: (c.dstAt n).map fun a => (if red then .atomic else .store, a, c.esz)

/-- Every destination line of an op's writes takes a sequence number at its home (R137, R199); the answer lists them by line. -/
def numberLines (k : Nat) : List Nat → State → State × List (Nat × Nat)
  | [], s => (s, [])
  | l :: r, s =>
    let h := homeOf (64 * l)
    let q := (s.pkg.nextSeq h).1
    let x := numberLines k r (s.updBy (.op k) fun p => (p.nextSeq h).2.onOp k fun o => { o with homes := addHome h q o.homes })
    (x.1, (l, q) :: x.2)

/-- Writes of an op, each within a line: address, length and value. The release buffer performs what leaves the package (R257); the homes
of the rest accept it, by lines, and perform it element by element (R133, R315). -/
def State.engineWrites (s : State) (key : Nat) (o : Op) (ws : List (Nat × Nat × Nat)) : State :=
  let far := ws.filter fun w => isForeign w.1
  let s1 := far.foldl (fun (s : State) w => s.write (.op key) none o.cls o.stamp w.1 w.2.1 w.2.2) s
  let x := numberLines key (linesOf (ws.map (·.1))) s1
  x.1.sendWrites (opWriter key) o.cls o.stamp ((ws.filter fun w => !isForeign w.1).map fun w =>
    (w.1, w.2.1, w.2.2, homeOf w.1, ((x.2.find? fun y => y.1 == w.1 / 64).map (·.2)).getD 0, s.pkg.ecur))

/-- The homes have still to perform writes of the op. -/
def State.writesOut (s : State) (key : Nat) : Bool := s.flight.any fun a => a.thread == opWriter key

/-- The values that elements moved one after another write (R194), from resolved sources and destinations, and the next free value: each
source is read as if every element before it had been written. -/
def moveElems (k : Nat) (o : Op) (esz : Nat) : List (Nat × List Nat) → State → List (Nat × Nat) × Nat
  | [], s => ([], s.free)
  | (a, ds) :: r, s =>
    let v := s.engineBytes a esz
    let x := moveElems k o esz r (ds.foldl (fun s d => s.write (.op k) none o.cls o.stamp d esz v)
      { s with free := s.free + (if isForeign a then esz else 0) })
    (ds.map (fun d => (d, v)) ++ x.1, x.2)

/-- Of several values for one address the last (R194). -/
def lastOf : List (Nat × Nat) → List (Nat × Nat)
  | [] => []
  | x :: r => if r.any fun y => y.1 == x.1 then lastOf r else x :: lastOf r

/-- The resolved accesses of a chunk taken apart into elements with m destinations each. -/
def groupElems (m : Nat) : List Nat → Nat → List (Nat × List Nat)
  | _, 0 => []
  | as, n + 1 => (as.headD 0, (as.drop 1).take m) :: groupElems m (as.drop (m + 1)) n

/-- The new value of an element and its flags (R196). -/
def reduceNew (rop : Nat) (old x : Nat) : Nat × Nat :=
  match rop with
  | 0 => ((old + x) % 2 ^ 32, 0)
  | 1 => ((old + x) % 2 ^ 64, 0)
  | 2 => fadd32 old x
  | 3 => (if toSigned 32 old < toSigned 32 x then x else old, 0)
  | 4 => (if toSigned 32 x < toSigned 32 old then x else old, 0)
  | 5 => (max old x, 0)
  | 6 => (min old x, 0)
  | 7 => f32.minmax false old x
  | _ => f32.minmax true old x

/-- Memory once elements of z bytes are applied to their destinations, one after another (R194, R196). -/
def appliedTo (rop z : Nat) (m : Store Byte) (es : List (Nat × Nat)) : Store Byte :=
  es.foldl (fun m e => writeMem m e.1 (reduceNew rop (readMem m e.1 z) e.2).1 z) m

/-- The elements of a reducing chunk with their values: each source is read as if every element before it had been applied (R194). -/
def State.reduceElems (s : State) (rop z : Nat) : List (Nat × List Nat) → Store Byte → List (Nat × Nat)
  | [], _ => []
  | (a, ds) :: r, m =>
    let x := if isForeign a then s.engineBytes a z else readMem m a z
    let es := ds.map fun d => (d, x)
    es ++ s.reduceElems rop z r (appliedTo rop z m es)

/-- The elements an op has issued that their homes have not applied yet, in order. -/
def Op.unapplied (o : Op) : List (Nat × Nat) :=
  o.chunks.flatMap fun c => c.elems.filter fun e => (c.lines ++ c.retry).contains (e.1 / 64)

/-- A chunk whose checks have passed is read, and its writes are accepted by their homes; a reducing one is issued to its homes (R195,
R290). DEDUCED (log 107): PROG counts a chunk whose writes are accepted, and the copy goes on once they are performed. -/
def State.moveChunk (s : State) (k : Nat) (o : Op) (c : CopyPlan) (i : Nat) (as : List Nat) : State :=
  let es := groupElems c.bases.length as (c.chunk i).length
  let dsts := es.flatMap (·.2)
  if o.kind = 1 then
    let rop := bits o.cmd 22 4
    let elems := s.reduceElems rop c.esz es (appliedTo rop c.esz s.pkg.mem o.unapplied)
    { s with free := s.free + 64 * c.esz }.updBy (.op k) fun p => p.onOp k fun o =>
      { o with chunks := o.chunks ++ [OpenChunk.mk i elems (linesOf dsts) [] []], issued := max o.issued (i + 1) }
  else
    let x := moveElems k o c.esz es s
    ({ s with free := x.2 }.engineWrites k o ((lastOf x.1).map fun (w : Nat × Nat) => (w.1, c.esz, w.2))).updBy (.op k) fun p => p.onOp k fun o =>
      { o with prog := o.prog + 1, issued := max o.issued (i + 1) }

/-- The chunk a copy issues next. -/
def Op.nextChunk (o : Op) : Nat := o.prog + o.chunks.length

/-- A cancelled copy stops at a chunk boundary; the chunk is a CHUNK entry, and a replay stops at the one it names (R211, R262). -/
def State.stopChunk (s : State) (k : Nat) (o : Op) : Out :=
  s.chooseLate (chunkEntry k o) (.next s) fun s1 _ => .next (s1.updBy (.op k) fun p => p.onOp k fun o => { o with finished := true })

/-- What a running copy finds of the chunk it issues next (R195). A chunk that cannot be done is judged once those before it have closed
(R285, R311), and one that the release buffer has no room for waits (R257). -/
def State.nextStep (s : State) (k : Nat) (o : Op) (c : CopyPlan) : Found :=
  let xs := c.accesses (o.kind == 1) o.nextChunk
  let whole := fun (f : Found) => if o.chunks.isEmpty then f else .wait
  match s.engineFind k o xs with
  | .wait => .wait
  | .fault cause a => whole (.fault cause a)
  | .absent a l sp at_ => whole (.absent a l sp at_)
  | .ok as ls =>
    match s.pkg.errorAt xs as with
    | some a => whole (.fault 0x11 a)
    | none =>
      let out := (xs.zip as).filter fun x => x.1.1 == .store && isForeign x.2
      if s.releaseRoom (out.length * c.esz) then .ok as ls else .wait

/-- A running copy has a chunk to issue: one that a cancel stops issues only what it had issued before a stop of the engines (R286). -/
def State.mayIssue (s : State) (k : Nat) (o : Op) (c : CopyPlan) : Bool :=
  isCopy k && !isOut k && !s.pkg.halting (opBench k) && o.place == 2 && o.state == 2 && !o.finished && !o.stopped &&
    (c.drawer.isNone || o.claim.isSome) &&
    decide (o.nextChunk < c.chunks) && decide (o.chunks.length < 8) && (!o.stopping || decide (o.nextChunk < o.issued) || (s.chunkForced k).isSome) &&
    s.chunkForced k != some o.nextChunk

/-- Of two copies, the one that the engine serves first: lower PRI, then queue, then core, then the older one (R204). -/
def copyBefore (a b : Nat × Op) : Bool :=
  let x := a.2
  let y := b.2
  decide (x.pri < y.pri) || (x.pri == y.pri && (decide (x.queue < y.queue) || (x.queue == y.queue &&
    (decide (opCore a.1 < opCore b.1) || (opCore a.1 == opCore b.1 && decide (x.born < y.born))))))

/-- No running copy of the bench that the engine serves before this one can go on (R204). -/
def State.copyTurn (s : State) (k : Nat) (o : Op) : Bool :=
  !(s.pkg.ops.any fun x => match x.2 with
    | some r => opBench x.1 == opBench k && copyBefore (x.1, r) (k, o) && (match r.plan with
      | some c => s.mayIssue x.1 r c && s.nextStep x.1 r c != .wait
      | none => false)
    | none => false)

/-- One chunk of a running copy (R195). -/
def State.runChunk (s : State) (k : Nat) (o : Op) (c : CopyPlan) : Out :=
  let s0 := s.crossOp k
  match s.nextStep k o c with
  | .wait => .next s
  | .fault cause a => s0.faultOp k cause 0 a (.next s)
  | .absent a l sp at_ => .next (s0.parkOp k o a l sp at_)
  | .ok as ls => .next ((s0.useOp k o ls).moveChunk k o c o.nextChunk as)

/-- A cancel that has reached a copy takes effect here: no chunk is open, nor one that was issued before a stop, and in replay the log
says so. -/
def State.stopsHere (s : State) (k : Nat) (o : Op) : Bool :=
  o.stopping && o.chunks.isEmpty && decide (o.issued ≤ o.prog) && (s.chunkForced k).getD o.prog == o.prog

/-- COPY_CHUNK: a running copy has its last chunk's writes performed, does its next chunk, or stops at the boundary if a cancel asks for
it. -/
def execCopyChunk (op : Nat) (s : State) : Out :=
  match s.pkg.op op with
  | none => .next s
  | some o =>
    if !isCopy op || isOut op || o.ended || o.finished then .next s
    else if s.writesOut op then .next (s.flushOf (.op op))
    else if s.stopsHere op o && (o.place == 2 || o.state == 3) then s.stopChunk op o
    else
      match o.plan with
      | none => .next s
      | some c =>
        if o.place = 2 && o.state == 2 && !o.stopped && decide (c.chunks ≤ o.nextChunk) && o.chunks.isEmpty && !o.stopping then
          .next (s.updBy (.op op) fun p => p.onOp op fun o => { o with finished := true })
        else if s.mayIssue op o c && s.copyTurn op o then s.runChunk op o c
        else .next s

/-! ### Reducing applications (R196, R289-R291) -/

/-- The flags of STATUS from those of an arithmetic step (R190). -/
def statusFlags (fl : Nat) : Nat := fl % 2 + fl / 4 % 2 * 2 + fl / 2 % 2 * 4 + fl / 16 % 2 * 8

/-- The identity of a reducing copy at its homes: slot and generation (R289). -/
def Pkg.identity (p : Pkg) (k : Nat) : Nat := k * 65536 + p.gens.get 1 k

/-- The size of a home's record store (R291). -/
def recordRoom (h : Nat) : Nat := if h < 512 then 4608 else 8192

/-- The chunk is its engine's oldest unclosed reducing chunk: of the oldest op with open chunks, its first. -/
def Pkg.oldestChunk (p : Pkg) (k chunk : Nat) : Bool :=
  let open_ := p.ops.filterMap fun x => match x.2 with
    | some o => if isCopy x.1 && !isOut x.1 && opBench x.1 == opBench k then o.chunks.head?.map fun c => (o.born, x.1, c.chunk) else none
    | none => none
  match open_.foldl (fun (b : Option (Nat × Nat × Nat)) x => match b with
    | none => some x
    | some y => if x.1 < y.1 then some x else some y) none with
  | some y => y.2.1 == k && y.2.2 == chunk
  | none => false

/-- A record can be kept at home h: from the common part, else from the reserve of the engine's oldest chunk. The answer is 0 or 1
for the part, `none` for RETRY. -/
def Pkg.recordSpace (p : Pkg) (h k chunk : Nat) : Option Nat :=
  let here := p.applied.filter fun r => homeOf (64 * r.2.2.1) == h
  if (here.filter fun r => r.2.2.2.2 == 0).length < recordRoom h - 4096 then some 0
  else if p.oldestChunk k chunk &&
      decide ((here.filter fun r => r.2.2.2.2 == 1 && r.1 / 65536 / 1024 == opBench k).length < 64) then some 1
  else none

/-- Change an open chunk of an op. -/
def Pkg.onChunk (p : Pkg) (k chunk : Nat) (f : OpenChunk → OpenChunk) : Pkg :=
  p.onOp k fun o => { o with chunks := o.chunks.map fun c => if c.chunk = chunk then f c else c }

/-- REDUCE_APPLY: the home of a line applies the elements of one open chunk that fall in it, once (R289). A repeated step is
answered from its record; without room for a record the answer is RETRY (R291). -/
def execReduceApply (op line : Nat) (s : State) : Out :=
  match s.pkg.op op with
  | none => .next s
  | some o =>
    match o.chunks.find? fun c => c.lines.contains line with
    | none => .next s
    | some c =>
      let h := homeOf (64 * line)
      let id := s.pkg.identity op
      let ack := fun (q : Nat) (c : OpenChunk) => { c with lines := c.lines.erase line, acked := c.acked ++ [(h, q)] }
      match s.pkg.applied.find? fun r => r.1 == id && r.2.1 == c.chunk && r.2.2.1 == line with
      | some r => .next (s.updBy (.op op) fun p => p.onChunk op c.chunk (ack r.2.2.2.1))
      | none =>
        match s.pkg.recordSpace h op c.chunk with
        | none =>
          .next (s.updBy (.op op) fun p => p.onChunk op c.chunk fun c =>
            { c with lines := c.lines.erase line, retry := c.retry ++ [line] })
        | some part =>
          s.arbitrate (0x800 + h) (s.waitingAt h) (opSource op) (.next s) fun s0 =>
            let s1 := s0.flush h
            let esz := 2 ^ ropSize (bits o.cmd 22 4)
            let q := (s1.pkg.nextSeq h).1
            let now := s1.tick
            .next (s1.updBy (.op op) fun p =>
              let r := (c.elems.filter fun e => e.1 / 64 == line).foldl (fun (x : Pkg × Nat) e =>
                let n := reduceNew (bits o.cmd 22 4) (readMem x.1.mem e.1 esz) e.2
                (x.1.writeHome now none e.1 esz n.1, x.2 ||| statusFlags n.2)) ((p.nextSeq h).2, o.flags)
              { r.1 with applied := (id, c.chunk, line, q, part) :: r.1.applied }.onChunk op c.chunk (ack q) |>.onOp op fun o =>
                { o with flags := r.2 })

/-- APPLY_RETRY: a refused step is sent again (R291). -/
def execApplyRetry (op line : Nat) (s : State) : Out :=
  .next (s.updBy (.op op) fun p => p.onOp op fun o =>
    { o with chunks := o.chunks.map fun c =>
        if c.retry.contains line then { c with retry := c.retry.erase line, lines := c.lines ++ [line] } else c })

/-- CHUNK_CLOSE: the lowest open chunk, acknowledged at every home, closes: PROG advances and its records are freed (R290). -/
def execChunkClose (op : Nat) (s : State) : Out :=
  match s.pkg.op op with
  | none => .next s
  | some o =>
    match o.chunks with
    | [] => .next s
    | c :: rest =>
      if !c.lines.isEmpty || !c.retry.isEmpty then .next s
      else
        let id := s.pkg.identity op
        .next (s.updBy (.op op) fun p =>
          { p with applied := p.applied.filter fun r => !(r.1 == id && r.2.1 == c.chunk) }.onOp op fun o =>
            { o with prog := o.prog + 1, chunks := rest, homes := c.acked.foldl (fun hs (x : Nat × Nat) => addHome x.1 x.2 hs) o.homes })

/-! ### The end (R186) -/

/-- OP_END: an op whose work is finished ends with its writes performed: CANCELLED where a cancel stopped it, else DONE. Its FADDR stays as a
suspension left it (R311). In replay a copy that the log still cancels waits for that. -/
def execOpEnd (op : Nat) (s : State) : Out :=
  match s.pkg.op op with
  | none => .next s
  | some o =>
    if o.ended || isOut op || !o.finished || (s.chunkForced op).isSome then .next s
    else
      let b := opBench op
      let st := if isCopy op && o.stopping then 6 else 4
      s.endOp op st (if st = 6 then 0x0F else 0) 0 o.faddr (.next s) fun s1 =>
        .next (s1.updBy .hub fun p => p.settleHeads b)

/-! ### Starved pushes and spawns (R191, R296) -/

/-- The descriptor of the drawer that the core's oldest SUSPENDED copy waits on, or 0. -/
def Pkg.starvedOn (p : Pkg) (core : Nat) : Word :=
  let waits := p.ops.filterMap fun x => match x.2 with
    | some o =>
      if opCore x.1 = core && isCopy x.1 && !isOut x.1 && o.state == 3 && o.place == 2 && o.claim.isNone && o.pageReq.isNone then
        (o.plan.bind (·.drawer)).map fun a => (o.born, a) else none
    | none => none
  match waits.foldl (fun (b : Option (Nat × Nat)) x => match b with
    | none => some x
    | some y => if x.1 < y.1 then some x else some y) none with
  | some y => word y.2
  | none => 0

/-- A push to engine e of a core still finds no free slot, or the FIFO full (R191). -/
def Pkg.pushBlocked (p : Pkg) (core e : Nat) : Bool := (p.freeOp core (e == 1)).isNone || !p.fifoRoom core || p.halting (core / 8)

/-- ENGINE_STARVED: a push that has stalled 2^20 ticks, and still does, traps (R191). -/
def execEngineStarved (t : Nat) (s : State) : Out :=
  match (s.thr t).stall with
  | some (.fifo since e) =>
    if s.tick < since + 2 ^ 20 ∨ e = 2 ∨ s.pkg.pushBlocked (coreOf t) e = false then .next s
    else .next (s.trapFor t (s.thr t) .starved (s.thr t).pc (if e = 0 then s.pkg.starvedOn (coreOf t) else 0))
  | _ => .next s

/-- SPAWN_STARVED: a spawn that has stalled 2^20 ticks, and still does, traps with the address of the pool's slot 0 (R296). -/
def execSpawnStarved (t : Nat) (s : State) : Out :=
  match (s.thr t).stall with
  | some (.pool since) =>
    if s.tick < since + 2 ^ 20 ∨ (s.pkg.freeSlot (coreOf t)).isSome then .next s
    else .next (s.trapFor t (s.thr t) .starved (s.thr t).pc (word (slotAddr (coreOf t) 0)))
  | _ => .next s

end Sys2Proof.Machine
end

