-- ==== Sys2Proof/Machine/Beryl.lean ====
section
/-! DEFINITION. The work of a Beryl op on its engine: weight loads (R200), multiplies (R71-R75, R201), drains and clears (R76,
R202), and the renormalization counts (R277). -/

namespace Sys2Proof.Machine

/-! ### Weight loads (R200) -/

/-- Column j of a slot takes a K-vector. -/
def WSlot.load (w : WSlot) (j : Nat) (v : KVec) : WSlot :=
  { cells := (List.range 64).foldl (fun (m : Store Int) k => m.set 0 (64 * j + k) (v.vals.getD k 0)) w.cells
    exps := (w.exps.set 0 (2 * j) v.e0).set 0 (2 * j + 1) v.e1 }

/-- The next column, PROG; a fault or a missing page leaves the columns below PROG written (R200). -/
def State.loadColumn (s : State) (key : Nat) (o : Op) : Out :=
  s.readVec key o o.prog fun s1 v =>
    .next (s1.updBy (.op key) fun p =>
      (p.onBench (opBench key) fun b =>
        { b with
          wslots := b.wslots.set ⟨[], []⟩ o.slot ((b.wslots.get ⟨[], []⟩ o.slot).load o.prog v)
          wdirty := if b.wdirty.contains o.slot then b.wdirty else o.slot :: b.wdirty }).onOp key fun o =>
            { o with prog := o.prog + 1, finished := decide (o.n ≤ o.prog + 1) })

/-! ### Multiplies (R71-R73) -/

/-- P and s of block b for element (i, j). -/
def partialOf (a : KVec) (w : WSlot) (b j : Nat) : Int × Int :=
  let p := (List.range 32).foldl (fun (t : Int) k => t + a.vals.getD (32 * b + k) 0 * w.cells.get 0 (64 * j + 32 * b + k)) 0
  (p, ((if b = 0 then a.e0 else a.e1 : Nat) : Int) + (w.exps.get 0 (2 * j + b) : Int) - 64)

/-- The largest and smallest mantissas of 48 bits. -/
def mantMax : Int := 2 ^ 47 - 1
/-- The smallest. -/
def mantMin : Int := -(2 ^ 47)

/-- Exact values of the elements of a tile after a block, in units of 2^lo: by key 512 i + j. -/
def blockSums (t : Tile) (rows : List KVec) (w : WSlot) (n b : Nat) (lo : Int) : List (Nat × Int) :=
  (List.range 32).flatMap fun i => (List.range 512).map fun j =>
    let m := t.elems.get 0 (512 * i + j) * 2 ^ (t.e - lo).toNat
    (512 * i + j,
      if j < n then
        let p := partialOf (rows.getD i ⟨[], 0, 0⟩) w b j
        m + p.1 * 2 ^ (p.2 - lo).toNat
      else m)

/-- The least n from `from_` on, and of the next so many, for which every rounded element fits; the one after them where none does. -/
def leastShift (xs : List (Nat × Int)) (lo e : Int) : Nat → Nat → Nat
  | from_, 0 => from_
  | from_, k + 1 =>
    if xs.all fun x => let r := (rnei x.2 (lo - (e + from_))).1; decide (mantMin ≤ r) && decide (r ≤ mantMax) then from_
    else leastShift xs lo e (from_ + 1) k

/-- What a block does to a W48 tile (R72): the tile, STATUS flags (NX 1, OF 2), and whether it renormalized and clamped. -/
def blockW48 (t : Tile) (rows : List KVec) (w : WSlot) (n b : Nat) : Tile × Nat × Bool × Bool :=
  let lo := min (-128) t.e
  let xs := blockSums t rows w n b lo
  let sh := leastShift xs lo t.e 0 (129 - t.e).toNat
  if 127 < t.e + sh then
    let f := fun (x : Int) => clamp (rnei x (lo - 127)).1 mantMin mantMax
    ({ t with e := 127, elems := xs.foldl (fun (m : Store Int) x => m.set 0 x.1 (f x.2)) [] }, 3, true, true)
  else
    let e := t.e + sh
    let r := xs.map fun x => (x.1, rnei x.2 (lo - e))
    ({ t with e := e, elems := r.foldl (fun (m : Store Int) x => m.set 0 x.1 x.2.1) [] }, num (r.any fun x => x.2.2), sh != 0, false)

/-- What a block does to an F32 tile (R73). -/
def blockF32 (t : Tile) (rows : List KVec) (w : WSlot) (n b : Nat) : Tile × Nat :=
  (List.range 32).foldl (fun (x : Tile × Nat) i => (List.range n).foldl (fun (x : Tile × Nat) j =>
    let p := partialOf (rows.getD i ⟨[], 0, 0⟩) w b j
    let acc := (x.1.elems.get 0 (512 * i + j)).toNat
    let r := f32.add 0 (f32.value acc) (.fin (decide (p.1 < 0)) p.1.natAbs p.2)
    ({ x.1 with elems := x.1.elems.set 0 (512 * i + j) (r.1 : Int) }, x.2 ||| statusFlags r.2)) x) (t, 0)

/-- Both blocks of a multiply on a bench (R77): the bench with its counts, and the op's flags. -/
def Bench.multiply (x : Bench) (o : Op) (rows : List KVec) : Bench × Nat :=
  let t := x.tiles.get Tile.init o.tile
  let w := x.wslots.get ⟨[], []⟩ o.slot
  let put := fun (x : Bench) (t : Tile) =>
    { x with
      tiles := x.tiles.set Tile.init o.tile t
      tdirty := if x.tdirty.contains o.tile then x.tdirty else o.tile :: x.tdirty }
  if t.f32 then
    let r0 := blockF32 t rows w o.n 0
    let r1 := blockF32 r0.1 rows w o.n 1
    (put x r1.1, r0.2 ||| r1.2)
  else
    let r0 := blockW48 t rows w o.n 0
    let r1 := blockW48 r0.1 rows w o.n 1
    ({ put x r1.1 with
        renorm := (x.renorm + num r0.2.2.1 + num r1.2.2.1) % 2 ^ 32
        clamp := (x.clamp + num r0.2.2.2 + num r1.2.2.2) % 2 ^ 16 }, r0.2.1 ||| r1.2.1)

/-! ### Drains (R76, R202) -/

/-- The exact value of an element. -/
def Tile.value (t : Tile) (k : Nat) : FVal :=
  let m := t.elems.get 0 k
  if t.f32 then Machine.f32.value m.toNat else .fin (decide (m < 0)) m.natAbs t.e

/-- The element a drain writes and its STATUS flags. -/
def drainElem (o : Op) (t : Tile) (k : Nat) : Nat × Nat :=
  let conv := fun (r : Nat × Nat) => (r.1, statusFlags r.2)
  if o.cmd.getLsbD 20 then
    if t.f32 then ((t.elems.get 0 k).toNat, 0) else (ofSigned 64 (t.elems.get 0 k), 0)
  else
    match bits o.cmd 10 3 with
    | 1 => conv (bf16.ofVal 0 (t.value k))
    | 2 => conv (f16.ofVal 0 (t.value k))
    | 5 =>
      let r := toInt 0 (-(2 ^ 31)) (2 ^ 31 - 1) (t.value k)
      (ofSigned 32 r.1, statusFlags r.2)
    | _ => if t.f32 then ((t.elems.get 0 k).toNat, 0) else conv (f32.ofVal 0 (t.value k))

/-- The size of a drained element. -/
def Op.drainZ (o : Op) (t : Tile) : Nat := if o.cmd.getLsbD 20 then (if t.f32 then 4 else 8) else drainSize (bits o.cmd 10 3)

/-- Writes of an op, checked as one. -/
def State.drainWrites (s : State) (key : Nat) (o : Op) (ws : List (Word × Nat × Nat)) (k : State → Out) : Out :=
  match s.engineFind key o (ws.map fun w => (.store, w.1, w.2.1)) with
  | .wait => .next s
  | .fault c a => s.faultOp key c 0 a
  | .absent a l sp at_ => .next (s.parkOp key o a l sp at_)
  | .ok as ls =>
    if !s.releaseRoom ((as.zip ws).foldl (fun n x => if isForeign x.1 then n + x.2.2.1 else n) 0) then .next s
    else k ((s.useOp key o ls).engineWrites key o ((as.zip ws).map fun x => (x.1, x.2.2)))

/-- A tile is cleared to W48 or F32 as MODE gives. -/
def State.clearTile (s : State) (key : Nat) (o : Op) : State :=
  s.updBy (.op key) fun p => p.onBench (opBench key) fun b =>
    { b with
      tiles := b.tiles.set Tile.init o.tile { Tile.init with f32 := o.cmd.getLsbD 21 }
      tdirty := if b.tdirty.contains o.tile then b.tdirty else o.tile :: b.tdirty }

/-- The op's work is done. -/
def State.workDone (s : State) (key : Nat) : Out := .next (s.updBy (.op key) fun p => p.onOp key fun o => { o with finished := true })

/-- The next row, PROG; after the last, E of a RAW W48 tile at EXP, then the clear of CLR (R202). -/
def State.drainRow (s : State) (key : Nat) (o : Op) : Out :=
  let t := (s.pkg.bench (opBench key)).tiles.get Tile.init o.tile
  if 32 ≤ o.prog then
    let fin := fun (s1 : State) => (if o.cmd.getLsbD 19 then s1.clearTile key o else s1).workDone key
    if o.cmd.getLsbD 20 && !t.f32 then s.drainWrites key o [(o.w3, 8, ofSigned 64 t.e)] fin else fin s
  else
    let z := o.drainZ t
    let row := (List.range o.n).map fun j =>
      (o.w1 + word o.prog * o.w2 + word (j * z), z, (drainElem o t (512 * o.prog + j)).1)
    let fl := (List.range o.n).foldl (fun f j => f ||| (drainElem o t (512 * o.prog + j)).2) 0
    s.drainWrites key o row fun s1 =>
      .next (s1.updBy (.op key) fun p => p.onOp key fun o => { o with prog := o.prog + 1, flags := o.flags ||| fl })

/-- The multiply adds its A, which is in its buffer, to the tile (R71-R73, R201). -/
def State.multiplyOp (s : State) (key : Nat) : Out :=
  .next (s.updBy (.op key) fun p =>
    match p.op key with
    | none => p
    | some o =>
      let r := (p.bench (opBench key)).multiply o o.rows
      (p.onBench (opBench key) fun _ => r.1).onOp key fun o => { o with prog := 2, flags := o.flags ||| r.2, finished := true, rows := [] })

/-- BERYL_OP_COMPLETE: a started op has its last row's writes performed, or does its next piece of work: a column of a weight load, a
multiply, a row of a drain or its end, a clear. A page that is not present suspends it at PROG, and a stop of the engines finds it between two pieces (R200-R203, R286). -/
def execBerylOpComplete (op : Nat) (s : State) : Out :=
  match s.pkg.op op with
  | none => .next s
  | some o =>
    if isCopy op || isOut op || o.place != 2 || o.state != 2 || o.finished || o.stopped then .next s
    else if s.writesOut op then .next (s.flushOf (.op op))
    else if o.kind = 9 then s.multiplyOp op
    else if s.pkg.halting (opBench op) then .next s
    else if o.kind = 8 then s.loadColumn op o
    else if o.cmd.getLsbD 18 then (s.clearTile op o).workDone op
    else s.drainRow op o

end Sys2Proof.Machine
end

