-- ==== Sys2Proof/Machine/Control.lean ====
section
/-! DEFINITION. Branches, jumps and calls (R89-R91), the counter wait (R95), trap, breakpoint, trap return, instruction fence
and idle (R96-R100), and the operand-extension moves (R101). -/

namespace Sys2Proof.Machine

/-- bz (R34, R89). -/
def execBz (a : BitVec 6) (o : BitVec 16) (s : State) : Out := branch a.toNat (o.signExtend 64) 4 (fun x => x == 0) false s
/-- bnz. -/
def execBnz (a : BitVec 6) (o : BitVec 16) (s : State) : Out := branch a.toNat (o.signExtend 64) 4 (fun x => x != 0) false s
/-- bltz. -/
def execBltz (a : BitVec 6) (o : BitVec 16) (s : State) : Out := branch a.toNat (o.signExtend 64) 4 (fun x => x.msb) false s
/-- bgez. -/
def execBgez (a : BitVec 6) (o : BitVec 16) (s : State) : Out := branch a.toNat (o.signExtend 64) 4 (fun x => !x.msb) false s
/-- blez. -/
def execBlez (a : BitVec 6) (o : BitVec 16) (s : State) : Out :=
  branch a.toNat (o.signExtend 64) 4 (fun x => x.msb || x == 0) false s
/-- bgtz. -/
def execBgtz (a : BitVec 6) (o : BitVec 16) (s : State) : Out :=
  branch a.toNat (o.signExtend 64) 4 (fun x => !x.msb && x != 0) false s
/-- b: always taken, a unused (R34, R51). -/
def execBr (a : BitVec 6) (o : BitVec 16) (s : State) : Out := branch 0 (o.signExtend 64) 4 (fun _ => true) (a != 0) s
/-- j (R90). -/
def execJ (o : BitVec 25) (s : State) : Out := branch 0 (o.signExtend 64) 4 (fun _ => true) false s
/-- call (R90): g63 gets PC + 4 first. -/
def execCall (o : BitVec 25) (s : State) : Out :=
  s.issue [.g 63] fun t => s.jump (t.wg 63 (t.pc + 4)) (t.pc + 2 * o.signExtend 64) false
/-- jr (R91). -/
def execJr (d a b : BitVec 6) (s : State) : Out := jumpReg a.toNat none 4 (d != 0 || b != 0) s
/-- callr (R91). -/
def execCallr (d a b : BitVec 6) (s : State) : Out := jumpReg a.toNat (some d.toNat) 4 (b != 0) s
/-- getpc (R91); the a field is ignored, and with b must be zero. -/
def execGetpc (d a b : BitVec 6) (s : State) : Out :=
  s.issue [gR d] fun t => s.retire (t.wg d.toNat t.pc) 4 (a != 0 || b != 0)

/-- The counters are at or below their limits. -/
def Thread.within (t : Thread) (ol os oc ot : Nat) : Bool :=
  decide (t.ol ≤ ol) && decide (t.os ≤ os) && decide (t.oc ≤ oc) && decide (t.ot ≤ ot)

/-- wait (R95): stalls until all four counters are within their limits. -/
def waitCounters (ol os oc ot len : Nat) (w : Bool) (s : State) : Out :=
  if s.me.within ol os oc ot then s.retire s.me len w else s.stallWith .waitCounters

/-- wait, 32-bit form. -/
def execWait (d a b ot : BitVec 6) (s : State) : Out := waitCounters d.toNat a.toNat b.toNat ot.toNat 4 false s

/-- wait, short form (R41): a counter whose mask bit is 0 takes the limit 63; mask 0000 has no effect but WARN (R51). -/
def execWait16 (m : BitVec 4) (n : BitVec 6) (s : State) : Out :=
  let lim := fun i => if m.getLsbD i then n.toNat else 63
  waitCounters (lim 3) (lim 2) (lim 1) (lim 0) 2 (m == 0) s

/-- trapi (R97): a discarded prefix sets WARN before trap entry saves ctl.tstat. -/
def execTrapi (d a b : BitVec 6) (s : State) : Out :=
  let t := s.me
  .next (s.trapFor s.cur (t.dropPrefix.warn (t.pp || d != 0)) .trapi (t.pc + 4) (word (a.toNat * 64 + b.toNat)))

/-- brk (R97); under an open debug session with halt-on-BRK set the thread parks before the handler's first instruction (R394). -/
def execBrk (d a b : BitVec 6) (s : State) : Out :=
  let t := s.me
  let s' := s.trapFor s.cur (t.dropPrefix.warn (t.pp || d != 0 || a != 0 || b != 0)) .brk t.pc (Instr.brk d a b).trapWord
  if s.onyx.dbgOpen && s.onyx.haltOnBrk && !t.tf && !t.isBusy [.g 63] then
    .next (s'.setMe { s'.me with park := some .debugger })
  else .next s'

/-- tret (R98). -/
def execTret (d a b : BitVec 6) (s : State) : Out :=
  s.supervisor (.tret d a b) <|
    let t := s.me
    if t.epc.getLsbD 0 then s.trap .align t.epc
    else .next (s.commit s.cur (t.trapReturn.warn (d != 0 || a != 0 || b != 0)))

/-- A store or atomic of thread n is not yet performed at its home. -/
def State.storesOut (s : State) (n : Nat) : Bool :=
  s.flight.any fun a =>
    a.thread == n && !(a.todo.isEmpty && a.acc.isEmpty) &&
      match a.kind with
      | .store _ => true
      | .atomic _ _ _ => true
      | .plain _ => false
      | .home => false

/-- ifence (R99, R226): once the thread's stores are performed, no byte older than now is fetched. -/
def execIfence (d a b : BitVec 6) (s : State) : Out :=
  if s.storesOut s.cur then s.stallWith .ownStores
  else s.retire { s.me with fence := s.pkg.histN } 4 (d != 0 || a != 0 || b != 0)

/-- Thread n takes the interrupt that is pending for it (R347, R376). -/
def State.takeIrq (s : State) (n : Nat) : State :=
  let t := s.thr n
  match t.irq with
  | none => s
  | some v => s.trapFor n { t with irq := none, irqTen := none } .int t.pc v

/-- The end of an `idle` of thread n that writes v; the value is a READ entry (R100, R262). The interrupt that ends it is taken
before the next instruction, whatever S; as a trap is taken once g63 is not busy (R346), the end waits for that. -/
def State.idleEnd (s : State) (n : Nat) (d : Nat) (w : Bool) (v : Word) : Out :=
  if v ≠ 0 ∧ (s.thr n).isBusy [.g 63] then .next s
  else
  let finish := fun (s' : State) (v' : Word) =>
    let t := s'.thr n
    let s'' := s'.commit n { (t.wg d v').dropPrefix.warn (w || t.pp) with pc := t.pc + 4, prog := 0, stall := none }
    Host.Outcome.next (if v' = 0 then s'' else s''.takeIrq n)
  if isSteward n then finish s v else s.choose ⟨0x02, n, 0x10 * 128 + 0x44, v⟩ true (.next s) fun s' e => finish s' e.val

/-- idle (R100): stalls until an interrupt is pending or the limit has passed. -/
def execIdle (d a b : BitVec 6) (s : State) : Out :=
  s.supervisor (.idle d a b) <|
    s.issue [gR a, gR d] fun t =>
      if t.irqNow then s.idleEnd s.cur d.toNat (b != 0) 1
      else
        match t.stall with
        | some (.idle (some limit) _ _) =>
          if limit ≤ s.tick then s.idleEnd s.cur d.toNat (b != 0) 0 else .next s
        | some (.idle none _ _) => .next s
        | _ => s.stallWith (.idle (if t.rg a.toNat = 0 then none else some (s.tick + (t.rg a.toNat).toNat)) d.toNat (b != 0))

/-- movx (R101). -/
def execMovx (d : BitVec 6) (x : BitVec 3) (i : BitVec 13) (s : State) : Out :=
  s.issue [gR d, .x x.toNat] fun t => s.retire (t.wx x.toNat (t.rg d.toNat)) 4 (i != 0)
/-- movg (R101). -/
def execMovg (d : BitVec 6) (x : BitVec 3) (i : BitVec 13) (s : State) : Out :=
  s.issue [gR d, .x x.toNat] fun t => s.retire (t.wg d.toNat (t.rx x.toNat)) 4 (i != 0)
/-- addx (R101). -/
def execAddx (d : BitVec 6) (x : BitVec 3) (i : BitVec 13) (s : State) : Out :=
  s.issue [gR d, .x x.toNat] fun t => s.retire (t.wx x.toNat (t.rg d.toNat + i.signExtend 64)) 4 false

end Sys2Proof.Machine
end

