-- ==== Sys2Proof/Machine/Ctl.lean ====
section
/-! DEFINITION. The control registers (R92-R94, R381): access by mode, what each reads, and what a write does (R221, R223, R234-R238,
R255, R264, R277, R305, R326, R327, R343, R361, R362, R364, R372, R382, R385, R387, R388, R390). -/

namespace Sys2Proof.Machine

/-! ### Scan classes started and stopped by a write (R235-R237) -/

/-- The parameters let the class start (R235). -/
def Class.valid (c : Class) : Bool :=
  let pmul := bits c.per 48 15
  let p := pmul * 31250
  let puboff := bits c.pub 0 30
  let cut := bits c.pub 30 30
  decide (1 ≤ pmul) && decide (pmul ≤ 32000) && decide (bits c.per 0 30 < p) && decide (puboff < p) && decide (1000 ≤ cut) &&
    decide (cut ≤ puboff)

/-- The first cycle whose start lies at least 10 µs after a moment (R237). -/
def Class.firstAfter (c : Class) (time : Nat) : Nat :=
  let t := time + 80000
  if t ≤ c.phase then 0 else (t - c.phase + c.period - 1) / c.period

/-- The work of a class that stops is released where it is put away (R236). -/
def Away.freeClass (w : Away) (n : Nat) : Away :=
  w.freeWhere fun z => (z.state == 11 && z.key == n) || (z.state == 6 && w.cycles.contains (z.slot, n))

/-- The work of a class that stops is released (R236), in core tick `now`; Hk reads 0 (R254). -/
def Pkg.stopClass (p : Pkg) (now n : Nat) : Pkg :=
  let mine := p.sleepers.filter fun z => (z.state == 11 && z.key == n) || (z.state == 6 && (p.record z.slot).cls == n)
  let q := mine.foldl (fun p z => p.wakeAs now z.slot true) p
  let r := q.onClass n fun c =>
    { c with per := setBits c.per 63 1 0, cyc := allOnes, started := false, cutDone := none }
  { r.rouseAll with
    horizons := r.horizons.set 0 n 0
    snaps := r.snaps.filter fun x => x.cls != n
    benches := r.benches.map fun b => (b.1, { b.2 with nodeH := b.2.nodeH.set 0 n 0 })
    away := r.away.map fun w => (w.1, w.2.freeClass n)
    budgets := r.budgets.map fun b => (b.1, match b.2 with
      | some x => if ((p.entryOf (b.1 / 1024) (b.1 % 1024)).map (·.cls)) == some n then some { x with grace := false } else some x
      | none => none) }

/-- The threads of a stopped class: a grace already begun ends (R236). -/
def State.endGraces (s : State) (n : Nat) : State :=
  { s with threads := s.threads.map fun t =>
      (t.1, if t.2.stopDue && (t.2.task.map (fun k => k.cls == n)).getD false then { t.2 with stopDue := false, preemptDue := false }
        else t.2) }

/-- A write to ctl.clper of class n (R234, R235). DEDUCED (log 108): no class starts before T has once been synchronized (R395). -/
def State.writeClper (s : State) (who : Actor) (n : Nat) (v : Word) : State :=
  let c := s.pkg.cls n
  if c.en then
    if v.getLsbD 63 then s
    else
      let now := s.tick
      (s.updBy who fun p => p.stopClass now n).endGraces n
  else
    let c1 := { c with per := v &&& 0x7FFF00003FFFFFFF#64 }
    let c2 := if v.getLsbD 63 && c1.valid && s.synced then { c1 with per := setBits c1.per 63 1 1, started := false, first := c1.firstAfter s.time }
      else c1
    s.updBy who fun p => p.onClass n fun _ => c2

/-- A write to ctl.clpub: ignored while EN = 1. -/
def State.writeClpub (s : State) (who : Actor) (n : Nat) (v : Word) : State :=
  if (s.pkg.cls n).en then s else s.updBy who fun p => p.onClass n fun c => { c with pub := v &&& 0x0FFFFFFFFFFFFFFF#64 }

/-! ### The locked L2 region (R326, R327) -/

/-- A write to ctl.l2lk. -/
def State.writeL2lk (s : State) (who : Actor) (v : Word) : State :=
  let old := s.pkg.l2lk
  if old.getLsbD 62 then s
  else if old.getLsbD 63 then
    if v.getLsbD 63 then s else s.updBy who fun p => { p with l2lk := setBits old 62 2 1 }
  else
    let w := v &&& 0x0F003FFFFFE00000#64
    let ways := bits v 56 4
    let ok := v.getLsbD 63 && decide (1 ≤ ways) && decide (ways ≤ 12) && decide (bits v 21 25 * 2 ^ 21 + ways * 0x800000 ≤ dramEnd)
    s.updBy who fun p => { p with l2lk := if ok then setBits w 62 2 3 else w }

/-! ### The pair (R264) -/

/-- ctl.pair. -/
def Pair.word (p : Pair) : Word := Machine.word (p.role * 2 ^ 62 + p.lagmax * 2 ^ 32 + p.loss * 2 ^ 16 + p.hbi)

/-- A write to ctl.pair: fields outside their range keep their old values, LOSS and HBI together; ROLE is written before the first
launch only. -/
def Pair.write (p : Pair) (v : Word) : Pair :=
  let role := bits v 62 2
  let lag := bits v 32 16
  let hbi := if 1 ≤ bits v 0 16 ∧ bits v 0 16 ≤ 1000 then bits v 0 16 else p.hbi
  let loss := bits v 16 16
  let fit := decide (3 * hbi ≤ loss)
  { p with
    role := if role = 3 || p.launched then p.role else role
    lagmax := if 10 ≤ lag ∧ lag ≤ 10000 then lag else p.lagmax
    loss := if fit then loss else p.loss
    hbi := if fit then hbi else p.hbi }

/-- ctl.pstat. -/
def Pair.stat (p : Pair) : Word :=
  Machine.word (p.diverge % 2 ^ 16 * 2 ^ 48 + p.rollbk % 2 ^ 16 * 2 ^ 32 + num p.peer * 32 + num p.ready * 16 + num p.took * 8 + num p.recov * 4 +
    num p.stop)

/-! ### Reads -/

/-- The Beryl ops of a bench that have not ended. -/
def Pkg.liveBeryl (p : Pkg) (b : Nat) : Nat :=
  (p.ops.filter fun x => opBench x.1 == b && !isOut x.1 && !isCopy x.1 && (x.2.map fun o => !o.ended).getD false).length

/-- ctl.lcst (R364). -/
def Onyx.lcst (o : Onyx) : Word := word (o.unlockCnt % 2 ^ 16 * 2 ^ 32 + num o.pending.isSome * 8 + o.lc % 8)

/-- ctl.oxkey: the tenants whose slot holds a key. -/
def Onyx.present (o : Onyx) : Word := word ((List.range 8).foldl (fun m t => if (o.keys.get [] t).isEmpty then m else m + 2 ^ t) 0)

/-- The journal in use, in MiB (R259, R264): the spec gives no size to a saved unit, so it is a free value of the writes performed since
the last closed mark (log 10). -/
def State.journal (s : State) : Nat :=
  let n := s.pkg.histN - s.saved.histN
  if n = 0 then 0 else Config.journalMib n

/-- The journal is full (R261). -/
def State.journalFull (s : State) : Bool := decide (1024 * s.pair.jgib ≤ s.journal)

/-- DISARM: the marks open when the journal filled have not all closed (R261). -/
def State.disarmed (s : State) : Bool := decide (s.mark < s.disarmTill)

/-- A register of class n. -/
def State.readClass (s : State) (n which : Nat) : Word :=
  let c := s.pkg.cls n
  match which with
  | 0 => c.per
  | 1 => c.pub
  | 2 => s.pkg.cycleOf n
  | _ => word (c.ovrn % 2 ^ 16 * 2 ^ 48 + c.skip % 2 ^ 16 * 2 ^ 32 + num s.hold * 4 + num c.step * 2 + num s.sync)

/-- TJ, PKGW and DIEW of ctl.pwr: measurements of the moment, 0 at reset (R385). -/
def State.sensed (s : State) (die : Nat) : Word :=
  if s.tick = 0 then 0
  else word ((Config.junction die s.tick).toNat * 2 ^ 56 + (Config.packagePower s.tick).toNat * 2 ^ 16 + (Config.diePower die s.tick).toNat)

/-- What control register n reads for thread th. -/
def State.readCtl (s : State) (th n : Nat) : Word :=
  let t := s.thr th
  let b := benchOf th
  let core := coreOf th
  let k := s.pkg.core core
  let x := s.pkg.bench b
  let die := dieOf th
  if 0x120 ≤ n ∧ n < 0x140 then s.readClass ((n - 0x120) / 4) (n % 4)
  else if 0x148 ≤ n ∧ n < 0x150 then
    word (if isSteward th then s.pkg.horizons.get 0 (n - 0x148) else x.nodeH.get 0 (n - 0x148))
  else
    match n with
    | 0x000 => t.tstat
    | 0x001 => s.pkg.cycleOf t.cls
    | 0x002 => word t.cls
    | 0x003 => word t.job
    | 0x004 => if isSteward th then (Config.stewardCore die).setWidth 64 else word core
    | 0x005 => if isSteward th then (Config.stewardHt die).setWidth 64 else word (th % 4)
    | 0x006 => t.prog
    | 0x010 => t.epc
    | 0x011 => t.cause
    | 0x012 => t.tval
    | 0x013 => t.tvec
    | 0x014 => t.tsave
    | 0x015 => t.cause2
    | 0x016 => t.tval2
    | 0x100 => x.bflag
    | 0x101 =>
      let ten := s.tenantOf th
      match s.pkg.desc ten with
      | some d => word (d.mode.toNat * 16 + num d.conf * 8 + ten % 8)
      | none => word (ten % 8)
    | 0x104 =>
      word (k.refuse % 2 ^ 16 * 2 ^ 48 + k.stalegen % 2 ^ 16 * 2 ^ 32 + s.pkg.occupied core 3 * 2 ^ 15 + s.pkg.occupied core 2 * 2 ^ 10 +
        s.pkg.occupied core 1 * 2 ^ 5 + s.pkg.occupied core 0)
    | 0x105 => k.dasel
    | 0x106 => word (k.accounts.get 0 (bits k.dasel 0 9 * 4 + bits k.dasel 16 2))
    | 0x108 => word (num x.keep * 2 ^ 63 + s.pkg.liveBeryl b * 2 ^ 56 + x.clamp % 2 ^ 16 * 2 ^ 32 + x.renorm % 2 ^ 32)
    | 0x110 => t.wp0
    | 0x111 => t.wp1
    | 0x140 => s.pair.word
    | 0x141 => s.pair.stat ||| word (2 * num s.disarmed)
    | 0x142 => word s.lwr
    | 0x143 => word s.pair.lack
    | 0x144 => word (s.pair.jgib % 256 * 2 ^ 32 + s.pair.mper % 2 ^ 16)
    | 0x145 => word (s.journal % 2 ^ 32 * 2 ^ 32 + s.mark % 2 ^ 32)
    | 0x160 => s.pkg.l2lk
    | 0x180 => t.tstk
    | 0x181 => t.tsg
    | 0x1A0 => s.pkg.pgov.get pgovReset die
    | 0x1A1 => setBits (s.sensed die) 32 16 x.floss
    | 0x1B0 => x.trctl
    | 0x1B1 => x.trptr
    | 0x1C1 => setBits (s.onyx.status.get 0 die) 0 1 (num (s.onyx.busy.get 0 die != 0))
    | 0x1C4 => s.onyx.lcst
    | 0x1C5 => Config.devId
    | 0x1C6 => s.onyx.present
    | 0x1C7 => flag s.onyx.dbgOpen
    | _ => 0

/-- The registers whose reads are READ entries: other threads or time change them (R262). -/
def loggedCtl (n : Nat) : Bool :=
  n == 1 || n == 0x100 || n == 0x101 || (decide (0x104 ≤ n) && decide (n ≤ 0x108)) || (decide (0x120 ≤ n) && decide (n < 0x150)) || n == 0x160 ||
    n == 0x1A0 || n == 0x1A1 || n == 0x1B0 || n == 0x1B1

/-! ### Access (R92, R381) -/

/-- The number is assigned for this thread. -/
def assignedCtl (steward : Bool) (n : Nat) : Bool :=
  decide (n ≤ 6) || (decide (0x10 ≤ n) && decide (n ≤ 0x16)) || n == 0x100 || n == 0x101 || (decide (0x104 ≤ n) && decide (n ≤ 0x106)) ||
    n == 0x108 || n == 0x110 || n == 0x111 || (decide (0x120 ≤ n) && decide (n < 0x146)) || (decide (0x148 ≤ n) && decide (n < 0x150)) ||
    n == 0x160 || n == 0x180 || n == 0x181 || n == 0x1A0 || n == 0x1A1 || n == 0x1B0 || n == 0x1B1 ||
    (decide (0x1C0 ≤ n) && decide (n < 0x1C8) && !(steward && (n == 0x1C2 || n == 0x1C3)))

/-- An access that traps PRIV: supervisor registers with S = 0, the stewards' registers on a core thread, and the writes that only
an owner or a steward may make (R234, R255, R264, R326, R361, R382). -/
def State.privCtl (s : State) (n : Nat) (write : Bool) : Bool :=
  let st := isSteward s.cur
  let own := fun (f : TenantDesc → Bool) => ((s.pkg.desc (s.tenantOf s.cur)).map f).getD false
  (!s.me.sup && decide (6 ≤ n)) || (!st && decide (0x1C0 ≤ n) && decide (n < 0x1C8)) ||
    (write &&
      ((decide (0x120 ≤ n) && decide (n < 0x140) && !own fun d => d.clown.getLsbD ((n - 0x120) / 4)) ||
        (n == 0x140 && !st) || (decide (0x148 ≤ n) && decide (n < 0x150)) || (n == 0x160 && !own fun d => d.l2own) ||
        (n == 0x1A0 && !st)))

/-! ### Writes -/

/-- The bits of `v` under `mask`, the others kept. -/
def under (mask old v : Word) : Word := (old &&& ~~~mask) ||| (v &&& mask)

/-- A thread's register written: the writable fields take `v`. -/
def Thread.writeCtl (t : Thread) (n : Nat) (v : Word) : Thread :=
  match n with
  | 0x000 => { t with tstat := under 0x2000FF#64 t.tstat v }
  | 0x006 => { t with prog := v &&& 0xF#64 }
  | 0x010 => { t with epc := v }
  | 0x011 => { t with cause := v &&& 0xFFFF#64 }
  | 0x012 => { t with tval := v }
  | 0x013 => { t with tvec := v &&& 0xFFFFFFFFFFFE#64 }
  | 0x014 => { t with tsave := v &&& 0x3FFFFFF#64 }
  | 0x015 => { t with cause2 := v }
  | 0x016 => { t with tval2 := v }
  | 0x110 => { t with wp0 := v &&& 0xFF00FFFFFFFFFFFF#64 }
  | 0x111 => { t with wp1 := v &&& 0xFF00FFFFFFFFFFFF#64 }
  | 0x180 => { t with tstk := v }
  | 0x181 => { t with tsg := v }
  | _ => t

/-- A write to a register of class n. -/
def State.writeClass (s : State) (who : Actor) (n which : Nat) (v : Word) : State :=
  match which with
  | 0 => s.writeClper who n v
  | 1 => s.writeClpub who n v
  | 2 => s
  | _ => s.updBy who fun p => p.onClass n fun c =>
    { c with ovrn := bits v 48 16, skip := bits v 32 16, step := c.step && !(v.getLsbD 1) }

/-- A steward's write to the governor of a die: RSV, CAP and WAITS (R382). -/
def Pkg.writeGovernor (p : Pkg) (die : Nat) (v : Word) : Pkg :=
  { p with pgov := p.pgov.set pgovReset die (under 0xFFFFFFFFFF#64 (p.pgov.get pgovReset die) v) }

/-- A write to a register of a bench or core, from thread th. -/
def Pkg.writeCtl (p : Pkg) (th n : Nat) (v : Word) : Pkg :=
  let b := benchOf th
  let core := coreOf th
  match n with
  | 0x100 => p.onBench b fun x => { x with bflag := x.bflag &&& ~~~v }
  | 0x104 => p.onCore core fun c => { c with refuse := bits v 48 16, stalegen := bits v 32 16 }
  | 0x105 => p.onCore core fun c => { c with dasel := v &&& 0x301FF#64 }
  | 0x106 => p.onCore core fun c => { c with accounts := c.accounts.set 0 (bits c.dasel 0 9 * 4 + bits c.dasel 16 2) v.toNat }
  | 0x108 => p.onBench b fun x => { x with keep := v.getLsbD 63, clamp := bits v 32 16, renorm := bits v 0 32 }
  | 0x1A0 => p.writeGovernor (dieOf th) v
  | 0x1A1 => p.onBench b fun x => { x with floss := bits v 32 16 }
  | 0x1B0 => p.onBench b fun x => { x with trctl := v &&& 0xFFFF0000FFFFFFFF#64 }
  | 0x1B1 => p.onBench b fun x => { x with trptr := under 0xFFFFFFFF00000000#64 x.trptr v }
  | _ => p

/-- The place of an address of the stewards' space in a page with PIN, R and W (R362). -/
def Pkg.pinnedAt (p : Pkg) (va : Nat) : Option Nat :=
  match p.walk 8 va with
  | .leaf e _ level => if e.getLsbD 53 && e.getLsbD 2 && e.getLsbD 3 then some (pteAddr e + va % 2 ^ levelShift level) else none
  | .bad => none
  | .absent _ _ _ => none

/-- The place of the block of a steward's request, while it lies in a pinned page with R and W (R362). -/
def State.block (s : State) (die : Nat) : Option Nat := s.pkg.pinnedAt (s.pkg.oxdb.get 0 die).toNat

/-- Word i of a request block; 0 while it cannot be reached. -/
def State.blockWord (s : State) (die i : Nat) : Word := ((s.block die).map fun a => s.pkg.rd (a + 8 * i)).getD 0

/-- Onyx takes the request of a steward: TAG, and DONE cleared (R361). -/
def State.takeRequest (s : State) (die : Nat) : State :=
  let tag := bits (s.blockWord die 0) 32 32
  s.setOnyx { s.onyx with status := s.onyx.status.set 0 die (word (tag * 2 ^ 32 + bits (s.onyx.status.get 0 die) 8 8 * 256)) }

/-- A doorbell write hands a block to Onyx (R362): a block that is not in a pinned page with R and W completes at once with
BAD_ADDR. -/
def State.doorbell (s : State) (die : Nat) (v : Word) : State :=
  let va := bits v 6 42 * 64
  let s1 := { s.updBy .hub fun p => { p with oxdb := p.oxdb.set 0 die (word va) } with nextId := s.nextId + 1 }
  if (s.pkg.pinnedAt va).isSome then
    let idle := s.onyx.busy.isEmpty
    let s2 := s1.setOnyx { s1.onyx with busy := s1.onyx.busy.set 0 die (s1.nextId + 1) }
    if idle then s2.takeRequest die else s2
  else s1.setOnyx { s1.onyx with status := s1.onyx.status.set 0 die (under 0xFFFF#64 (s1.onyx.status.get 0 die) 0x202#64) }

/-- A write of `v` to control register n by the running thread. -/
def State.writeCtl (s : State) (n : Nat) (v : Word) : State :=
  let th := s.cur
  let who := Actor.thread th
  if 0x120 ≤ n ∧ n < 0x140 then s.writeClass who ((n - 0x120) / 4) (n % 4) v
  else
    match n with
    | 0x140 => { s with pair := s.pair.write v }
    | 0x141 => { s with pair := { s.pair with diverge := bits v 48 16, rollbk := bits v 32 16 } }
    | 0x144 => if 32 ≤ bits v 0 16 ∧ bits v 0 16 ≤ 320 then { s with pair := { s.pair with mper := bits v 0 16 } } else s
    | 0x160 => s.writeL2lk who v
    | 0x1B1 => (s.upd fun p => p.writeCtl th n v).drain (benchOf th) false
    | _ => s.upd fun p => p.writeCtl th n v

/-- wrctl, setctl and clrctl: `f` gives the new value from the old one and g[a] (R93). The doorbell of Onyx waits for OS = 0, and is
ignored with WARN while this steward's BUSY is 1 (R362). -/
def ctlForm (i : Instr) (d a : BitVec 6) (n : BitVec 10) (f : Word → Word → Word) (s : State) : Out :=
  let r := n.toNat
  if !assignedCtl (isSteward s.cur) r then s.illegal i
  else if s.privCtl r true then s.trap .priv i.trapWord
  else
    s.issue [gR d, gR a] fun t =>
      let old := s.readCtl s.cur r
      let new := f old (t.rg a.toNat)
      if r = 0x1C0 then
        if t.os ≠ 0 then s.stallWith .ownStores
        else
          let die := dieOf s.cur
          if s.onyx.busy.get 0 die ≠ 0 then s.retire (t.wg d.toNat old) 4 true
          else (s.doorbell die new).retire (t.wg d.toNat old) 4 false
      else
        let s' := s.writeCtl r new
        s'.retire ((s'.me.writeCtl r new).wg d.toNat old) 4 false

/-- rdctl (R93); a nonzero a is ignored with WARN. Reading ctl.cause clears TF (R346). -/
def execRdctl (d a : BitVec 6) (n : BitVec 10) (s : State) : Out :=
  let r := n.toNat
  if !assignedCtl (isSteward s.cur) r then s.illegal (.rdctl d a n)
  else if s.privCtl r false then s.trap .priv (Instr.rdctl d a n).trapWord
  else
    s.issue [gR d] fun t =>
      let done := fun (s1 : State) (v : Word) =>
        s1.retire ((if r = 0x11 then { t with tf := false } else t).wg d.toNat v) 4 (a != 0)
      if loggedCtl r then s.read 0x0E 0 (s.readCtl s.cur r) done else done s (s.readCtl s.cur r)
/-- wrctl (R93). -/
def execWrctl (d a : BitVec 6) (n : BitVec 10) (s : State) : Out := ctlForm (.wrctl d a n) d a n (fun _ v => v) s
/-- setctl (R93). -/
def execSetctl (d a : BitVec 6) (n : BitVec 10) (s : State) : Out := ctlForm (.setctl d a n) d a n (fun o v => o ||| v) s
/-- clrctl (R93). -/
def execClrctl (d a : BitVec 6) (n : BitVec 10) (s : State) : Out := ctlForm (.clrctl d a n) d a n (fun o v => o &&& ~~~v) s

end Sys2Proof.Machine
end

