-- ==== Sys2Proof/Machine/Clock.lean ====
section
/-! DEFINITION. Package time (R232, R233), scan classes (R235-R237), ingress, latch, egress and the publish instant (R239-R251),
budgets (R252), epochs, visibility and the horizon (R254, R255, R316, R322). -/

namespace Sys2Proof.Machine

/-! ### Counts kept in memory -/

/-- Add 1 to the 32-bit count at bit lo of a word, wrapping. -/
def Pkg.bump (p : Pkg) (a lo : Nat) : Pkg :=
  let w := p.rd a
  p.wr a (setBits w lo 32 (bits w lo 32 + 1))

/-- The site of the hub (R262). -/
def hubSite : Nat := 0x1100

/-! ### Package time -/

/-- A step of T for class n, whose cycle becomes c' (R233): the starts passed over are not taken, and STEP is set. A step backward
leaves C as it is. -/
def Class.stepOver (c : Class) (time c' : Nat) (forward : Bool) : Class :=
  let skipped := if c.started then c' - c.cyc.toNat else c' + 1 - c.first
  let d := { c with step := true }
  if !c.en then d
  else if c.started then
    if c' ≤ c.cyc.toNat then d else { d with cyc := word c', skip := (c.skip + skipped) % 65536, cutDone := some c' }
  else if forward && decide (c.startOf c.first ≤ time) then { d with first := c' + 1, skip := (c.skip + skipped) % 65536 }
  else d

/-- The cycle of class n after a step of T. -/
def Class.after (c : Class) (time : Nat) (forward : Bool) : Nat :=
  let held := (time - c.phase) / c.period
  if !c.started then held else if forward then max c.cyc.toNat held else c.cyc.toNat

/-- Class n takes a step of T; what its cut-off kept for an instant passed over is dropped. -/
def Pkg.stepClass (p : Pkg) (time n c' : Nat) (forward : Bool) : Pkg :=
  let c := p.cls n
  let q := p.onClass n fun c => c.stepOver time c' forward
  if c.started && decide (c.cyc.toNat < c') then { q with snaps := q.snaps.filter fun x => x.cls != n } else q

/-- The step of each class; the running ones have a TSTEP entry (R262). `s0` is the state to wait in. -/
def stepClasses (time : Nat) (forward : Bool) (s0 : State) : List Nat → State → Out
  | [], s => .next s
  | n :: r, s =>
    let c := s.pkg.cls n
    let move := fun (s1 : State) (c' : Nat) => stepClasses time forward s0 r (s1.updBy .hub fun p => p.stepClass time n c' forward)
    if c.en && c.started then s.choose ⟨0x0D, hubSite, n, word (c.after time forward)⟩ true (.next s0) fun s1 e => move s1 e.val.toNat
    else move s (c.after time forward)

/-- TIME_CORRECTION: an offset of 10 µs or less is slewed, a greater one stepped (R233). A correction comes of a valid sync. Recovery
marks that T has passed before a step back are not opened again. -/
def execTimeCorrection (ns : Int) (s : State) : Out :=
  let s1 := { s with hold := false, sync := true, synced := true }
  if ns.natAbs ≤ 10000 then .next { s1 with slew := 8 * ns }
  else
    let time := ((s.time : Int) + 8 * ns).toNat
    stepClasses time (decide (0 < ns)) s (List.range 8) { s1 with time := time, slew := 0, markAt := min s.markAt time }

/-- A recovery replay redoes a step of T for the class of the TSTEP entry that comes next (R260). -/
def State.redoStep (s : State) : Out :=
  match s.nextEntry hubSite with
  | none => .next s
  | some f =>
    if s.pair.recov && f.kind == 0x0D then
      s.choose f true (.next s) fun s1 e => .next (s1.updBy .hub fun p => p.stepClass s.time (e.arg % 8) e.val.toNat true)
    else .next s

/-- HOLDOVER_ENTRY (R233). -/
def execHoldoverEntry (s : State) : Out := .next { s with hold := true, sync := false }

/-- CLASS_START: a write with EN = 1 (R235). -/
def execClassStart (n : Nat) (v : Word) (s : State) : Out :=
  .next (if v.getLsbD 63 then s.writeClper .hub n v else s)

/-- CLASS_STOP: a write that clears EN (R235, R236). -/
def execClassStop (n : Nat) (s : State) : Out :=
  .next (if (s.pkg.cls n).en then s.writeClper .hub n (setBits (s.pkg.cls n).per 63 1 0) else s)

/-! ### Epochs, visibility and the horizon -/

/-- EPOCH_ADVANCE: Ecur advances once in 400 ticks (R316). -/
def execEpochAdvance (s : State) : Out :=
  if s.tick < s.epochTick + 400 then .next s
  else .next { s.updBy .hub (fun p => { p with ecur := (p.ecur + 1) % 2 ^ 48 }) with epochTick := s.epochTick + 400 }

/-- The epochs of accesses accepted and not performed. -/
def State.pendingEpochs (s : State) : List Nat := s.flight.flatMap fun a => a.acc.map fun x => x.2.2.2

/-- The greatest V the root may publish (R316): no access of an epoch below it is outstanding. -/
def State.bestV (s : State) : Nat := s.pendingEpochs.foldl min s.pkg.ecur

/-- A standby has received and consumed every entry below a position (R265, R322). -/
def State.consumed (s : State) (pos : Nat) : Bool := decide (pos ≤ s.pair.stored) && !(s.pair.inbox.any fun x => decide (x.1 < pos))

/-- The accesses that homes of this package have accepted and not performed. -/
def State.acceptedIds (s : State) : List Nat := (s.flight.filter fun a => !a.acc.isEmpty).map (·.id)

/-- A HEART's V whose paired position the standby now finds consumed waits for the accesses accepted before that point (R322). -/
def State.pairV (s : State) (x : Nat × Nat × Option (List Nat)) : Nat × Nat × Option (List Nat) :=
  if x.2.2.isNone && s.consumed x.1 then (x.1, x.2.1, some s.acceptedIds) else x

/-- A HEART's V may be taken: the log is consumed through the paired position and what was accepted before then is performed (R322). -/
def State.mayTakeV (s : State) (x : Nat × Nat × Option (List Nat)) : Bool :=
  match x.2.2 with
  | some ids => !(ids.any fun i => s.acceptedIds.contains i)
  | none => false

/-- VISIBILITY_PUBLISH: the root publishes V (R316, R322). -/
def execVisibilityPublish (s : State) : Out :=
  if s.pair.role = 2 then
    let vs := s.pair.pendingV.map s.pairV
    let v := (vs.filter s.mayTakeV).foldl (fun v x => max v x.2.1) s.pkg.vroot
    .next { s.updBy .hub (fun p => { p with vroot := max p.vroot v }) with
      pair := { s.pair with pendingV := vs.filter fun x => !s.mayTakeV x } }
  else .next (s.updBy .hub fun p => { p with vroot := max p.vroot s.bestV })

/-- The stamps of the live work of class k (R254): records, running tasks by TS, releases, messages and ops. -/
def State.liveStamps (s : State) (k : Nat) : List Nat :=
  let p := s.pkg
  let running := s.threads.filterMap fun t => match t.2.task with
    | some j => if j.cls = k then some t.2.ts.toNat else none
    | none => none
  let records := p.cores.flatMap fun c => c.2.pool.filterMap fun i =>
    let r := p.record (slotAddr c.1 i)
    if r.cls = k && !(r.state == 1) && !(decide (8 ≤ r.state) && decide (r.state ≤ 10)) then some r.stamp.toNat else none
  let releases := p.cores.flatMap fun c => c.2.releases.filterMap fun x =>
    if ((p.entryOf x.tenant x.entry).map (·.cls)) == some k then some x.cycle.toNat else none
  let mail := p.messages ++ p.offers.map (·.msg) ++ p.cores.flatMap fun c => c.2.mail.flatMap (·.2)
  let messages := mail.filterMap fun m => if m.cls = k then some m.stamp.toNat else none
  let ops := p.ops.filterMap fun x => match x.2 with
    | some o => if o.cls = k && !o.ended then some o.stamp.toNat else none
    | none => none
  let put := p.away.flatMap fun w => w.2.stamps.filterMap fun x => if x.1 = k then some x.2 else none
  running ++ records ++ releases ++ messages ++ ops ++ put

/-- Mk of R254. -/
def State.horizonOf (s : State) (k : Nat) : Nat :=
  (s.liveStamps k).foldl min ((s.pkg.cls k).cyc.toNat + 1)

/-- HORIZON_PUBLISH: the root's Hk rise to Mk, and V and all Hk reach a bench's node (R254, R255). -/
def execHorizonPublish (bench : Nat) (s : State) : Out :=
  let hs := (List.range 8).foldl (fun (m : Store Nat) k =>
    if (s.pkg.cls k).started then m.set 0 k (max (m.get 0 k) (s.horizonOf k)) else m.set 0 k 0) s.pkg.horizons
  .next (s.updBy .hub fun p =>
    { p with horizons := hs }.onBench bench fun b => { b with nodeV := p.vroot, nodeH := hs })

/-! ### Ingress (R240, R241) -/

/-- Where ingress entry i lies. -/
def ingressAddr (i : Nat) : Nat := imageBase + 0xF00000 + 32 * i

/-- The stream filter a frame matches: the lowest whose stream identification fits; only tagged frames are mapped (R253). -/
def Pkg.filterFor (p : Pkg) (f : Frame) : Option (Nat × StreamFilter) :=
  p.filters.findSome? fun x => match x.2 with
    | some q => if (if q.bySource then q.mac == f.srcMac else q.mac == f.dst) && f.vlan == some q.vlan then some (x.1, q) else none
    | none => none

/-- The gate of a filter is open at a timestamp (R240): its class runs and an interval of its list holds the offset. -/
def Pkg.gateAt (p : Pkg) (g time : Nat) : Bool :=
  match p.gates.get none g with
  | none => false
  | some q =>
    let c := p.cls q.cls
    c.started && decide (c.phase ≤ time) &&
      q.windows.any fun w => decide (8 * w.1 ≤ (time - c.phase) % c.period) && decide ((time - c.phase) % c.period < 8 * w.2)

/-- The longest frame of a port, from destination MAC to FCS (R253). -/
def portLimit (port : Nat) : Nat := if port < 8 then 1522 else 9022

/-- A recovery function takes the frame with sequence number `seq` at a time: it is new within the history, or ahead of it, or the first
since the reset timeout (R253; PRESUMED, log 83: the vector recovery algorithm of IEEE 802.1CB). -/
def Recovery.take (r : Recovery) (seq now : Nat) : Option Recovery :=
  let back := fun x y => (x + 65536 - y) % 65536
  match if now < r.time + 8 * r.timeout then r.last else none with
  | none => some { r with last := some seq, seen := [seq], time := now }
  | some l =>
    if back seq l = 0 then none
    else if back seq l < r.history then
      some { r with last := some seq, seen := seq :: r.seen.filter fun x => decide (back seq x < r.history), time := now }
    else if back l seq < r.history && !r.seen.contains seq then some { r with seen := seq :: r.seen, time := now }
    else none

/-- The stream of a filter takes the frame: always without a recovery function, else if the function takes its R-tag. -/
def Pkg.recover (p : Pkg) (q : StreamFilter) (f : Frame) : Option Pkg :=
  match q.recovery with
  | none => some p
  | some i =>
    match p.recoveries.get none i, f.rtag with
    | some r, some seq => (r.take seq f.time).map fun x => { p with recoveries := p.recoveries.set none i (some x) }
    | some _, none => none
    | none, _ => some p

/-- What an ingress entry does with a frame of its stream (R240, R241). -/
def Pkg.ingress (p : Pkg) (i : Nat) (q : StreamFilter) (f : Frame) : Pkg :=
  let a := ingressAddr i
  let w := p.rd a
  let t := bits w 56 3
  let r := bits w 48 8
  let len := bits w 32 14
  let off := bits w 0 14
  let g := p.region t r
  if !(w.getLsbD 63) then p
  else if !p.gateAt q.gate f.time then p.bump (a + 8) 32
  else if g.kind ≠ 1 ∨ g.len ≠ len ∨ f.payload.length < off + len then p.bump (a + 16) 32
  else { p.bump (a + 8) 0 with filling := p.filling ++ [⟨t, r, i, f.time, f.complete, (f.payload.drop off).take len⟩] }

/-- FRAME_INGRESS (R240, R241, R253). A frame that fails FCS, size or SDU counts at its port; one that the stream's recovery function
eliminates has no effect. DESIGN CHOICE (log 110): recovery is judged before the gate, so that a number is used up even where the gate then
drops its frame, and a frame without an R-tag is dropped, uncounted, where its stream has a recovery function. -/
def execFrameIngress (f : Frame) (s : State) : Out :=
  let refuse := Host.Outcome.next (s.updBy .hub fun p =>
    let q := p.ports.get Port.init f.port
    { p with ports := p.ports.set Port.init f.port { q with errors := q.errors + 1 } })
  if !f.fcsOk || decide (portLimit f.port < f.size) then refuse
  else
    match s.pkg.filterFor f with
    | none => .next s
    | some (i, q) =>
      if q.maxSdu < f.payload.length then refuse
      else
        match s.pkg.recover q f with
        | none => .next s
        | some _ => .next (s.updBy .hub fun p => ((p.recover q f).getD p).ingress i q f)

/-! ### The latch (R242, R265) -/

/-- The frame of a region that a cycle start latches: received whole, the latest timestamp of them. -/
def Pkg.filled (p : Pkg) (t r start : Nat) : Option (List Byte) :=
  (p.filling.foldl (fun (b : Option Filling) f =>
    if f.tenant = t ∧ f.region = r ∧ f.complete ≤ start then
      match b with
      | some x => if x.time ≤ f.time then some f else some x
      | none => some f
    else b) none).map (·.bytes)

/-- The frames of a region leave the filling bank; those not received whole count in LATE. -/
def Pkg.clearFilling (p : Pkg) (t r start : Nat) : Pkg :=
  let mine := p.filling.filter fun f => f.tenant == t && f.region == r
  let q := (mine.filter fun f => decide (start < f.complete)).foldl (fun p f => p.bump (ingressAddr f.filter + 16) 0) p
  { q with filling := q.filling.filter fun f => !(f.tenant == t && f.region == r) }

/-- The latch of one region, as one step at the image SRAM. -/
def Pkg.latch (p : Pkg) (t r start : Nat) (cyc : Word) (bank : Option (List Byte)) : Pkg :=
  let q := p.clearFilling t r start
  match bank with
  | some bs => (q.perform none (q.region t r).base bs.length (bytesNat bs)).wr (regionAddr t r + 16) cyc
  | none => q.bump (regionAddr t r + 24) 32

/-- A bank that the standby has asked for and received whole. -/
def State.fillOf (s : State) (pos t r : Nat) : Option (List Byte) :=
  let parts := s.pair.fills.filter fun f => f.1 == pos && f.2.1 == t && f.2.2.1 == r
  let len := (s.pkg.region t r).len
  if (List.range ((len + 31) / 32)).all fun i => parts.any fun f => f.2.2.2.1 == 32 * i && !f.2.2.2.2.isEmpty then
    some (((List.range ((len + 31) / 32)).flatMap fun i =>
      ((parts.find? fun f => f.2.2.2.1 == 32 * i && !f.2.2.2.2.isEmpty).map (·.2.2.2.2)).getD []).take len)
  else none

/-- Ask the primary for a bank, once (R265, R267). -/
def State.askFill (s : State) (pos t r : Nat) : State :=
  if s.pair.fills.any fun f => f.1 == pos && f.2.1 == t && f.2.2.1 == r then s
  else
    { s with pair := { s.pair with fills := (pos, t, r, 0, []) :: s.pair.fills } }.sendFlit 5 1
      (byteList pos 8 ++ [BitVec.ofNat 8 t, BitVec.ofNat 8 r])

/-- The region is a valid input region of a class that runs: its latch comes at a start of that class. -/
def Pkg.latches (p : Pkg) (t r : Nat) : Bool := (p.region t r).kind == 1 && (p.cls (p.region t r).cls).en

/-- A region takes its latch outcome: chosen and logged, or forced by the log; the region of another start is latched first where the
log names it. `s0` is the state to wait in. -/
def State.latchRegion (s0 s : State) (t r start : Nat) (cyc : Word) (k : State → Out) : Out :=
  let own := s.pkg.filled t r start
  let site := t * 2 ^ 39 + r * 2 ^ 31
  let e : LogEntry := match own with
    | some bs => ⟨0x01, hubSite, site + 1, (crc32 bs).setWidth 64⟩
    | none => ⟨0x01, hubSite, site, 0⟩
  let pos := if s.replaying then s.nextPos hubSite else s.lwr
  let keep := fun (s1 : State) (bs : List Byte) =>
    k { s1.updBy .hub (fun p => p.latch t r start cyc (some bs)) with
      pair := { s1.pair with oldBanks := (pos, t, r, bs) :: s1.pair.oldBanks.filter fun b => b.1 != pos } }
  s.choose e false (.next s0) fun s1 f =>
    if f.arg / 2 ≠ site / 2 then (if s.pkg.latches (f.arg / 2 ^ 39) (f.arg / 2 ^ 31 % 256) then .next s0 else .next s.diverge)
    else if f.arg % 2 = 0 then k (s1.updBy .hub fun p => p.latch t r start cyc none)
    else
      match own.filter fun bs => (crc32 bs).setWidth 64 == f.val with
      | some bs => keep s1 bs
      | none =>
        match s.pair.oldBanks.find? fun b => b.1 == pos && b.2.1 == t && b.2.2.1 == r with
        | some b => keep s1 b.2.2.2
        | none =>
          match s.fillOf pos t r with
          | some bs => keep (if (crc32 bs).setWidth 64 = f.val then s1 else s1.differ) bs
          | none => .next (s0.askFill pos t r)

/-! ### Cycle starts (R237, R242, R251, R252) -/

/-- The valid input regions of class n. -/
def Pkg.inputRegions (p : Pkg) (n : Nat) : List (Nat × Nat) :=
  (List.range 8).flatMap fun t => ((p.validRegions t).filter fun r => (p.region t r).kind == 1 && (p.region t r).cls == n).map fun r => (t, r)

/-- The valid entries of class n of every tenant. -/
def Pkg.entriesOf (p : Pkg) (n : Nat) : List (Nat × Nat × Entry) :=
  (List.range 8).flatMap fun t => if (p.desc t).isNone then [] else (List.range 1024).filterMap fun i =>
    match p.entryOf t i with
    | some e => if e.cls = n then some (t, i, e) else none
    | none => none

/-- The cyclic release of one entry (R251): nothing while blocked, OVRN while the task of the last release lives. -/
def Pkg.release (p : Pkg) (tick n : Nat) (cyc : Word) (x : Nat × Nat × Entry) : Pkg :=
  let (t, i, e) := x
  if !e.cyc || e.blk then p
  else if !p.inMap t (e.home / 8) then p.onClass n fun c => { c with ovrn := (c.ovrn + 1) % 65536 }
  else if (p.liveRel.any fun l => l.1 == t && l.2.1 == i) || ((p.core e.home).releases.any fun l => l.tenant == t && l.entry == i) then
    p.onClass n fun c => { c with ovrn := (c.ovrn + 1) % 65536 }
  else
    ({ p with arrival := p.arrival + 1 }.onCore e.home fun c => { c with releases := c.releases ++ [Release.mk t i cyc p.arrival tick] }).onBench
      (e.home / 8) fun b => { b with waking := b.waking || b.gated }

/-- A cycle start reads the tenants' task tables. DESIGN CHOICE (log 86): of one that cannot be reached, the steward of die 0 hears
once. -/
def Pkg.noteTables (p : Pkg) : Pkg :=
  (List.range 8).foldl (fun (p : Pkg) t => if (p.desc t).isSome then p.noteEntry 0 t 0 else p) p

/-- What a cycle start does after the latch: accounts refilled, waiting records ready, those put away for a switch among them, entries
released, and benches gated over work of a used-up budget to wake (R251, R252, R307). -/
def Pkg.startCycle (p : Pkg) (now n : Nat) (cyc : Word) : Pkg :=
  let es := p.entriesOf n
  let p := p.noteTables
  let q := es.foldl (fun (p : Pkg) x =>
    { p with budgets := p.budgets.set none (x.1 * 1024 + x.2.1) (if x.2.2.budget = 0 then none else some ⟨x.2.2.budget * 1600, false⟩) }) p
  let due := q.sleepers.filter fun z =>
    (z.state == 11 && z.key == n) || (z.state == 6 && (q.record z.slot).cls == n && decide ((cyc - word z.key).toNat < 2 ^ 63))
  let r := { q with away := q.away.map fun (w : Nat × Away) => (w.1, w.2.freeWhere fun z => z.state == 11 && z.key == n) }
  (es.foldl (fun (p : Pkg) x => p.release now n cyc x) (due.foldl (fun (p : Pkg) z => p.wakeAs now z.slot true) r)).rouseAll

/-- Class n has made the cut-off of its present cycle and sent what that took, both of which T reaches before the next start (R235). -/
def Pkg.cycleDone (p : Pkg) (n : Nat) : Bool :=
  let c := p.cls n
  !c.started || (c.cutDone == some c.cyc.toNat && !p.snaps.any fun x => x.cls == n && x.cycle == c.cyc.toNat)

/-- CYCLE_START: class n starts its next cycle, once T has reached its start, and after the publish instant of the one before. -/
def execCycleStart (n : Nat) (s : State) : Out :=
  let c := s.pkg.cls n
  let start := c.startOf c.next
  let cyc := word c.next
  if !c.en || decide (s.time < start) || !s.pkg.cycleDone n then .next s
  else
    forEach (fun (x : Nat × Nat) s1 k => State.latchRegion s s1 x.1 x.2 start cyc k) (s.pkg.inputRegions n) s fun s1 =>
      let now := s1.tick
      .next (s1.updBy .hub fun p => (p.onClass n fun c => { c with cyc := cyc, started := true }).startCycle now n cyc)

/-! ### Egress (R247-R250, R256) -/

/-- An egress entry. -/
structure Egress where
  en : Bool
  ten : Nat
  region : Nat
  port : Nat
  pcp : Nat
  stp : Bool
  vid : Nat
  paylen : Nat
  mac : Nat
  etype : Nat
  deriving DecidableEq, Repr

/-- Where egress entry e lies. -/
def egressAddr (e : Nat) : Nat := imageBase + 0xF08000 + 64 * e

/-- Egress entry e. -/
def Pkg.egress (p : Pkg) (e : Nat) : Egress :=
  let w := p.rd (egressAddr e)
  { en := w.getLsbD 63
    ten := bits w 56 3
    region := bits w 48 8
    port := bits w 44 4
    pcp := bits w 41 3
    stp := w.getLsbD 40
    vid := bits w 28 12
    paylen := bits w 0 11
    mac := bits (p.rd (egressAddr e + 8)) 0 48
    etype := bits (p.rd (egressAddr e + 16)) 0 16 }

/-- The entry takes part in the instants of class n: enabled, its region a valid output region of the class (R249). -/
def Pkg.takesPart (p : Pkg) (n e : Nat) : Bool :=
  let x := p.egress e
  let g := p.region x.ten x.region
  x.en && g.kind == 2 && g.cls == n

/-- The bytes of an entry's frame with its FCS: MAC addresses, C-tag, R-tag where it has one, EtherType and payload (R248). -/
def Pkg.frameLen (p : Pkg) (e : Nat) : Nat := 22 + (if p.rtags.get false e then 6 else 0) + (p.egress e).paylen

/-- The entry can be sent (R247), its frame within the port's limit (R253). DESIGN CHOICE (log 109): a PAYLEN outside 46-1,500 that fits the
port is sent as it stands, and a frame beyond the limit is not sent. -/
def Pkg.sendable (p : Pkg) (e : Nat) : Bool :=
  let x := p.egress e
  decide (x.port ≤ 9) && decide (1 ≤ x.vid) && decide (x.vid ≤ 4094) &&
    decide ((p.region x.ten x.region).len + (if x.stp then 8 else 0) ≤ x.paylen) && decide (p.frameLen e ≤ portLimit x.port)

/-- The ports of an entry's frame: its own, and where the stream is split a second one, if the frame is within that port's limit (R253). -/
def Pkg.portsOf (p : Pkg) (e : Nat) : List Nat :=
  (p.egress e).port :: ((p.splits.get none e).toList.filter fun port => decide (p.frameLen e ≤ portLimit port))

/-- The cut-off of one entry: region bytes and stamp in one step; NOPUB counts where no `pub` came since the last one. -/
def Pkg.cutEntry (p : Pkg) (n cyc pos e : Nat) : Pkg :=
  if !p.takesPart n e then p
  else
    let x := p.egress e
    let g := p.region x.ten x.region
    let published := p.pubs.contains (x.ten, x.region)
    let snap : Snapshot := ⟨e, x.ten, x.region, n, cyc, byteList (readMem p.mem g.base g.len) g.len, g.stamp, pos, published⟩
    let q := { p with snaps := p.snaps.filter (fun y => y.entry != e) ++ [snap] }
    if published then q else q.bump (egressAddr e + 32) 32

/-- PUB_CUTOFF (R249, R256). -/
def execPubCutoff (n : Nat) (s : State) : Out :=
  let c := s.pkg.cls n
  let cyc := c.cyc.toNat
  if !c.started || c.cutDone == some cyc || decide (s.time + c.cut < c.startOf cyc + c.puboff) then .next s
  else
    let pos := s.lwr
    .next (s.updBy .hub fun p =>
      let q := (List.range 256).foldl (fun p e => p.cutEntry n cyc pos e) p
      { q with pubs := q.pubs.filter fun x => (q.region x.1 x.2).cls != n }.onClass n fun c => { c with cutDone := some cyc })

/-- The n-th address after a MAC address, whose first octet is in bits 7:0. -/
def macPlus (m : BitVec 48) (n : Nat) : List Byte := bigEndian (bytesNat (byteList m.toNat 6).reverse + n) 6

/-- The six octets of a port's MAC address: the fused first address plus p, or the one the mailbox has given (R248). -/
def Pkg.portMac (p : Pkg) (port : Nat) : List Byte :=
  match (p.ports.get Port.init port).mac with
  | some m => byteList m.toNat 6
  | none => macPlus Config.firstMac port

/-- A frame of entry e at a port, without its FCS (R248). -/
def Pkg.frameBytes (p : Pkg) (e port cyc : Nat) (payload : List Byte) : List Byte :=
  let x := p.egress e
  byteList x.mac 6 ++ p.portMac port ++ bigEndian 0x8100 2 ++ bigEndian (x.pcp * 2 ^ 13 + x.vid) 2 ++
    (if p.rtags.get false e then bigEndian 0xF1C1 2 ++ bigEndian 0 2 ++ bigEndian (cyc % 65536) 2 else []) ++
    bigEndian x.etype 2 ++ payload

/-- The payload of an entry with data and stamp, or its fallback. -/
def Pkg.payload (p : Pkg) (e : Nat) (d : Option (List Byte × Word)) : List Byte :=
  let x := p.egress e
  match d with
  | none => byteList (readMem p.mem (imageBase + 0xF10000 + 1536 * e) x.paylen) x.paylen
  | some (bs, st) => (bs ++ (if x.stp then byteList st.toNat 8 else []) ++ List.replicate x.paylen 0#8).take x.paylen

/-- Compare a frame's CRC with the one noted for the entry and cycle, or note it (R260, R265). The answer tells whether it was noted. -/
def State.noteCrc (s : State) (e cyc : Nat) (crc : Word32) : State × Bool :=
  match s.pair.sentCrcs.find? fun x => x.1 == e && x.2.1 == cyc with
  | some x => (if x.2.2 = crc.toNat then s else s.differ, true)
  | none => ({ s with pair := { s.pair with sentCrcs := (e, cyc, crc.toNat) :: s.pair.sentCrcs } }, false)

/-- Compare a frame built on a standby with the CRC of the primary's (R265). -/
def State.comparePeer (s : State) (e cyc : Nat) (crc : Word32) : State :=
  match s.pair.peerCrcs.find? fun x => x.1 == e && x.2.1 == cyc with
  | some x => if x.2.2 = crc.toNat then s else s.differ
  | none => s

/-- The gate of a class, or of every other class, is open or closed throughout [a, a + n) under a list that runs: no entry with the
opposite state meets it. Times are in eighths of a nanosecond. -/
def gatesHold (g : GateList) (cls : Nat) (own : Bool) (a n : Nat) : Bool :=
  let cyc := 8 * g.cycle
  let starts := g.entries.foldl (fun (l : List (BitVec 8 × Nat × Nat) × Nat) x => (l.1 ++ [(x.1, l.2, 8 * x.2)], l.2 + 8 * x.2)) ([], 0)
  starts.1.all fun x =>
    let at_ := (a + cyc - (8 * g.base + x.2.1) % cyc) % cyc
    let bad := if own then !x.1.getLsbD cls else x.1 &&& ~~~(1#8 <<< cls) != 0
    !bad || (decide (x.2.2 ≤ at_) && decide (at_ + n ≤ cyc))

/-- The gate control list of a port in force at a time: a new one from its change on (R253). -/
def Port.list (q : Port) (time : Nat) : Option GateList :=
  match q.admin with
  | some (g, t) => if t ≤ time then some g else q.gates
  | none => q.gates

/-- The gate of a class is open throughout [a, a + n). PRESUMED (logs 31 and 83): a port without a list, or before the base time of its
first, has every gate open. -/
def Port.isOpen (q : Port) (cls a n : Nat) : Bool :=
  match q.list a with
  | none => true
  | some g => decide (a < 8 * g.base) || gatesHold g cls true a n

/-- Every other gate of the port is closed throughout [a, a + n). -/
def Port.othersClosed (q : Port) (cls a n : Nat) : Bool :=
  match q.list a with
  | none => false
  | some g => decide (8 * g.base ≤ a) && gatesHold g cls false a n

/-- The traffic class of a priority code point, with eight classes (PRESUMED, log 83: the mapping IEEE 802.1Q recommends). -/
def trafficClass (pcp : Nat) : Nat := match pcp with
  | 0 => 1
  | 1 => 0
  | n => n

/-- The time that n bytes take at a control port of 10 Gb/s or a sensor port of 200 Gb/s, in eighths of a nanosecond. -/
def sendTime (port n : Nat) : Nat := if port < 8 then n * 32 / 5 else n * 8 / 25

/-- When the frame of an entry is due at an instant: after the frames that go before it at its port, each with gap and preamble (R250). -/
def dueOf (instant port : Nat) (before : List (Nat × Nat)) : Nat :=
  instant + sendTime port ((before.filter fun x => x.1 == port).foldl (fun n x => n + x.2 + 20) 0)

/-- The frames that are on a port's wire at a time, or interrupted there. -/
def Port.onWire (q : Port) (time : Nat) : List (Nat × Nat × Nat) := q.wire.dropWhile fun w => decide (w.2.2 ≤ time)

/-- Frames of the port may be interrupted: a control port with preemptable classes, whose partner has answered where verification is on
(R253). -/
def Port.preempts (q : Port) (port : Nat) : Bool := decide (port < 8) && (!q.verify || Config.partnerVerifies port)

/-- A frame of a class may start at a time: the wire is free, or an express frame interrupts a preemptable one, of which a fragment of the
port's size has gone and 64 bytes are left (R253; PRESUMED, log 83: the sizes of IEEE 802.3br). -/
def Port.wireFree (q : Port) (port cls time : Nat) : Bool :=
  match q.onWire time with
  | [] => true
  | w :: _ =>
    q.preempts port && q.preemptable.getLsbD w.1 && !q.preemptable.getLsbD cls &&
      decide (w.2.1 + sendTime port (8 + 64 * (q.fragment.toNat + 1)) ≤ time) && decide (time + sendTime port 64 ≤ w.2.2)

/-- A frame of n bytes starts at a time; what it interrupts goes on after it. -/
def Port.start (q : Port) (port cls time n : Nat) : Port :=
  let d := sendTime port (n + 20)
  { q with wire := (cls, time, time + d) :: (q.onWire time).map fun w => (w.1, time + d, w.2.2 + d + sendTime port 24) }

/-- A frame goes out at its port when it is due, while the gate of its class is open to its end and the others have been closed long
enough; else it waits for its gate (R250). -/
def State.transmit (s : State) (f : SentFrame) (cls due : Nat) : State :=
  let q := s.pkg.ports.get Port.init f.port
  let clear := sendTime f.port (portLimit f.port + 20)
  let put := fun (x : Port) => s.updBy .hub fun p => { p with ports := p.ports.set Port.init f.port x }
  if q.isOpen cls due (sendTime f.port (f.bytes.length + 8)) && q.othersClosed cls (due - clear) clear then
    { put (q.start f.port cls due f.bytes.length) with outputs := s.outputs ++ [.frame f] }
  else put { q with waiting := q.waiting ++ [(f, cls, due)] }

/-- The output of a snapshot is committed (R256). -/
def State.commits (s : State) (n : Nat) (x : Snapshot) : Bool :=
  decide (x.cycle < s.pkg.horizons.get 0 n) && (!(s.pair.role == 1 && s.pair.ready) || decide (x.pos ≤ s.pair.lack))

/-- What an entry sends of a snapshot: data and stamp if they are committed, else those last committed, and the fallback where there are
none or they are too old (R249, R256). -/
def State.payloadOf (s : State) (n : Nat) (x : Snapshot) : State × List Byte :=
  let a := egressAddr x.entry
  let g := s.pkg.region (s.pkg.egress x.entry).ten (s.pkg.egress x.entry).region
  let s1 := if s.commits n x then s.updBy .hub fun p => { p with committed := p.committed.set none x.entry (some (x.bytes, x.stamp)) }
    else s.updBy .hub fun p => p.bump (a + 32) 0
  let data := match s1.pkg.committed.get none x.entry with
    | some d => if (g.limit : Int) < (word x.cycle - d.2).toInt then none else some d
    | none => none
  let s2 := if data.isNone then s1.updBy .hub fun p => p.bump (a + 24) 32 else s1
  (s2, s2.pkg.payload x.entry data)

/-- The frame of an entry, and its copy where the stream is split to a second port (R253), go out, each when it is due at its port. -/
def State.sendFrames (s : State) (x : Snapshot) (payload : List Byte) (due : Nat → Nat) : State :=
  let cls := trafficClass (s.pkg.egress x.entry).pcp
  (s.pkg.portsOf x.entry).foldl (fun s port =>
    let b := s.pkg.frameBytes x.entry port x.cycle payload
    s.transmit ⟨port, x.entry, x.cycle, b ++ byteList (crc32 b).toNat 4⟩ cls (due port)) s

/-- The instant of one entry (R249). `late` is a catch-up frame after a takeover, which counts MISSWIN and is sent only if it is
committed (R269); no frame built before is compared with it. -/
def State.sendEntry (s : State) (n : Nat) (late : Bool) (due : Nat → Nat) (x : Snapshot) : State :=
  let p := s.pkg
  let a := egressAddr x.entry
  let done := fun (s : State) => s.updBy .hub fun p => { p with snaps := p.snaps.filter fun y => y != x }
  if !p.takesPart n x.entry || !p.sendable x.entry || (late && !s.commits n x) then done s
  else
    let port := (p.egress x.entry).port
    let r := s.payloadOf n x
    let body := r.1.pkg.frameBytes x.entry port x.cycle r.2
    let crc := crc32 body
    let noted := if late then (r.1, false) else r.1.noteCrc x.entry x.cycle crc
    let s3 := done noted.1
    if s.pair.role = 2 then
      let s4 := (s3.comparePeer x.entry x.cycle crc).updBy .hub fun p => p.bump (a + 40) 32
      { s4 with pair := { s4.pair with built := (s4.pair.built.filter fun y => y.entry != x.entry) ++ [x] } }
    else
      let s4 := s3.updBy .hub fun p => p.bump (a + 24) 0
      let s5 := if late then s4.updBy .hub fun p => p.bump (a + 40) 0 else s4
      if noted.2 then s5
      else
        let s6 := s5.sendFrames x r.2 due
        if s.pair.role = 1 then s6.sendFlit 7 1 (byteList x.entry 2 ++ byteList crc.toNat 4 ++ byteList x.cycle 8) else s6

/-- Snapshots in ascending order of their entries. -/
def insertSnap (x : Snapshot) : List Snapshot → List Snapshot
  | [] => [x]
  | y :: r => if x.entry < y.entry then x :: y :: r else y :: insertSnap x r

/-- The snapshots that the cut-off of cycle cyc of class n took. -/
def Pkg.snapsOf (p : Pkg) (n cyc : Nat) : List Snapshot :=
  (p.snaps.filter fun x => x.cls == n && x.cycle == cyc).foldl (fun l x => insertSnap x l) []

/-- The entries of an instant in order, each with its due time (R250). -/
def State.sendAll (n instant : Nat) : List Snapshot → List (Nat × Nat) → State → State
  | [], _, s => s
  | x :: r, before, s =>
    State.sendAll n instant r
      (if s.pkg.takesPart n x.entry && s.pkg.sendable x.entry then
        before ++ (s.pkg.portsOf x.entry).map fun port => (port, s.pkg.frameLen x.entry) else before)
      (s.sendEntry n false (fun port => dueOf instant port before) x)

/-- PUBLISH_INSTANT: every entry that takes part sends one frame (R249). -/
def execPublishInstant (n : Nat) (s : State) : Out :=
  let c := s.pkg.cls n
  let cyc := c.cyc.toNat
  let instant := c.startOf cyc + c.puboff
  if !c.started || c.cutDone != some cyc || decide (s.time < instant) then .next s
  else
    let s1 := State.sendAll n instant (s.pkg.snapsOf n cyc) [] s
    .next (s1.updBy .hub fun p => p.onClass n fun c => { c with lastPub := cyc })

/-- The waiting frame of a port that may leave at a time: its gate is open to its end and the wire lets it start; of several the one of
the highest traffic class, in their order (R250; PRESUMED, log 83: strict priority). -/
def Port.leaves (q : Port) (port time : Nat) : Option (SentFrame × Nat × Nat) :=
  (q.waiting.filter fun f => decide (f.2.2 ≤ time) && q.isOpen f.2.1 time (sendTime port (f.1.bytes.length + 8)) && q.wireFree port f.2.1 time).foldl
    (fun (b : Option (SentFrame × Nat × Nat)) f => match b with
      | some g => if g.2.1 < f.2.1 then some f else some g
      | none => some f) none

/-- QBV_GATE_OPEN: a frame that waited for a gate of the port leaves, one at a time; one that is more than 40 ns past its due time counts in
MISSWIN (R250). -/
def execQbvGateOpen (port : Nat) (s : State) : Out :=
  let q := s.pkg.ports.get Port.init port
  match q.leaves port s.time with
  | none => .next s
  | some f =>
    let time := s.time
    let s1 := s.updBy .hub fun p =>
      let p := { p with ports := p.ports.set Port.init port { q.start port f.2.1 time f.1.bytes.length with waiting := q.waiting.erase f } }
      if f.2.2 + 320 < time then p.bump (egressAddr f.1.entry + 40) 0 else p
    .next { s1 with outputs := s1.outputs ++ [.frame f.1] }

/-! ### Stamp regions and budgets -/

/-- STAMP_REGION_WRITE: the store of a word of a region, at its home (R245). -/
def execStampRegionWrite (tenant region word : Nat) (v : Word) (s : State) : Out :=
  let a := regionAddr tenant region + 8 * word
  .next (s.updBy .hub fun p => (p.note none a 8 a 8).storeRegion tenant region word v)

/-- Each thread that runs a task of a budgeted entry draws a tick from its account, while the class runs (R252). -/
def Pkg.draw (p : Pkg) (k : Task) : Pkg :=
  let key := k.tenant * 1024 + k.entry
  match p.budgets.get none key with
  | some b => if k.bud && (p.cls k.cls).started && decide (0 < b.left) then
      { p with budgets := p.budgets.set none key (some { b with left := b.left - 1 }) } else p
  | none => p

/-- BUDGET_EXHAUSTED: the account of an entry is at 0; the grace of its running tasks begins (R252). -/
def execBudgetExhausted (tenant entry : Nat) (s : State) : Out :=
  let key := tenant * 1024 + entry
  match s.pkg.budgets.get none key with
  | none => .next s
  | some b =>
    if b.left ≠ 0 || b.grace then .next s
    else
      let mine := fun (t : Thread) => match t.task with
        | some k => k.tenant == tenant && k.entry == entry && k.bud && (s.pkg.cls k.cls).started
        | none => false
      .next { s.updBy .hub (fun p => { p with budgets := p.budgets.set none key (some ⟨0, true⟩) }) with
        threads := s.threads.map fun x => (x.1, if mine x.2 && !x.2.stopDue then { x.2 with stopDue := true, stopAt := s.tick } else x.2) }

/-- The thread waits to suspend (R159, R252). -/
def Thread.isLeaving (t : Thread) : Bool :=
  match t.stall with
  | some .leaving => true
  | some (.joining _) => true
  | some (.cycle _) => true
  | _ => false

/-- BUDGET_GRACE_END: a task still running is to be stopped, unless it already waits to suspend (R252). -/
def execBudgetGraceEnd (t : Nat) (s : State) : Out :=
  let x := s.thr t
  if !x.stopDue || x.task.isNone || x.isLeaving || decide (s.tick < x.stopAt + 16000) then .next s
  else .next (s.setThr t (x.due s.tick))

/-- IDLE_TIMEOUT: the limit of an `idle` has passed; an interrupt that is pending by then ends it as such (R100). -/
def execIdleTimeout (t : Nat) (s : State) : Out :=
  match (s.thr t).stall with
  | some (.idle (some limit) d w) =>
    if limit ≤ s.tick then s.idleEnd t d w (flag (s.thr t).irqNow) else .next s
  | _ => .next s

end Sys2Proof.Machine
end

