-- ==== Sys2Proof/Machine/Schedule.lean ====
section
/-! DEFINITION. Dispatch (R297-R301, R354), forwarding and stealing (R302, R303), ageing (R309), the arrival of messages (R305), the
end of cancelled and failed tasks (R173, R308, R350, R355), pre-emption (R352, R353), interrupts (R347, R376), launches (R306, R379)
and PC samples (R388). -/

namespace Sys2Proof.Machine

/-! ### PC samples (R388) -/

/-- The sample period of a bench, in core ticks (R388). -/
def Bench.samplePeriod (x : Bench) : Nat := 1024 * bits x.trctl 48 12

/-- TRACE_SAMPLE: a sample period has passed for a thread (R388). -/
def execTraceSample (t : Nat) (s : State) : Out :=
  match (s.thr t).task with
  | none => .next s
  | some k =>
    let now := s.ticks
    let tick := s.tick
    let x := s.thr t
    let b := s.pkg.bench (benchOf t)
    if !(b.trctl.getLsbD 63 && b.trctl.getLsbD 60) || s.tick < b.samples.get 0 t + b.samplePeriod then .next s
    else
      .next ((s.updBy .hub fun p =>
        (p.trace (benchOf t) now 60 (traceWords 3 now (traceWho k t 0) x.pc x.tstat)).onBench (benchOf t) fun b =>
          { b with samples := b.samples.set 0 t tick }).drain (benchOf t) false)

/-! ### Failure (R350, R355) -/

/-- Steps 2 to 4 of R350 for the task of a record: it ends FAILED, its attached ops cancelled, its join link taken with X null; the
orphan handler gets a failure message, and the slot is freed once that is accepted. -/
def State.failRecord (s : State) (who : Actor) (n tenant slot link : Nat) (cause reason : Nat) (epc cause2 last : Word) (wait : Out)
    (go : State → Out) : Out :=
  let r := s.pkg.record slot
  s.dropOps who n tenant slot wait fun s1 =>
    s1.endTask who n n tenant slot link [nullWit] 10 wait fun s2 _ =>
      let now := s2.ticks
      let pay := [word slot, word (cause + 256 * reason), epc, cause2, last]
      go (s2.updBy who fun p =>
        match p.toOrphanHandler tenant now r.job (slotCore slot) 1 r.stamp pay r.cls (some slot) with
        | some q => q
        | none => { p.freeUp slot with failures := p.failures + 1 })

/-- TASK_FAIL: the steward fails a task parked on a double fault, or one whose pre-emption finds S = 1 for 10 µs, a page or a rotate it
waits for or not (R350, R352). It reads the trap registers, ctl.cause among them, so TF is clear (log 20). An open debug session holds a parked
thread instead. -/
def execTaskFail (t : Nat) (s : State) : Out :=
  let x := s.thr t
  match x.task with
  | none => .next s
  | some k =>
    let parked := x.park == some .doubleFault
    let late := x.preemptDue && x.sup && !parked && x.park != some .debugger && decide (x.dueAt + 16000 ≤ s.tick)
    if !(parked || late) || x.ol ≠ 0 || s.storesOwed t ≠ 0 || (parked && s.onyx.dbgOpen) then .next s
    else
      s.failRecord (.thread t) t k.tenant k.slot k.link (if parked then 0x10 else 0x0E) 0 x.epc x.cause2 x.tval2 (.next s) fun s1 =>
        let s2 := s1.leave t k 10 x.pc
        .next (s2.setThr t { s2.thr t with tf := false })

/-! ### Pre-emption (R352, R353) -/

/-- The virtual address of the save area of a slot. -/
def saveArea (d : TenantDesc) (slot : Nat) : Nat := d.csbase + 4096 * (256 * slotCore slot + slotIndex slot)

/-- The first 2 KiB of the save area, as a number (R353). -/
def Thread.context (t : Thread) : Nat :=
  let words := ((List.range 64).map fun i => t.rg i) ++ ((List.range 16).map fun i => t.rw i) ++ ((List.range 8).map fun i => t.rx i)
  let masks := (List.range 8).foldl (fun n i => n + (t.rk i).toNat * 2 ^ (16 * i)) 0
  let rest := wordsNat [t.pc, t.tstat, t.prog, t.fw, word (t.oc % 64 + t.ot % 64 * 2 ^ 8 + t.vw % 2 ^ 32 * 2 ^ 32)]
  wordsNat words + masks * 2 ^ 5632 + rest * 2 ^ 5760

/-- Write the context and the vector registers that the task wrote. -/
def Pkg.putContext (p : Pkg) (a : Nat) (t : Thread) : Pkg :=
  (List.range 32).foldl (fun p i => if t.vw.testBit i then p.perform none (a + 2048 + 64 * i) 64 (t.rv i).toNat else p)
    (p.perform none a 2048 t.context)

/-- A STOP entry: where it is made, the progress index and the instruction; forced in replay (R262). -/
def State.stopPoint (s : State) (n : Nat) (k : State → Out) : Out :=
  let t := s.thr n
  s.choose ⟨0x08, n, bits t.prog 0 4, t.pc⟩ true (.next s) fun s1 e => if e.val = t.pc then k s1 else .next s

/-- The STATE that a pre-emption of thread n writes: STOPPED for a budget stop, READY otherwise (R252, R352). DESIGN CHOICE (log 101): the
STOP entry does not say which, so a replay takes the stop of a budgeted task, whose class runs and which nothing else here pre-empts, for
one of its budget. -/
def State.stopState (s : State) (n : Nat) (k : Task) : Nat :=
  let t := s.thr n
  let budget := if s.replaying then k.bud && (s.pkg.cls k.cls).started && !(t.preemptDue && !t.stopDue) && !(s.pkg.bench (benchOf n)).switching
    else t.stopDue && decide (t.stopAt + 16000 ≤ s.tick)
  if budget then 11 else 0

/-- Take the task of thread n off it with its context, once OL = OS = 0. `waited` tells that it was stalled in `swait`. A save area that fails makes a record failure, of which the steward hears (R399). -/
def State.preemptNow (s : State) (n : Nat) (k : Task) (waited : Bool) : Out :=
  let t := s.thr n
  s.stopPoint n fun s1 =>
    match (s1.pkg.desc k.tenant).bind fun d => (s1.pkg.place k.tenant (saveArea d k.slot) .store).map fun a => (d, a) with
    | none =>
      let bad := word (((s1.pkg.desc k.tenant).map fun d => saveArea d k.slot).getD 0)
      let s2 := s1.updBy (.thread n) fun p => (p.putRecord k.slot { p.record k.slot with fail := true }).lost (dieOf n) bad.toNat
      s2.failRecord (.thread n) n k.tenant k.slot k.link 0x11 0 0 0 bad (.next s) fun s3 => .next (s3.leave n k 10 t.pc)
    | some (d, a) =>
      let st := s.stopState n k
      let now := s1.tick
      let r : Rec :=
        { fail := false, pre := true, entry := k.entry, bud := k.bud, resume := t.pc.toNat, key := 0, state := st, gen := k.gen
          dom := k.dom, cls := k.cls, pri := k.pri, job := k.job, stamp := t.ts, link := k.link
          args := [t.rg 1, t.rg 2, t.rg 3, t.rg 4] }
      let s2 := s1.updBy (.thread n) fun p =>
        let q := ((p.putContext a t).used k.tenant (saveArea d k.slot) .store).putRecord k.slot r
        let q := if waited then { q with waits := q.waits ++ [(coreOf n, k.tenant, k.slot)] } else q
        let q := { q with ops := q.ops.map fun (x : Nat × Option Op) =>
          (x.1, x.2.map fun (o : Op) => if o.thread = some n then { o with thread := none } else o) }
        if st = 11 then { q with sleepers := q.sleepers ++ [Sleeper.mk k.slot k.tenant 11 k.cls] }
        else q.candidate (slotCore k.slot) k.slot k.tenant now false false
      .next (s2.leave n k st t.pc)

/-- A pre-emption can take effect at thread n: due (in replay, named by the log), at a boundary with S = 0, not parked but on a page,
and nothing outstanding (R352), what a `sigb` or `cancel` still writes included (log 73). -/
def State.canPreempt (s : State) (n : Nat) : Bool :=
  let t := s.thr n
  let named := match s.nextEntry n with
    | some e => e.kind == 0x08 && e.val == t.pc && e.arg == bits t.prog 0 4
    | none => false
  let place := match t.park with
    | none => true
    | some (.page _) => true
    | some .doubleFault => false
    | some .debugger => false
  (if s.replaying then named else t.preemptDue) && !t.sup && place && t.ol == 0 && s.storesOwed n == 0 && !s.pkg.owes n

/-- PREEMPT (R352): a waiting instruction is withdrawn first (R80, R156). -/
def execPreempt (t : Nat) (s : State) : Out :=
  match (s.thr t).task with
  | none => .next s
  | some k => if s.canPreempt t then (s.withdraw t).preemptNow t k ((s.thr t).stall == some .signal) else .next s

/-! ### Interrupts (R347, R376) -/

/-- INTERRUPT: taken at a boundary with S = 0; a waiting instruction is withdrawn, and one parked on a page runs again later. -/
def execInterrupt (t : Nat) (s : State) : Out :=
  let x := s.thr t
  let place := match x.park with
    | none => true
    | some (.page _) => true
    | some .doubleFault => false
    | some .debugger => false
  if !x.irqNow || x.sup || !place || x.preemptDue || (x.task.isNone && !isSteward t) then .next s
  else
    let s1 := s.withdraw t
    .next ((s1.setThr t { s1.thr t with park := none }).takeIrq t)

/-- Make INT pending; a second one is merged (R376). -/
def State.raiseInt (s : State) (t : Nat) (src : Word) (ten : Option Nat) : State :=
  let x := s.thr t
  if x.irq.isSome then s else s.setThr t { x with irq := some src, irqTen := ten }

/-- HOST_DOORBELL (R376): a host write of eight bytes, a HOSTIN entry (R262). -/
def execHostDoorbell (tenant t : Nat) (s : State) : Out :=
  s.choose ⟨0x0C, hubSite, 8, word (0x8000 + 8 * t)⟩ true (.next s) fun s1 _ => .next (s1.raiseInt t 1 (some tenant))

/-- STEWARD_NOTICE (R376). -/
def execStewardNotice (t : Nat) (s : State) : Out := .next (s.raiseInt t 2 none)

/-! ### Candidates (R300, R301, R309) -/

/-- What a thread may take. -/
inductive Pick where
  | message (m : Message)
  | ready (r : Ready)
  | release (r : Release)
  | deque (slot : Nat)
  deriving DecidableEq, Repr

/-- A candidate with its place in the order of R301: rank and what orders the rank, the last number being its arrival. -/
structure Cand where
  key : List Nat
  since : Nat
  pick : Pick
  deriving DecidableEq, Repr

/-- Lexicographic order. -/
def keyLess : List Nat → List Nat → Bool
  | [], [] => false
  | [], _ :: _ => true
  | _ :: _, [] => false
  | a :: x, b :: y => decide (a < b) || (a == b && keyLess x y)

/-- A record can be dispatched: not failed (R158, R160), its entry not blocked, its job not stopped, its budget not used up (R252). -/
def Pkg.open_ (p : Pkg) (c t slot : Nat) : Bool :=
  let r := p.record slot
  !r.fail && r.state != 10 && !p.blocked t r.entry && !p.jobStopped (c / 8) t r.job && !(r.bud && p.budgetOut t r.entry r.cls)

/-- The entry of a message that creates a task has its budget used up: the task would not be dispatched (R252). -/
def Pkg.mailOut (p : Pkg) (t : Nat) (m : Message) : Bool :=
  match p.entryOf t m.entry with
  | some e => e.budget != 0 && p.budgetOut t m.entry e.cls
  | none => false

/-- The order of a record in the ranks 1 and 3. -/
def rankOf (pri stamp arrival since : Nat) (aged : Bool) : List Nat :=
  if pri = 0 then [1, stamp, arrival] else if aged then [3, 0, since, arrival] else [3, 1 + pri, stamp, arrival]

/-- The candidates of core c (R301), its pool with `room` for a new record or not. -/
def Pkg.candidatesIn (p : Pkg) (c : Nat) (room : Bool) : List Cand :=
  let b := p.bench (c / 8)
  match b.tenant with
  | none => []
  | some t =>
    if b.gated || b.switching then []
    else
      let k := p.core c
      let channel := (p.entryOf t 1022).isSome
      let mail := (p.mailOf c).filterMap fun m =>
        if !m.wt && m.tenant == t && !(channel && m.entry == 1022) && !p.blocked t m.entry && !p.jobStopped (c / 8) t m.job &&
            !p.mailOut t m && room then
          some ⟨rankOf m.pri m.stamp.toNat m.arrival m.came m.aged, m.came, .message m⟩
        else none
      let ready := k.ready.filterMap fun x =>
        let r := p.record x.slot
        if x.tenant == t && p.open_ c t x.slot then
          some ⟨if x.cyc then [2, r.cls, r.stamp.toNat, 0, x.arrival] else rankOf r.pri r.stamp.toNat x.arrival x.since x.aged,
            x.since, .ready x⟩
        else none
      let releases := k.releases.filterMap fun x =>
        match p.entryOf t x.entry with
        | some e =>
          if x.tenant == t && room && !e.blk && !p.jobStopped (c / 8) t e.job && !(e.budget != 0 && p.budgetOut t x.entry e.cls) then
            some ⟨[2, e.cls, x.cycle.toNat, 1, x.entry], x.since, .release x⟩
          else none
        | none => none
      let deque := ((k.hwDeque ++ p.memDeque c).zipIdx).filterMap fun x =>
        if p.open_ c t x.1 then some ⟨[4, x.2], 0, .deque x.1⟩ else none
      mail ++ ready ++ releases ++ deque

/-- The candidates of core c: what needs a new record waits for a free slot (R296, R301). -/
def Pkg.candidates (p : Pkg) (c : Nat) : List Cand := p.candidatesIn c (p.freeSlot c).isSome

/-- The first candidate in the order. -/
def firstOf (cs : List Cand) : Option Cand :=
  cs.foldl (fun (b : Option Cand) x => match b with
    | none => some x
    | some y => if keyLess x.key y.key then some x else some y) none

/-- Another candidate stands at the same place of the order and arrived in the same tick: a choice of R262. Rank 2 and the deque are
orders of their own. -/
def tied (cs : List Cand) (x : Cand) : Bool :=
  x.key.headD 0 != 2 && x.key.headD 0 != 4 && cs.any fun y => y != x && y.key.dropLast == x.key.dropLast && y.since == x.since

/-- What a DISPATCH entry names: the record slot, or the mailbox place of a message (16 PRI + place). -/
def Pkg.pickName (p : Pkg) (c : Nat) : Pick → Nat
  | .message m => 16 * m.pri + ((p.core c).mail.get [] m.pri).findIdx fun x => x.id == m.id
  | .ready r => r.slot
  | .release _ => (p.freeSlot c).getD 0
  | .deque slot => slot

/-! ### Dispatch (R160, R297, R299, R354) -/

/-- The registers of R297 for a thread that starts a segment of task k. Its bank is to be loaded where its entry is not that of the last
task (R23, R160), or the last task's has not been (DEDUCED, log 33). -/
def Thread.start (t : Thread) (k : Task) (pc : Nat) (stamp : Word) (gs : List Word) (histN : Nat) : Thread :=
  { t with
    g := gs.zipIdx.foldl (fun (m : Store Word) x => m.set 0 (x.2 + 1) x.1) []
    v := [], k := [], w := [], x := [], pc := word pc, ol := 0, os := 0, oc := 0, ot := 0, busy := [], tstat := 0, prog := 0, fw := 0
    ts := stamp, vw := 0, task := some k, cbNeed := t.cbNeed || t.cbEntry != k.tenant * 1024 + k.entry + 1
    cbEntry := k.tenant * 1024 + k.entry + 1, stall := none, preemptDue := false, stopDue := false, fence := histN }

/-- A thread takes a new segment: the record is RUNNING, the trace sees it, and where R258 has a mark open the segment is new. -/
def State.begin_ (s : State) (n : Nat) (k : Task) (t : Thread) : Out :=
  let now := s.ticks
  let tick := s.tick
  let s1 := s.updBy (.thread n) fun p =>
    let q := (p.onCore (slotCore k.slot) fun c =>
      { c with launched := c.launched.erase k.slot, spawned := c.spawned.erase k.slot, yields := c.yields.filter fun y => y.1 != k.slot }).onCore
        (coreOf n) fun c => { c with started := tick }
    { q with waits := q.waits.filter fun x => !(x.2.1 == k.tenant && x.2.2 == k.slot) }.trace (benchOf n) now 62
      (traceWords 1 now (traceWho k n k.source) t.pc t.ts)
  .next ((s1.setThr n t).drain (benchOf n) false)

/-- Read a word of a save area. -/
def Pkg.saved (p : Pkg) (a off : Nat) : Word := p.rd (a + off)

/-- The thread as a saved context gives it (R354). -/
def Thread.restore (t : Thread) (p : Pkg) (a : Nat) (k : Task) (stamp : Word) (oc ot : Nat) : Thread :=
  let u := t.start k 0 stamp [] p.histN
  let vw := bits (p.saved a 0x2F0) 32 32
  { u with
    g := (List.range 64).foldl (fun (m : Store Word) i => if i = 0 then m else m.set 0 i (p.saved a (8 * i))) []
    w := (List.range 16).foldl (fun (m : Store Word) i => if i = 0 then m else m.set 0 i (p.saved a (0x200 + 8 * i))) []
    x := (List.range 8).foldl (fun (m : Store Word) i => m.set 0 i (p.saved a (0x280 + 8 * i))) []
    k := (List.range 8).foldl (fun (m : Store (BitVec 16)) i =>
      if i = 0 then m else m.set 0 i (BitVec.ofNat 16 (readMem p.mem (a + 0x2C0 + 2 * i) 2))) []
    v := (List.range 32).foldl (fun (m : Store Vec) i =>
      if vw.testBit i then m.set 0 i (BitVec.ofNat 512 (readMem p.mem (a + 0x800 + 64 * i) 64)) else m) []
    pc := p.saved a 0x2D0 &&& ~~~1#64
    tstat := p.saved a 0x2D8 &&& 0x3FFFFF#64
    prog := p.saved a 0x2E0 &&& 0xF#64
    fw := p.saved a 0x2E8
    vw := vw
    oc := oc
    ot := ot }

/-- The ops that a pre-empted task's counters held and that have not ended count for its thread again. -/
def Pkg.recount (p : Pkg) (t slot n : Nat) : Pkg × Nat × Nat :=
  let mine := (p.opsOf t slot).filter fun x => x.2.counted && !x.2.ended && !x.2.det
  (mine.foldl (fun p x => p.onOp x.1 fun o => { o with thread := some n }) p, (mine.filter fun x => isCopy x.1).length,
    (mine.filter fun x => !isCopy x.1).length)

/-- The lines that a restore reads: the context area, and v[n] where bit n of VW is 1 (R353, R354). -/
def Pkg.restoreLines (p : Pkg) (a : Nat) : List Nat :=
  let vw := bits (p.saved a 0x2F0) 32 32
  ((List.range 12).map fun i => a / 64 + i) ++ ((List.range 32).filter fun i => vw.testBit i).map fun i => (a + 0x800) / 64 + i

/-- Thread n runs the record of a slot, its context restored where PRE = 1. A restore that reads a line in error is refused, and the
package rolls back (R355); an area that cannot be reached makes a record failure, of which the steward hears (R399). -/
def State.runRecord (s : State) (n slot : Nat) (k : Task) (gs : List Word) : Out :=
  let r := s.pkg.record slot
  let running := fun (p : Pkg) => p.putRecord slot { p.record slot with pre := false, state := 1, key := 0 }
  if !r.pre then s.updBy (.thread n) running |>.begin_ n k ((s.thr n).start k r.resume r.stamp gs s.pkg.histN)
  else
    match (s.pkg.desc k.tenant).bind fun d => (s.pkg.place k.tenant (saveArea d slot) .load).map fun a => (d, a) with
    | none =>
      let bad := word (((s.pkg.desc k.tenant).map fun d => saveArea d slot).getD 0)
      let s2 := s.updBy (.thread n) fun p => (p.putRecord slot { p.record slot with fail := true }).lost (dieOf n) bad.toNat
      s2.failRecord (.thread n) n k.tenant slot r.link 0x11 0 0 0 bad (.next s) .next
    | some (d, a) =>
      if (s.pkg.restoreLines a).any s.pkg.errLines.contains then .next s.noteError
      else
        let x := s.pkg.recount k.tenant slot n
        let s2 := s.updBy (.thread n) fun p => (running (p.recount k.tenant slot n).1).used k.tenant (saveArea d slot) .load
        s2.begin_ n k ((s2.thr n).restore s2.pkg a k r.stamp x.2.1 x.2.2)

/-- The task that a record is. -/
def Pkg.taskOf (p : Pkg) (t slot : Nat) (sender : Option Nat) (source : Nat) : Task :=
  let r := p.record slot
  { tenant := t, slot := slot, entry := r.entry, job := r.job, gen := r.gen, pri := r.pri, cls := r.cls, dom := r.dom, bud := r.bud
    link := r.link, seen := false, sender := sender, tag := 0, source := source }

/-- Dispatch of an existing record: an older generation ends as cancelled instead (R173). -/
def State.takeRecord (s : State) (n t slot : Nat) (sender : Option Nat) (source : Nat) : Out :=
  let k := s.pkg.taskOf t slot sender source
  s.withGen (benchOf n) t k.job fun s0 g =>
    s0.observe n g k.job 2 2 (g != k.gen) fun s1 old =>
      if old then
        s1.dropOps (.thread n) n t slot (.next s) fun s2 =>
          s2.endTask (.thread n) n n t slot k.link [nullWit] 9 (.next s) fun s3 _ => .next s3
      else s1.runRecord n slot k (s1.pkg.record slot).args

/-- A task made from a message (R167, R299); one of an old generation is discarded (R305). -/
def State.takeMessage (s : State) (n c t : Nat) (m : Message) : Out :=
  let now := s.ticks
  let s1 := s.updBy (.thread n) fun p => (p.dropMail c m).useGen (c / 8) t m.job
  if s.pkg.oldMessage m then
    .next (s1.updBy (.thread n) fun p => p.onCore c fun k => { k with stalegen := (k.stalegen + 1) % 65536 })
  else
    match s.pkg.entryOf t m.entry, s.pkg.freeSlot c with
    | some e, some slot =>
      let r : Rec :=
        { fail := false, pre := false, entry := m.entry, bud := e.budget != 0, resume := e.addr, key := 0, state := 1, gen := m.gen
          dom := e.dom, cls := e.cls, pri := e.pri, job := m.job, stamp := m.stamp, link := 0, args := m.pay.take 4 }
      let s2 := s1.updBy (.thread n) fun p =>
        (((p.noteEntry (dieOf n) t m.entry).takeSlot slot).putRecord slot r).took now c t slot m
      let k := { s2.pkg.taskOf t slot (some m.src) 0 with tag := m.tag }
      s2.runRecord n slot k (m.pay ++ [m.header])
    | _, _ => .next (s1.updBy (.thread n) fun p => (p.noteEntry (dieOf n) t m.entry).onCore c fun k => { k with refuse := (k.refuse + 1) % 65536 })

/-- A task made from a cyclic release (R299); an entry no longer valid is not released. -/
def State.takeRelease (s : State) (n home c t : Nat) (x : Release) : Out :=
  let s1 := s.updBy (.thread n) fun p => p.onCore home fun k => { k with releases := k.releases.erase x }
  match s.pkg.entryOf t x.entry, s.pkg.freeSlot c with
  | some e, some slot =>
    s1.withGen (benchOf n) t e.job fun s2 g =>
      let r : Rec :=
        { fail := false, pre := false, entry := x.entry, bud := e.budget != 0, resume := e.addr, key := 0, state := 1, gen := g
          dom := e.dom, cls := e.cls, pri := e.pri, job := e.job, stamp := x.cycle, link := 0, args := e.args }
      let s3 := s2.updBy (.thread n) fun p =>
        { ((p.noteEntry (dieOf n) t x.entry).takeSlot slot).putRecord slot r with liveRel := (t, x.entry, slot) :: p.liveRel }
      s3.runRecord n slot (s3.pkg.taskOf t slot none 2) e.args
  | _, _ => .next (s1.updBy (.thread n) fun p => p.noteEntry (dieOf n) t x.entry)

/-- The source field of the trace record of a deque record (R389): launched, spawned, else woken by `yield`. -/
def State.dequeSource (s : State) (slot : Nat) : Nat :=
  let k := s.pkg.core (slotCore slot)
  if k.launched.contains slot then 3 else if k.spawned.contains slot then (Config.traceSource s.free).toNat else 1

/-- Thread n of core c takes a candidate. -/
def State.take (s : State) (n c t : Nat) (x : Pick) : Out :=
  match x with
  | .message m => s.takeMessage n c t m
  | .ready r =>
    (s.updBy (.thread n) fun p => p.onCore c fun k => { k with ready := k.ready.erase r }).takeRecord n t r.slot r.sender
      (if r.handed then 4 else 1)
  | .release r => s.takeRelease n c c t r
  | .deque slot =>
    let source := s.dequeSource slot
    ({ s.updBy (.thread n) (fun p => (p.refill c).takeDeque c slot) with free := s.free + 1 }).takeRecord n t slot none source

/-- A thief that has a candidate withdraws its request (R303). -/
def Pkg.withdrawThief (p : Pkg) (c : Nat) : Pkg :=
  match (p.core c).thief with
  | none => p
  | some f =>
    let q := match f.asked with
      | some v => p.onCore v fun k => { k with steals := k.steals.erase c }
      | none => p
    q.onCore c fun k => { k with thief := none }

/-- THREAD_DISPATCH: the lowest free thread of a core takes the first candidate (R301). A tie is a DISPATCH entry, and a replay takes
what the entry names. -/
def execThreadDispatch (core : Nat) (s : State) : Out :=
  match s.freeThread core, (s.pkg.bench (core / 8)).tenant with
  | some n, some t =>
    let cs := if s.tenantRuns t then s.pkg.candidates core else []
    let go := fun (s1 : State) (x : Pick) => (s1.updBy .hub fun p => p.withdrawThief core).take n core t x
    let entry := fun (x : Pick) => (⟨0x04, n, 0, word (s.pkg.pickName core x)⟩ : LogEntry)
    let forced := s.replaying && (match s.nextEntry n with
      | some e => e.kind == 0x04
      | none => false)
    if forced then
      s.choose (entry (.deque 0)) true (.next s) fun s1 e =>
        match cs.find? fun x => word (s.pkg.pickName core x.pick) == e.val with
        | some x => go s1 x.pick
        | none => .next s
    else
      match firstOf cs with
      | none => .next s
      | some x => if tied cs x then s.choose (entry x.pick) true (.next s) fun s1 _ => go s1 x.pick else go s x.pick
  | _, _ => .next s

/-- A record of core c came to its deque by a yield, in this core tick. -/
def Pkg.yieldOf (p : Pkg) (c slot : Nat) : Option Nat := ((p.core c).yields.find? fun y => y.1 == slot).map (·.2)

/-- The candidate of core c that R302 may offer elsewhere under a name, and the core tick it has waited from: a woken record, a yielded
one, or a release, which a number below 1,024 names by its entry, and for which the core that takes it gives the slot (R296). Handed
children and messages stay. -/
def Pkg.offered (p : Pkg) (c name : Nat) : Option (Pick × Nat) :=
  (p.candidatesIn c true).findSome? fun x => match x.pick with
    | .message _ => none
    | .ready r => if r.slot = name ∧ !r.handed then some (x.pick, x.since) else none
    | .release r => if r.entry = name then some (x.pick, x.since) else none
    | .deque slot => if slot = name then (p.yieldOf c slot).map fun t => (x.pick, t) else none

/-- The candidate leaves the core that offers it. -/
def Pkg.takeOffered (p : Pkg) (c : Nat) : Pick → Pkg
  | .message _ => p
  | .ready r => p.onCore c fun k => { k with ready := k.ready.erase r }
  | .release _ => p
  | .deque slot => p.takeDeque c slot

/-- CANDIDATE_FORWARD: a woken record or a release, whose core has had no free thread for 256 ticks while it waited, is taken by a core
of its domain that has one and no candidate of its own (R302), and on whose bench its job is not stopped (R391); a DISPATCH entry. -/
def execCandidateForward (core slot thief : Nat) (s : State) : Out :=
  let near := fun (dom : Nat) => decide (stealLevel core thief ≤ (if dom = 3 then 2 else dom))
  match s.freeThread core, s.freeThread thief, (s.pkg.bench (core / 8)).tenant with
  | none, some n, some t =>
    let b := s.pkg.bench (thief / 8)
    if core = thief ∨ b.gated ∨ b.switching ∨ b.tenant ≠ some t ∨ !s.tenantRuns t ∨ !(s.pkg.candidates thief).isEmpty then .next s
    else
      match s.pkg.offered core slot with
      | none => .next s
      | some (x, since) =>
        if !s.replaying && decide (s.tick < max since (s.pkg.core core).started + 256) then .next s
        else
          let give := fun (sender : Option Nat) (source : Nat) =>
            if near (s.pkg.record slot).dom && !s.pkg.jobStopped (thief / 8) t (s.pkg.record slot).job then
              s.choose ⟨0x04, n, 0, word slot⟩ true (.next s) fun s1 e =>
                if e.val = word slot then
                  (s1.updBy .hub fun p => (p.withdrawThief thief).takeOffered core x).takeRecord n t slot sender source
                else .next s
            else .next s
          match x with
          | .ready r => give r.sender 1
          | .deque _ => give none 1
          | .release r =>
            match s.pkg.entryOf t slot, s.pkg.freeSlot thief with
            | some e, some own =>
              if near e.dom && !s.pkg.jobStopped (thief / 8) t e.job then
                s.choose ⟨0x04, n, 0, word own⟩ true (.next s) fun s1 _ =>
                  (s1.updBy .hub fun p => p.withdrawThief thief).takeRelease n core thief t r
              else .next s
            | _, _ => .next s
          | .message _ => .next s
  | _, _, _ => .next s

/-! ### Stealing (R303) -/

/-- The victims of a thief in order: its bench from the next core on, its die, the package. -/
def victimsOf (c : Nat) : List Nat :=
  let bench := (List.range 7).map fun i => c / 8 * 8 + (c % 8 + 1 + i) % 8
  let die := ((List.range 128).map fun i => c / 128 * 128 + i).filter fun x => x / 8 != c / 8
  bench ++ die ++ (List.range 512).filter fun x => x / 128 != c / 128

/-- A thief may ask core v: its bench is not gated, and in the map of the tenant that core c's bench runs (R303, R372). -/
def Pkg.mayAsk (p : Pkg) (c v : Nat) : Bool :=
  !(p.bench (v / 8)).gated && match (p.bench (c / 8)).tenant with
    | some t => p.inMap t (v / 8)
    | none => false

/-- The thief asks the next victim that it may; after the last it waits. -/
def Pkg.askNext (p : Pkg) (now c : Nat) (vs : List Nat) : Pkg :=
  let ok := p.mayAsk c
  match vs.dropWhile fun v => !ok v with
  | [] => p.onCore c fun k => { k with thief := some ⟨[], none, true, now⟩ }
  | v :: r => p.onCore c fun k => { k with thief := some ⟨r, some v, false, now⟩ }

/-- A core may steal: a free thread, no candidate, a bench that runs a tenant. -/
def State.idleCore (s : State) (c : Nat) : Bool :=
  let b := s.pkg.bench (c / 8)
  (s.freeThread c).isSome && (s.pkg.candidates c).isEmpty && b.tenant.isSome && !b.gated && !b.switching

/-- The request of a thief waits at its victim. -/
def Pkg.waitsAt (p : Pkg) (c v : Nat) : Bool := (p.core v).steals.contains c

/-- THIEF_START: a core that has been idle for 32 ticks becomes a thief (R303). The first step notes when it fell idle; a dispatch ends
that (`withdrawThief`). -/
def execThiefStart (core : Nat) (s : State) : Out :=
  match (s.pkg.core core).thief with
  | none =>
    if s.idleCore core then
      let now := s.tick
      .next (s.updBy .hub fun p => p.onCore core fun k => { k with thief := some ⟨victimsOf core, none, false, now⟩ })
    else .next s
  | some f =>
    if f.asked.isSome || f.backoff then .next s
    else if !s.idleCore core then .next (s.updBy .hub fun p => p.onCore core fun k => { k with thief := none })
    else if s.tick < f.since + 32 then .next s
    else .next (s.updBy .hub fun p => p.askNext s.tick core f.victims)

/-- STEAL_REQUEST: the request reaches its victim and waits there from now on, or is refused by eight that wait, or because the victim's
bench no longer runs the thief's tenant (R357, R372). -/
def execStealRequest (core : Nat) (s : State) : Out :=
  match (s.pkg.core core).thief with
  | none => .next s
  | some f =>
    match f.asked with
    | none => .next s
    | some v =>
      let waiting := (s.pkg.core v).steals
      if waiting.contains core then .next s
      else if 8 ≤ waiting.length || (s.pkg.bench (v / 8)).switching || !s.pkg.mayAsk core v then .next (s.updBy .hub fun p => p.askNext s.tick core f.victims)
      else
        let now := s.tick
        .next (s.updBy .hub fun p => (p.onCore v fun k => { k with steals := k.steals ++ [core] }).onCore core fun k =>
          { k with thief := some { f with since := now } })

/-- STEAL_WITHDRAW: the request has waited long enough, or the thief has work: it is withdrawn. -/
def execStealWithdraw (core : Nat) (s : State) : Out :=
  match (s.pkg.core core).thief with
  | none => .next s
  | some f =>
    match f.asked with
    | none => .next s
    | some v =>
      if s.idleCore core && (decide (s.tick < f.since + 2048) || !s.pkg.waitsAt core v) then .next s
      else .next (s.updBy .hub fun p =>
        let q := p.onCore v fun k => { k with steals := k.steals.erase core }
        if s.idleCore core then q.askNext s.tick core f.victims else q.onCore core fun k => { k with thief := none })

/-- THIEF_BACKOFF_END: the wait after the last victim is over. -/
def execThiefBackoffEnd (core : Nat) (s : State) : Out :=
  match (s.pkg.core core).thief with
  | none => .next s
  | some f =>
    if !f.backoff || (s.idleCore core && decide (s.tick < f.since + 4096)) then .next s
    else if s.idleCore core then .next (s.updBy .hub fun p => p.askNext s.tick core (victimsOf core))
    else .next (s.updBy .hub fun p => p.onCore core fun k => { k with thief := none })

/-- CANDIDATE_AGEING: a candidate of rank 3 that has waited 2^16 ticks (R309); a message is named by its number. -/
def execCandidateAgeing (core slot : Nat) (s : State) : Out :=
  let now := s.tick
  .next (s.updBy .hub fun p => p.onCore core fun c =>
    { c with
      ready := c.ready.map fun x => if x.slot = slot ∧ x.since + 65536 ≤ now then { x with aged := true } else x
      mail := c.mail.map fun y => (y.1, y.2.map fun m =>
        if m.id = slot ∧ 0 < y.1 ∧ m.came + 65536 ≤ now then { m with aged := true } else m) })

/-! ### Messages (R305) -/

/-- The saved mailbox entry e of priority p of a core, for a tenant switched out (R358). -/
def savedMail (d : TenantDesc) (c pri e : Nat) : Nat := d.swbase + 0x80000 * c + 0x60000 + 1024 * pri + 64 * e

/-- The words of a message. -/
def Message.words (m : Message) : List Word := [m.header, m.stamp, m.sendWord] ++ m.pay

/-- A message for a tenant whose bench is switched away goes to the saved mailbox image; full, it waits (R357). DESIGN CHOICE (log 102):
it waits too where the image cannot be reached, and the steward hears of each try (R399). -/
def State.mailAway (s : State) (m : Message) : Out :=
  let now := s.ticks
  let tick := s.tick
  match s.pkg.desc m.tenant with
  | none => .next (s.updBy .hub fun p => { p with messages := p.messages.filter fun x => x.id != m.id })
  | some d =>
    let spots := (List.range 16).filterMap fun e => s.pkg.place m.tenant (savedMail d m.dest m.pri e) .store
    match spots.find? fun a => s.pkg.rd a == 0 with
    | none => .next (if spots.isEmpty then s.updBy .hub fun p => p.lost (m.dest / 128) (savedMail d m.dest m.pri 0) else s)
    | some a =>
      .next ((s.updBy (.msg m.id) fun p =>
        let key := m.tenant * 512 + m.dest
        let w := p.away.get Away.init key
        let m := { m with since := now, came := tick, arrival := p.arrival }
        { (p.perform none a 64 (wordsNat m.words)).used m.tenant (savedMail d m.dest m.pri 0) .store with
          arrival := p.arrival + 1
          messages := p.messages.filter fun x => x.id != m.id
          away := p.away.set Away.init key
            { w with core := { w.core with mail := w.core.mail.set [] m.pri (w.core.mail.get [] m.pri ++ [m]) }
                     stamps := w.stamps ++ [(m.cls, m.stamp.toNat)] } }).cross (.msg m.id))

/-- A message that the machine offers is accepted once its mailbox has a free entry (R305); into the last one as an ARB step, whose source
is the first thread of the message's SRC core (DESIGN CHOICE, log 105). -/
def State.acceptOffer (s : State) (o : Offer) : Out :=
  let used := s.pkg.occupied o.msg.dest o.msg.pri
  let accept := fun (s1 : State) => Host.Outcome.next
    (s1.updBy .hub fun p => { p with offers := p.offers.filter fun x => x.msg.id != o.msg.id }.accepted o)
  if 16 ≤ used then .next s
  else if used = 15 then s.arbitrate (0x800 + o.msg.dest) (s.mailWaits 4096 o.msg.dest o.msg.pri) (4 * o.msg.src) (.next s) accept
  else accept s

/-- An earlier message of the same sender to the same core at the same priority is still on its way: this one comes after it (R293). -/
def Pkg.overtakes (p : Pkg) (m : Message) : Bool :=
  (p.messages.takeWhile fun x => x.id != m.id).any fun x => x.src == m.src && x.dest == m.dest && x.pri == m.pri

/-- MESSAGE_ARRIVAL: refused for an entry that is not valid, delivered to a matching waiter, else held in its mailbox (R293, R299,
R305). One that the machine still offers is accepted first. -/
def execMessageArrival (id : Nat) (s : State) : Out :=
  match s.pkg.messages.find? fun m => m.id == id with
  | none =>
    match s.pkg.offers.find? fun o => o.msg.id == id with
    | some o => s.acceptOffer o
    | none => .next s
  | some m =>
    let c := m.dest
    let now := s.ticks
    let tick := s.tick
    let gone := fun (p : Pkg) => { p with messages := p.messages.filter fun x => x.id != id }
    let crossed := fun (s : State) => s.cross (.msg id)
    if s.pkg.overtakes m then .next s
    else if !s.pkg.inMap m.tenant (c / 8) then s.mailAway m
    else if (s.pkg.entryOf m.tenant m.entry).isNone then
      .next (crossed (s.updBy (.msg id) fun p => ((gone p).noteEntry (c / 128) m.tenant m.entry).onCore c fun k =>
        { k with refuse := (k.refuse + 1) % 65536 }))
    else if 16 ≤ ((s.pkg.core c).mail.get [] m.pri).length then .next s
    else
      let waiter := if s.pkg.jobStopped (c / 8) m.tenant m.job then none
        else (s.pkg.core c).waiters.find? fun w => m.wt && w.tenant == m.tenant && w.tag == m.tag && w.job == m.job
      .next (crossed ((if waiter.isSome then s.flush c else s).updBy (.msg id) fun p =>
        let m' := { m with since := now, came := tick, arrival := p.arrival }
        let q := { (gone p).noteEntry (c / 128) m.tenant m.entry with arrival := p.arrival + 1 }
        match waiter with
        | some w =>
          let q := q.useGen (c / 8) m.tenant m.job
          if q.oldMessage m then q.onCore c fun k => { k with stalegen := (k.stalegen + 1) % 65536 }
          else q.deliver now tick c w.tenant w.slot m'
        | none =>
          (q.onCore c fun k => { k with mail := k.mail.set [] m.pri (k.mail.get [] m.pri ++ [m']) }).onBench (c / 8) fun b =>
            { b with waking := b.waking || (b.gated && !m.wt) }))

/-! ### Cancel (R173, R308) -/

/-- End a suspended task of an old generation at its bench: point 3. -/
def State.endSuspended (s0 s : State) (tenant job gen bench : Nat) (slot : Nat) (k : State → Out) : Out :=
  let site := 0x1080 + bench
  s.choose ⟨0x07, site, gen * 65536 + job, word (slot * 65536 + 3)⟩ false (.next s0) fun s1 e =>
    let x := e.val.toNat / 65536
    let r := s1.pkg.record x
    s1.dropOps .hub site tenant x (.next s0) fun s2 =>
      s2.endTask .hub site site tenant x r.link [nullWit] 9 (.next s0) fun s3 _ => k s3

/-- The suspended tasks of a job of an old generation at a bench: those in the waits that a cancel ends (R173), where it has reached the
bench, and those that a wake has found out of date (R308). One that counts as FAILED (R158) is none. -/
def Pkg.oldSleepers (p : Pkg) (t job bench g : Nat) (reached : Bool) : List Nat :=
  (p.sleepers.filter fun z =>
    let r := p.record z.slot
    z.tenant == t && slotCore z.slot / 8 == bench && r.job == job && r.gen != g && r.state != 10 &&
      (z.state == 12 || (reached && decide (2 ≤ z.state) && decide (z.state ≤ 7)))).map (·.slot)

/-- CANCEL_BROADCAST: the new generation reaches a bench, whose suspended tasks of the job end (R173, R308); the `cancel` completes once
every bench has done so (R171). -/
def execCancelBroadcast (tenant job bench : Nat) (s : State) : Out :=
  let key := tenant * 65536 + job
  let waits := (s.pkg.bench bench).gens.get 0 key != 0 && !s.pkg.cancelHeld.contains (tenant, job)
  let g := (s.pkg.generation tenant job).getD 0
  let s1 := if waits then s.updBy .hub fun p => p.onBench bench fun b => { b with gens := b.gens.set 0 key 0 } else s
  let reached := (s1.pkg.bench bench).gens.get 0 key == 0
  forEach (fun slot s2 k => State.endSuspended s s2 tenant job g bench slot k) (s.pkg.oldSleepers tenant job bench g waits) s1 fun s2 =>
    .next (if reached then s2.answerCancels tenant job else s2)

/-! ### Launch (R306, R379) -/

/-- One core of a launch creates its record, or keeps the launch record until a slot frees. -/
def Pkg.launchAt (p : Pkg) (c : Nat) (l : LaunchWait) : Pkg :=
  let q := match p.freeSlot c with
    | none => p.onCore c fun k => { k with launches := k.launches ++ [l] }
    | some slot => ((p.takeSlot slot).createLaunch slot l).getD p
  q.onBench (c / 8) fun b => { b with waking := b.waking || b.gated }

/-- The cores a launch names, in order. -/
def Pkg.launchCores (p : Pkg) (t : Nat) (ws : List Word) : List Nat :=
  (List.range 512).filter fun c => (ws.getD 1 0).getLsbD (c / 8) && (ws.getD 2 0).getLsbD (c % 8) && p.inMap t (c / 8)

/-- LAUNCH_RECORD: a 64-byte write to a launch window; every write into the package is a HOSTIN entry (R262). DESIGN CHOICE (log 78): the
threads that already run on a core it reaches fetch no byte older than the launch either, as those it starts do (R227). -/
def execLaunchRecord (tenant window offset : Nat) (bytes : List Byte) (s : State) : Out :=
  s.choose ⟨0x0C, hubSite, bytes.length, word (0x1000 * window + offset)⟩ true (.next s) fun s1 _ =>
    let n := bytesNat bytes
    let ws := (List.range 8).map fun i => word (n / 2 ^ (64 * i))
    let bad := decide (bytes.length ≠ 64) || decide (offset % 64 ≠ 0) || decide (0xFC0 ≤ offset) || (ws.getD 0 0).getLsbD 48 ||
      bits (ws.getD 2 0) 8 56 != 0
    if bad then .next (s1.updBy .hub fun p => p.badLaunch tenant window)
    else if (s1.pkg.entryOf tenant (launchEntry ws)).isNone then
      .next (s1.updBy .hub fun p => (p.noteEntry 0 tenant (launchEntry ws)).badLaunch tenant window)
    else
      let cs := s1.pkg.launchCores tenant ws
      let s2 := s1.updBy .hub fun p => (cs.zipIdx).foldl (fun p x => p.launchAt x.1 ⟨tenant, window, ws, x.2⟩) (p.noteEntry 0 tenant (launchEntry ws))
      .next { s2 with
        pair := { s2.pair with launched := true }
        threads := s2.threads.map fun t => (t.1, if cs.contains (coreOf t.1) then { t.2 with fence := s2.pkg.histN } else t.2) }

/-- BADLNCH_CLEAR: a write of zero to the status line (R379), a host write too (R262). -/
def execBadlnchClear (tenant window : Nat) (s : State) : Out :=
  s.choose ⟨0x0C, hubSite, 4, word (0x1000 * window + 0xFC0)⟩ true (.next s) fun s1 _ =>
    .next (s1.updBy .hub fun p => { p with badlnch := p.badlnch.set 0 (4 * tenant + window) 0 })

end Sys2Proof.Machine
end

