-- ==== Sys2Proof/Machine/Commit.lean ====
section
/-! DEFINITION. The release buffer (R257), recovery marks (R258, R259) and rollback (R260, R261, R359). -/

namespace Sys2Proof.Machine

/-! ### The release buffer (R257) -/

/-- The store may go out: H of the writer's class is past its TS, and a ready standby has the log through its acceptance. -/
def State.mayRelease (s : State) (h : Held) : Bool :=
  decide (h.stamp.toNat < s.pkg.horizons.get 0 h.cls) && (!(s.pair.role == 1 && s.pair.ready) || decide (h.pos ≤ s.pair.lack))

/-- What leaves the package for a store: an interrupt of the host (R375), or a write to the host window or to a peer (R20). -/
def Held.output (h : Held) : Output :=
  match h.vector with
  | some v => .interrupt v
  | none => if h.addr < 0x200000000000 then .hostWrite h.addr h.bytes else .peerWrite h.addr h.bytes

/-- RELEASE_BUFFER_SEND: the oldest store goes out; a standby discards it instead. -/
def execReleaseBufferSend (s : State) : Out :=
  match s.released with
  | [] => .next s
  | h :: r =>
    if !s.mayRelease h then .next s
    else .next { s with released := r, outputs := if s.pair.role = 2 then s.outputs else s.outputs ++ [h.output] }

/-! ### Recovery marks (R258) -/

/-- MPER in eighths of a nanosecond. -/
def Pair.interval (p : Pair) : Nat := p.mper * 250000

/-- The threads that run a task's segment. -/
def State.segments (s : State) : List Nat :=
  s.threads.filterMap fun t => if t.2.task.isSome && !isSteward t.1 then some t.1 else none

/-- The running ops. -/
def Pkg.runningOps (p : Pkg) : List Nat :=
  p.ops.filterMap fun x => match x.2 with
    | some o => if o.place = 2 && o.state == 2 then some x.1 else none
    | none => none

/-- A mark that opens now (R258); while DISARM = 1 no image is saved for it (R261). -/
def State.newMark (s : State) : Mark :=
  ⟨s.tick, s.segments, s.pkg.runningOps, s.pkg.messages.map (·.id), if s.disarmed then none else some s.pkg, []⟩

/-- What a rollback to mark m redoes (R260): the entries of later work, and in a recovery replay those it has still to force. -/
def State.sinceMark (s : State) (m : Mark) : List (Nat × LogEntry) :=
  m.since ++ s.pair.sinceSaved.filter fun x => s.pair.inbox.any fun y => y.1 == x.1

/-- RECOVERY_MARK_OPEN: T has reached the next multiple of the interval, whatever marks are open. -/
def execRecoveryMarkOpen (s : State) : Out :=
  let due := s.time / s.pair.interval * s.pair.interval
  if due ≤ s.markAt then .next s else .next { s with markAt := due, marks := s.marks ++ [s.newMark] }

/-- The log segment of a mark that closes goes to the host for each tenant whose archive the host keeps (R373): a request in its ring, of
open words, and the entries. In hardware mode it stays where the log is (`Pair.log`; DESIGN CHOICE, log 97). -/
def State.archive (s : State) : State :=
  ((List.range 8).filter fun t => s.pkg.assisted t 2).foldl (fun (s1 : State) t =>
    let s2 := s1.service t 2 s.mark ((List.range 4).map fun i => Config.segmentWord (s1.free + i))
    { s2 with free := s1.free + 4, outputs := s2.outputs ++ [.segment t (s.pair.log.take (s.lwr - s.savedPos)).reverse] }) s

/-- RECOVERY_MARK_CLOSE: every item open when the oldest mark opened has crossed it; its image is what a rollback restores. What was
open when a mark opened and has not crossed it holds every later mark too, so marks close in order. DEDUCED (log 112): a mark without an
image closes too, and a rollback goes to the last closed one that has an image. -/
def execRecoveryMarkClose (s : State) : Out :=
  match s.marks with
  | [] => .next s
  | m :: r =>
    if !(m.threads.isEmpty && m.ops.isEmpty && m.msgs.isEmpty) then .next s
    else
      let s1 := { s.archive with marks := r, savedPos := s.lwr, mark := s.mark + 1 }
      match m.image with
      | none => .next s1
      | some image =>
        let rest := s.sinceMark m
        .next { s1 with
          saved := image
          pair := { s1.pair with sinceSaved := rest, inputs := s.pair.inputs.filter fun x => rest.any fun y => y.1 == x.1 } }

/-- MARK_HOLD_TIMEOUT: a mark open for 1 ms pre-empts the segments that hold it. -/
def execMarkHoldTimeout (s : State) : Out :=
  let late := s.marks.filter fun m => decide (m.opened + 1600000 ≤ s.tick)
  if late.isEmpty then .next s
  else
    .next { s with threads := s.threads.map fun t => (t.1, if late.any fun m => m.threads.contains t.1 then t.2.due s.tick else t.2) }

/-! ### Rollback (R260, R261, R359) -/

/-- READY of a package that stops: a standby's is lost for good (R265). -/
def Pair.lose (p : Pair) : Pair := if p.role = 2 then { p with ready := false, lost := true } else p

/-- The package stops for good: it resigns, and keeps its state for the debug port (R261). -/
def State.stop (s : State) : State :=
  let s1 := s.sendFlit 9 0 []
  { s1 with stopped := true, pair := s1.pair.lose }

/-- What a rollback leaves of a thread, a steward's too: `ctl.tvec` and `ctl.tstk`, and an interrupt that waits (R359). -/
def Thread.rollback (t : Thread) : Thread := { Thread.init with tvec := t.tvec, tstk := t.tstk, irq := t.irq, irqTen := t.irqTen }

/-- The firmware starts again a switch that was in progress: the bench holds the tenant that the mark found there (R359). -/
def Bench.switchAgain (x was : Bench) : Bench :=
  if was.switching then { x with switching := true, target := was.target, switchAt := was.switchAt } else x

/-- The security core after a rollback: fuses, flash image and identity key are not journalled (DESIGN CHOICE, log 81). -/
def Onyx.rollback (o was : Onyx) : Onyx :=
  { was with lc := o.lc, unlockCnt := o.unlockCnt, identity := o.identity, dbgOpen := o.dbgOpen, image := o.image, recovery := o.recovery
             nonce := o.nonce }

/-- The journalled state of the last closed mark, with the switches in progress begun again (R260, R359). -/
def State.restored (s : State) : Pkg :=
  { (s.pkg.benches.filter fun x => x.2.switching).foldl (fun (p : Pkg) x => p.onBench x.1 fun y => y.switchAgain x.2) s.saved with
    onyx := s.onyx.rollback s.saved.onyx }

/-- The longest a restore takes, in ticks: 200 µs and 1 µs per 4 MiB of journal in use (R260). -/
def State.restoreBound (s : State) : Nat := (200 + s.journal / 4) * 1600

/-- Every image of the last closed mark restored, every register discarded, and the entries written since to be forced again (R260).
DESIGN CHOICE (log 70): V, Ecur and the horizons go back with all else. The release buffer, which R259 does not journal, stays (log 35), and
what is no part of the journalled state goes on: the clock, the pair's registers, the link and the log, what has left the package (log 81). -/
def State.rollback (s : State) : State :=
  let again := s.pair.sinceSaved ++ s.pair.inbox.filter fun x => !(s.pair.sinceSaved.any fun y => y.1 == x.1)
  { s with
    pkg := s.restored
    marks := []
    threads := s.threads.map fun t => (t.1, t.2.rollback)
    flight := []
    tlbs := []
    tlb2 := []
    walks := []
    inval := []
    free := s.free + 1
    restoreTill := s.tick + Config.restoreTicks s.free % (s.restoreBound + 1)
    pair := { s.pair with
      inbox := again
      recov := !s.pair.sinceSaved.isEmpty
      rollbk := (s.pair.rollbk + 1) % 65536 } }

/-- A restore of the journal runs: nothing is dispatched and no instruction issues (R260). -/
def State.restoring (s : State) : Bool := decide (s.tick < s.restoreTill)

/-- An uncorrectable error rolls the package back (R260); while DISARM = 1, or during a restore, it stops the package (R261). -/
def State.machineCheck (s : State) : State := if s.disarmed || s.restoring then s.stop else s.rollback

/-- MACHINE_CHECK: an uncorrectable error at an address. -/
def execMachineCheck (_addr : Nat) (s : State) : Out := .next s.machineCheck

/-- The journal fills: DISARM holds until the marks open at this moment have closed (R261), or the next one where none is open (log 34). -/
def State.noteDisarm (s : State) : State :=
  if s.journalFull && !s.disarmed then { s with disarmTill := s.mark + max 1 s.marks.length } else s

end Sys2Proof.Machine
end

