-- ==== Sys2Proof/Machine/Pair.lean ====
section
/-! DEFINITION. The Twiral link (R267, R268), the standby (R264-R266, R322) and switchover (R269). -/

namespace Sys2Proof.Machine

/-! ### Flits in and out (R268) -/

/-- A flit is delivered: its CRC is good, its TYPE known and its SEQ the expected one. -/
def State.delivers (s : State) (h : FlitHdr) : Bool := h.crcOk && h.known && h.seq.toNat == s.pair.rxSeq

/-- Any other flit is discarded and counted, and the next flit sent carries NAK. -/
def State.discardFlit (s : State) (_h : FlitHdr) : State :=
  { s with pair := { s.pair with nakDue := true, badFlits := s.pair.badFlits + 1 } }

/-- Flits that waited for room are sent. -/
def State.drainBacklog : Nat → State → State
  | 0, s => s
  | n + 1, s =>
    match s.pair.backlog with
    | [] => s
    | x :: r =>
      if s.pair.unacked.length < 8192 && !s.pair.retraining then
        State.drainBacklog n ({ s with pair := { s.pair with backlog := r } }.sendFlit x.1 x.2.1 x.2.2)
      else s

/-- Every unacknowledged flit is sent again; after 16 resends of one of them the lanes retrain. -/
def State.resend (s : State) : State :=
  let p := s.pair
  if p.unacked.isEmpty || p.retraining then s
  else if p.unacked.any fun f => decide (16 ≤ f.resends) then { s with pair := { p with retraining := true } }
  else
    { s with
      pair := { p with unacked := p.unacked.map fun f => { f with resends := f.resends + 1 }, aseqAt := s.tick, nakDue := false }
      outputs := s.outputs ++ p.unacked.map fun f => Output.flit (f.bytes p.rxSeq p.nakDue) }

/-- What ASEQ acknowledges leaves the sender. -/
def State.acknowledge (s : State) (aseq : Nat) : State :=
  let keep := s.pair.unacked.filter fun f => decide ((f.seq + 2 ^ 32 - aseq) % 2 ^ 32 < 2 ^ 31)
  let s1 := if keep.length = s.pair.unacked.length then s
    else { s with pair := { s.pair with unacked := keep, aseqAt := s.tick } }
  State.drainBacklog s1.pair.backlog.length s1

/-- Receive a flit: `k` acts on its payload once it is delivered. -/
def State.receive (s : State) (h : FlitHdr) (k : State → State) : Out :=
  if !s.delivers h then .next (s.discardFlit h)
  else
    let s1 := { s with pair := { s.pair with rxSeq := (s.pair.rxSeq + 1) % 2 ^ 32, peer := true, rxAt := s.tick } }.acknowledge h.aseq.toNat
    .next (k (if h.nak then s1.resend else s1))

/-- FLIT_DISCARD. -/
def execFlitDiscard (h : FlitHdr) (s : State) : Out := .next (if s.delivers h then s else s.discardFlit h)

/-- FLIT_RESEND: 2 µs without progress of ASEQ. -/
def execFlitResend (s : State) : Out := .next (if s.tick < s.pair.aseqAt + 3200 then s else s.resend)

/-- LANE_RETRAIN_DONE: the lanes carry flits again, from the first unacknowledged on. -/
def execLaneRetrainDone (s : State) : Out :=
  if !s.pair.retraining then .next s
  else
    let fresh := s.pair.unacked.map fun (f : SentFlit) => { f with resends := 0 }
    let s1 := { s with pair := { s.pair with retraining := false, unacked := fresh } }.resend
    .next (State.drainBacklog s1.pair.backlog.length s1)

/-! ### The standby's side -/

/-- READY of a standby: every entry below the first mark position that the primary's HEART carried is consumed (R265). -/
def State.settleReady (s : State) : State :=
  let p := s.pair
  if p.role = 2 && !p.lost && p.peerMark != 0 && s.consumed p.peerMark then { s with pair := { p with ready := true } } else s

/-- Entries with their positions from n on. -/
def numbered (n : Nat) : List LogEntry → List (Nat × LogEntry)
  | [] => []
  | e :: r => (n, e) :: numbered (n + 1) r

/-- LOG_FLIT: a standby stores the entries (R266). -/
def execLogFlit (h : FlitHdr) (es : List LogEntry) (s : State) : Out :=
  s.receive h fun s1 =>
    let p := s1.pair
    if p.role ≠ 2 then s1
    else
      let n := p.stored + es.length
      { s1 with pair := { p with inbox := p.inbox ++ numbered p.stored es, stored := n, lack := n } }

/-- PROG_FLIT: one more suspension point allowed to each thread named (R265). -/
def execProgFlit (h : FlitHdr) (ts : List Nat) (s : State) : Out :=
  s.receive h fun s1 =>
    { s1 with pair := { s1.pair with allowed := ts.foldl (fun (m : Store Nat) t => m.set 0 t (m.get 0 t + 1)) s1.pair.allowed } }

/-- STANDBY_ACK: what the standby has stored is acknowledged, unless READY is lost (R265, R266). -/
def execStandbyAck (s : State) : Out :=
  if s.pair.role ≠ 2 || s.pair.lost then .next s
  else
    let s1 := s.sendFlit 3 1 (byteList s.pair.lack 8)
    .next { s1 with pair := { s1.pair with ackSent := s.pair.stored } }

/-- ACK_FLIT: the position that the standby acknowledges. -/
def execAckFlit (h : FlitHdr) (pos : Word) (s : State) : Out :=
  s.receive h fun s1 =>
    if s1.pair.role = 2 then s1
    else { s1 with pair := { s1.pair with lack := pos.toNat, lagTicks := s1.pair.lagTicks.take (s1.lwr - pos.toNat) } }

/-- HEART_FLIT: a standby keeps the cycles, V and mark position; a primary takes READY (R265, R267, R322). -/
def execHeartFlit (h : FlitHdr) (b : HeartBody) (s : State) : Out :=
  s.receive h fun s1 =>
    let p := s1.pair
    if p.role = 2 then
      { s1 with pair := { p with
          lastHeart := b.cycles
          hadHeart := true
          pendingV := p.pendingV ++ [(b.lwr, b.v, none)]
          peerMark := if p.peerMark = 0 then b.markPos else p.peerMark } }.settleReady
    else
      { s1 with pair := { p with ready := b.ready && !p.lost, lost := p.lost || (p.ready && !b.ready) } }

/-- The payload of a HEART (R267, R322). -/
def State.heartBody (s : State) : List Byte :=
  byteList s.lwr 8 ++ byteList s.ns 8 ++ [BitVec.ofNat 8 s.pair.role, if s.pair.ready then 1#8 else 0#8] ++
    ((List.range 8).flatMap fun k => byteList (s.pkg.cls k).lastPub 2) ++ [0#8, 0#8] ++ byteList s.pkg.vroot 6 ++ byteList s.savedPos 6

/-- HEART_TIMER: a HEART is sent every HBI (R267, R268), in every role. -/
def execHeartTimer (s : State) : Out :=
  if s.tick < s.pair.heartAt + s.pair.hbi * 1600 then .next s
  else
    let s1 := { s with pair := { s.pair with heartAt := s.tick } }.settleReady
    .next (s1.sendFlit 4 1 s1.heartBody)

/-! ### Banks and frames (R265, R267) -/

/-- The FILL flits of a bank. -/
def State.sendFills (s : State) (pos t r : Nat) (bank : List Byte) : State :=
  (List.range ((bank.length + 31) / 32)).foldl (fun s i =>
    let part := (bank.drop (32 * i)).take 32
    s.sendFlit 6 ((part.length + 7) / 8) (byteList pos 8 ++ [BitVec.ofNat 8 t, BitVec.ofNat 8 r] ++ byteList (32 * i) 2 ++ part)) s

/-- FILL_REQ: the primary answers with the bank latched at that entry. -/
def execFillReq (h : FlitHdr) (pos tenant region : Nat) (s : State) : Out :=
  s.receive h fun s1 =>
    match s1.pair.oldBanks.find? fun b => b.1 == pos && b.2.1 == tenant && b.2.2.1 == region with
    | some b => s1.sendFills pos tenant region b.2.2.2
    | none => s1

/-- FILL_FLIT: 32 bytes of a bank that the standby asked for. -/
def execFillFlit (h : FlitHdr) (pos tenant region offset : Nat) (data : List Byte) (s : State) : Out :=
  s.receive h fun s1 => { s1 with pair := { s1.pair with fills := s1.pair.fills ++ [(pos, tenant, region, offset, data)] } }

/-- FCRC_FLIT: the CRC of the primary's frame is compared with that of the standby's, now or once it is built. -/
def execFcrcFlit (h : FlitHdr) (entry : Nat) (cycle : Word) (crc : Word32) (s : State) : Out :=
  s.receive h fun s1 =>
    let s2 := { s1 with pair := { s1.pair with peerCrcs := (entry, cycle.toNat, crc.toNat) :: s1.pair.peerCrcs } }
    match s1.pair.sentCrcs.find? fun x => x.1 == entry && x.2.1 == cycle.toNat with
    | some x => if x.2.2 = crc.toNat then s2 else s2.differ
    | none => s2

/-- PEER_FLIT: the payload of another package is received (R267). -/
def execPeerFlit (h : FlitHdr) (payload : List Byte) (s : State) : Out :=
  s.receive h fun s1 => { s1 with pair := { s1.pair with inPeer := s1.pair.inPeer ++ [payload] } }

/-! ### Switchover (R269) -/

/-- The instant of class n before takeover lies after the cycle that the primary's last HEART named. -/
def State.missed (s : State) (n : Nat) : Bool :=
  let c := s.pkg.cls n
  let d := (c.lastPub % 65536 + 65536 - s.pair.lastHeart.getD n 0 % 65536) % 65536
  c.started && s.pair.hadHeart && decide (1 ≤ d) && decide (d < 32768)

/-- The catch-up frames of class n. -/
def State.catchUp (s : State) (n : Nat) : State :=
  if !s.missed n then s
  else
    let mine := s.pair.built.filter fun x => x.cls == n && x.cycle == (s.pkg.cls n).lastPub
    (mine.foldl (fun l x => insertSnap x l) []).foldl (fun s x => s.sendEntry n true (fun _ => s.time) x) s

/-- A takeover ends once every entry received is forced: ROLE 00, TOOK, and the catch-up frames. Of the stores in the release buffer
only those accepted after the last entry forced are ever sent (R257). -/
def State.settleTakeover (s : State) : State :=
  if !s.pair.taking || !s.pair.inbox.isEmpty || s.stopped then s
  else
    (List.range 8).foldl (fun s n => s.catchUp n) { s with
      pair := { s.pair with taking := false, role := 0, took := true, ready := false }
      released := s.released.filter fun h => decide (s.lwr ≤ h.pos) }

/-- A standby that runs begins to take over. -/
def State.takeOver (s : State) : State :=
  if s.pair.role = 2 && !s.stopped then { s with pair := { s.pair with taking := true } }.settleTakeover else s

/-- RESIGN: the peer stops; a standby takes over. -/
def execResign (h : FlitHdr) (s : State) : Out :=
  s.receive h fun s1 => { s1 with pair := { s1.pair with stop := true } }.takeOver

/-- PEER_LOSS_TIMEOUT: no valid flit for LOSS; a standby takes over, a primary goes on without a peer (R268, R269). -/
def execPeerLossTimeout (s : State) : Out :=
  if !s.pair.peer || decide (s.tick < s.pair.rxAt + s.pair.loss * 1600) then .next s
  else
    let s1 := { s with pair := { s.pair with peer := false } }
    .next (if s1.pair.role = 1 then { s1 with pair := { s1.pair with role := 0, ready := false } } else s1.takeOver)

/-- LAGMAX_TIMEOUT: an entry has stayed unacknowledged longer than LAGMAX; READY, where it was set, is lost (R265). -/
def execLagmaxTimeout (s : State) : Out :=
  match s.pair.role == 1 && s.pair.ready, s.pair.lagTicks.getLast? with
  | true, some t =>
    if s.tick ≤ t + s.pair.lagmax * 1600 then .next s else .next { s with pair := { s.pair with ready := false, lost := true } }
  | _, _ => .next s

/-- PAIR_WRITE: a steward's write to ctl.pair (R264). -/
def execPairWrite (v : Word) (s : State) : Out := .next { s with pair := s.pair.write v }

end Sys2Proof.Machine
end

