-- ==== Sys2Proof/Machine/Frames.lean ====
section
/-! DEFINITION. Frames that make pages present, and pages that come back from the spare-shelf tier (R330, R337, R338, R340). -/

namespace Sys2Proof.Machine

/-- A pool frame's address. -/
def poolAddr (n : Nat) : Nat := (Config.poolFrame n).val * 65536

/-- A leaf for a frame with the permissions of a range (R330, R338). -/
def leafFor (frame : Nat) (r : MapRange) : Word := word (frame + 3 + 4 * num r.r + 8 * num r.w + 16 * num r.x + 32 * num r.u)

/-- The table index of an address at a level (R329). -/
def levelIndex (va level : Nat) : Nat := if level = 3 then va / 2 ^ 16 % 32 else va / 2 ^ levelShift level % 512

/-- Make an address present from the entry at `at_`, where V = 0 was found: `n` further levels get a zeroed table each, and the last a
leaf. The answer counts the frames taken. -/
def Pkg.present (p : Pkg) (free va : Nat) (leaf : Nat → Word) (at_ : Nat) : Nat → Pkg × Nat
  | 0 => (p.wr at_ (leaf (poolAddr free)), free + 1)
  | n + 1 =>
    let f := poolAddr free
    let q := (p.zero f 65536).wr at_ (word (f + 1))
    q.present (free + 1) va leaf (f + 8 * levelIndex va (3 - n)) n

/-- Make the page of an address present with one more frame: `leaf` of the frame in the entry that the walk found with V = 0 at a level,
or below it, and `fill` what the frame then holds. -/
def State.supply (s : State) (va level at_ : Nat) (leaf : Nat → Word) (fill : Pkg → Nat → Pkg) : State :=
  { s.updBy .hub fun p =>
      let x := p.present s.free va leaf at_ (3 - level)
      fill x.1 (poolAddr (x.2 - 1)) with
    free := (s.pkg.present s.free va leaf at_ (3 - level)).2 }

/-- The stretch that an entry of the spare tier names: its core and i (R330, R340). -/
def spareOf (e : Word) : Nat × Nat := (bits e 18 9, bits e 16 2)

/-- The range of a tenant's mapping policy that holds a page. -/
def Pkg.policyOf (p : Pkg) (t va : Nat) : Option MapRange :=
  (p.policies.get [] t).find? fun g => decide (g.va ≤ va) && decide (va < g.va + g.len)

/-- The leaf of a page that leaves the spare tier: what its entry was before, with the new frame, or what the policy gives. -/
def Pkg.spareBack (p : Pkg) (t va : Nat) : Option (Nat → Word) :=
  match p.spareLeaf.get 0 (pageKey t (va / 65536)) with
  | 0 => (p.policyOf t va).map fun g f => leafFor f g
  | old => some fun f => (old &&& ~~~0x3FFFFFFFFF00#64) ||| word f

/-- Copy a page of the spare tier back to a DRAM frame, from the stretch that its entry names (R330, R340). -/
def State.recall (s : State) (t va level at_ : Nat) (leaf : Nat → Word) : State :=
  let x := spareOf (s.pkg.rd at_)
  s.supply va level at_ leaf fun p f =>
    { p.perform none f 65536 (readMem p.mem (shelfOf x.1 + 0x10000 + 0x10000 * x.2) 65536) with
      spares := p.spares.filter fun y => y.2.2 != x
      spareLeaf := p.spareLeaf.set 0 (pageKey t (va / 65536)) 0 }

/-- A stretch is freed: the page it holds goes back to DRAM, unless its entry no longer names the stretch. -/
def State.recallSpare (s : State) (x : Nat × Nat × Nat × Nat) : State :=
  let va := x.2.1 * 65536
  let drop := s.updBy .hub fun p => { p with spares := p.spares.filter fun y => y != x }
  match s.pkg.walk x.1 va with
  | .absent level true at_ =>
    if spareOf (s.pkg.rd at_) == x.2.2 then
      match s.pkg.spareBack x.1 va with
      | some leaf => s.recall x.1 va level at_ leaf
      | none => drop
    else drop
  | .absent _ false _ => drop
  | .leaf _ _ _ => drop
  | .bad => drop

/-- Every spare page on the shelves of a bench goes back to DRAM (R340). -/
def State.recallSpares (s : State) (b : Nat) : State :=
  (s.pkg.spares.filter fun x => x.2.2.1 / 8 == b).foldl (fun s x => s.recallSpare x) s

end Sys2Proof.Machine
end

