-- ==== Sys2Proof/Machine/Switch.lean ====
section
/-! DEFINITION. Stopping and resuming the engines of a bench (R286-R288) and the tenant switch (R357, R358). -/

namespace Sys2Proof.Machine

/-! ### The engines stop (R286, R287) -/

/-- The ops of a bench's slots, ended ones among them. -/
def Pkg.benchOps (p : Pkg) (b : Nat) : List (Nat × Op) :=
  p.ops.filterMap fun x => match x.2 with
    | some o => if opBench x.1 = b && !isOut x.1 then some (x.1, o) else none
    | none => none

/-- A running op of an engine that has stopped since core tick `since` stops: a weight load or a drain between two pieces, a copy with
every chunk closed, or after 256 ticks (R286). -/
def Op.stops (o : Op) (now since : Nat) : Bool :=
  !o.ended && !o.finished && o.place == 2 && o.state == 2 && o.kind != 9 && (o.chunks.isEmpty || decide (since + 256 ≤ now))

/-- The engines of a bench stop: they take and issue nothing new, and what they run has its writes performed and is SUSPENDED at PROG as it
stops (R286). -/
def State.beginHalt (s : State) (b : Nat) : State :=
  let now := s.tick
  ((s.pkg.benchOps b).foldl (fun s x => s.flushOf (.op x.1)) s).updBy .hub fun p =>
    let since := (p.bench b).halting.getD now
    ((p.benchOps b).filter fun x => x.2.stops now since).foldl
      (fun p x => p.onOp x.1 fun o => { o with state := 3, stopped := true, chunks := [] })
      (p.onBench b fun x => { x with halting := some since })

/-- The stop is given up: the ops that it has stopped run on (R358). -/
def Pkg.endHalt (p : Pkg) (b : Nat) : Pkg :=
  ((p.benchOps b).filter fun x => x.2.place == 2 && x.2.stopped).foldl
    (fun p x => p.onOp x.1 fun o => { o with state := if o.ended then o.state else 2, stopped := false })
    (p.onBench b fun x => { x with halting := none })

/-- The engine still has work that a stop waits for: a multiply that runs, an op whose work is done and that has not ended, and, for 256
ticks, a copy whose chunks have not all been acknowledged (R286). -/
def Pkg.mustFinish (p : Pkg) (b now : Nat) : Bool :=
  (p.benchOps b).any fun x => !x.2.ended &&
    (x.2.finished || (x.2.kind == 9 && x.2.place == 2 && x.2.state == 2) ||
      (!x.2.chunks.isEmpty && decide (now < ((p.bench b).halting.getD now) + 256)))

/-- An op as the stop leaves it: a started one SUSPENDED at PROG, any other in the state it was in. Its task's saved count still holds it
(R354). -/
def Op.halt (o : Op) : Op :=
  if o.ended then o
  else if o.place = 2 then { o with state := 3, place := 1, stopped := true, chunks := [], pageReq := none, thread := none }
  else { o with place := 1, pageReq := none, thread := none, rows := [] }

/-- The place of journal entry i of bench b (R287). -/
def journalAt (d : TenantDesc) (b i : Nat) : Nat := d.ojbase + 64 * (832 * b + i)

/-- Word 7 of a journal entry. -/
def Owner.word : Owner → Word
  | .task _ slot => Machine.word slot
  | .block _ a => Machine.word (2 ^ 62 + a)
  | .tenant _ => Machine.word (2 ^ 63)
  | .gone => 0

/-- The address of the drawer slot that an op has claimed, or 0. -/
def Op.slotAddr (o : Op) : Word := if o.claim.isSome then (o.plan.bind fun c => c.bases.head?).getD 0 else 0

/-- The eight words of the journal entry of a halted op, with the WITN of its writes so far. -/
def Op.journal (o : Op) (w : Word) : List Word :=
  [o.cmd, o.w1, if o.stopped || o.ended then o.slotAddr else o.w2, o.w3, o.status, w, o.token, o.owner.word]

/-- A record of tenant t that waits for the op under key k waits for it under another. -/
def Sleeper.rekey (z : Sleeper) (t k k' : Nat) : Sleeper := if z.tenant = t ∧ z.state = 4 ∧ z.key = k then { z with key := k' } else z

/-- An op of tenant t goes on under another key in the fences that wait for it, and for the records that do. -/
def Pkg.rekey (p : Pkg) (t k k' : Nat) : Pkg :=
  { p with
    fences := p.fences.map fun f => (f.1, f.2.map fun x => if x = k then k' else x)
    sleepers := p.sleepers.map fun z => z.rekey t k k'
    away := p.away.map fun w => (w.1, { w.2 with sleepers := w.2.sleepers.map fun z => z.rekey t k k' }) }

/-- Stop one op: halted, journalled with its WITN so far, and put aside. -/
def State.stopOp (s : State) (t : Nat) (d : TenantDesc) (x : Nat × Op) (wait : Out) (k : State → Out) : Out :=
  let key := x.1
  let o := x.2.halt
  let va := journalAt d (opBench key) (key % 1024)
  let put := fun (s1 : State) (w : Word) =>
    let ws := o.journal w
    let s2 := match s1.pkg.place t va .store with
      | some a => s1.updBy .hub fun p => (p.perform none a 64 (wordsNat ws)).used t va .store
      | none => s1.areaError (opBench key / 16) va
    let o' := { o with witn := if o.ended then o.witn else w, written := ws }
    k ((s2.updBy .hub fun p => (((p.unqueue key).setOp key none).setOp (outKey t key) (some o')).rekey t key (outKey t key)).cross (.op key))
  if o.ended then put s o.witn
  else if 3 ≤ o.homes.length then s.epochAt (engineSite key) wait fun s1 e => put s1 (homesWit e o.homes)
  else put s (homesWit s.pkg.ecur o.homes)

/-- The journal entries of free slots get word 6 zero, and those of slots whose op a forced gate has stopped stay; a journal that cannot be reached is an uncorrectable error (R399). -/
def State.clearJournal (s : State) (t b : Nat) (d : TenantDesc) : State :=
  (List.range 832).foldl (fun s i =>
    if (s.pkg.op (s.pkg.opKey t (1024 * b + i))).isSome then s
    else
      match s.pkg.place t (journalAt d b i + 48) .store with
      | some a => if s.pkg.rd a = 0 then s else s.updBy .hub fun p => (p.wr a 0).used t (journalAt d b i) .store
      | none => s.areaError (b / 16) (journalAt d b i)) s

/-- The commands that stand in the FIFOs of a bench enter their queues. -/
def State.emptyFifos (s : State) (b : Nat) (wait : Out) (k : State → Out) : Out :=
  forEach (fun (core : Nat) s1 k =>
    forEach (fun (c : Cmd) s2 k => s2.enterCmd core c wait fun s3 => k (s3.updBy c.actor fun p => p.popFifo core)) (s1.pkg.core core).fifo s1 k)
    ((List.range 8).map fun i => 8 * b + i) s k

/-- The queues of a bench, with a number each: the copy queues by core and number, then the Beryl queues. -/
def Pkg.queuesOf (p : Pkg) (b : Nat) : List (Nat × List QItem) :=
  ((List.range 32).map fun j => (j, (p.core (8 * b + j / 4)).queues.get [] (j % 4))) ++
    (List.range 4).map fun q => (32 + q, (p.bench b).bqueues.get [] q)

/-- The ops of a queue, each with the fences that hold it back (R205). -/
def fencedBy (fences : Store (List Nat)) : List Nat → List QItem → List (Nat × List Nat)
  | _, [] => []
  | fs, .op k :: r => (k, fs) :: fencedBy fences fs r
  | fs, .marker f :: r => fencedBy fences (if (fences.get [] f).isEmpty then fs else fs ++ [f]) r

/-- The fences that wait for ops outlive the stop: each op keeps those before it, and the bench's queues the markers (R205, R321). -/
def Pkg.keepFences (p : Pkg) (b t : Nat) : Pkg :=
  let q := (p.queuesOf b).foldl (fun (p : Pkg) l => (fencedBy p.fences [] l.2).foldl (fun (p : Pkg) x =>
    p.onOp x.1 fun o => { o with behind := (o.behind ++ x.2).eraseDups }) p) p
  { q with fencesOut := q.fencesOut.set [] (64 * t + b) (q.fencesOut.get [] (64 * t + b) ++ (q.queuesOf b).flatMap fun l => l.2.filterMap fun x => match x with
      | .marker f => if (q.fences.get [] f).isEmpty then none else some (l.1, f)
      | .op _ => none) }

/-- The engines of a bench stop for tenant t: every op is journalled, FIFOs and queues are empty. -/
def State.stopEngines (s : State) (b t : Nat) (wait : Out) (k : State → Out) : Out :=
  match s.pkg.desc t with
  | none => k s
  | some d =>
    (s.clearJournal t b d).emptyFifos b wait fun s0 =>
    let s1 := s0.updBy .hub fun p => p.keepFences b t
    forEach (fun (x : Nat × Op) s2 k => s2.stopOp t d x wait k) (s1.pkg.benchOps b) s1 fun s2 =>
      k (s2.updBy .hub fun p =>
        ((List.range 8).foldl (fun (p : Pkg) i => p.onCore (8 * b + i) fun c => { c with queues := [] }) p).onBench b fun x =>
          { x with bqueues := [], halting := none })

/-! ### The engines resume (R286) -/

/-- The owner that word 7 of a journal entry gives. -/
def ownerOf (t : Nat) (w : Word) : Owner :=
  match bits w 62 2 with
  | 0 => .task t (bits w 0 48)
  | 1 => .block t (bits w 0 48)
  | _ => .tenant t

/-- The markers of a stop stand at the end of their queues again. -/
def Pkg.returnMarkers (p : Pkg) (b t : Nat) : Pkg :=
  let q := (p.fencesOut.get [] (64 * t + b)).foldl (fun (p : Pkg) x =>
    if (p.fences.get [] x.2).isEmpty then p
    else if x.1 < 32 then p.onCore (8 * b + x.1 / 4) fun c => { c with queues := c.queues.set [] (x.1 % 4) (c.queues.get [] (x.1 % 4) ++ [.marker x.2]) }
    else p.onBench b fun y => { y with bqueues := y.bqueues.set [] (x.1 - 32) (y.bqueues.get [] (x.1 - 32) ++ [.marker x.2]) }) p
  { q with fencesOut := q.fencesOut.set [] (64 * t + b) [] }

/-- The live ops of a bench in the order in which they re-enter their queues: that of the journal (R286). DEDUCED (log 90): an op behind a
fence comes after those before it, since it could not start ahead of them. -/
def Pkg.resumed (p : Pkg) (b : Nat) : List Nat :=
  let live := (List.range 832).filterMap fun i => (p.op (1024 * b + i)).bind fun o => if o.ended then none else some (1024 * b + i, o)
  let most := live.foldl (fun n x => max n x.2.behind.length) 0
  (List.range (most + 1)).flatMap fun n => (live.filter fun x => x.2.behind.length == n).map (·.1)

/-- Every live op of a bench re-enters its queue. -/
def State.requeueAll (s : State) (b t : Nat) (wait : Out) (k : State → Out) : Out :=
  forEach (fun (key : Nat) s1 k => s1.enterCmd (opCore key) (.op key) wait k) (s.pkg.resumed b) s fun s1 =>
    k (s1.updBy .hub fun p => (p.returnMarkers b t).settleHeads b)

/-- What a journal entry that software has changed gives: the op of pushing its words. DESIGN CHOICE (log 115): it has no leave grant and no
drawer claim, whose units and slot stay with none, and the class, stamp and S of the op that was put aside, or 0 where there was none. -/
def pushedOp (t : Nat) (old : Option Op) (ws : List Word) (born : Nat) : Op :=
  { cmd := ws.getD 0 0, w1 := ws.getD 1 0, w2 := ws.getD 2 0, w3 := ws.getD 3 0, state := 0, cause := 0, reason := 0, flags := 0
    prog := 0, faddr := 0, witn := 0, token := ws.getD 6 0, owner := ownerOf t (ws.getD 7 0), tenant := t
    job := bits (ws.getD 6 0) 40 16, cls := (old.map (·.cls)).getD 0, stamp := (old.map (·.stamp)).getD 0
    sup := (old.map (·.sup)).getD false, thread := none, place := 1, descRead := false, leaveAsked := none, leaveHeld := 0
    claim := none, posted := false, stopping := false, homes := [], chunks := [], plan := none, finished := false, born := born
    pageReq := none, counted := false, stopped := false, issued := 0, rows := [], behind := [], written := [] }

/-- One slot of a bench resumes from the journal: the op put aside where the entry is still what the stop wrote, else what pushing its words
gives. A slot reaped while the tenant was out is free (R281, R287). DESIGN CHOICE (log 114): the slot's generation goes back to that of the
token in the entry, and the counter of a slot that the journal leaves free stays where the tenant before has left it. -/
def State.resumeSlot (s : State) (t b : Nat) (d : TenantDesc) (i : Nat) (wait : Out) (k : State → Out) : Out :=
  let key := 1024 * b + i
  let old := s.pkg.op (outKey t key)
  let gone := fun (p : Pkg) => p.setOp (outKey t key) none
  let va := journalAt d b i
  match s.pkg.place t va .load with
  | none => k (if old.isSome then s.areaError (b / 16) va else s)
  | some a =>
    let ws := (List.range 8).map fun j => s.pkg.rd (a + 8 * j)
    let s0 := s.updBy .hub fun p => p.used t va .load
    let tok := ws.getD 6 0
    if tok = 0 then k (if old.isSome then s0.updBy .hub fun p => (gone p).passFences (outKey t key) else s0)
    else if (old.map fun o => o.ended && o.owner == .gone).getD false then
      k (s0.updBy .hub fun p => { (gone p).passFences (outKey t key) with gens := p.gens.set 1 key (nextGen (bits tok 24 16)) })
    else
      let s1 := s0.updBy .hub fun p => { (gone p).rekey t (outKey t key) key with gens := p.gens.set 1 key (bits tok 24 16) }
      match old.filter fun o => o.written == ws with
      | some o => k (s1.updBy .hub fun p => p.setOp key (some o))
      | none =>
        let o := { pushedOp t old ws s1.pkg.arrival with behind := (old.map (·.behind)).getD [] }
        let s2 := s1.updBy .hub fun p => { p.setOp key (some o) with arrival := p.arrival + 1 }
        match pushFault o.cmd o.w1 o.w2 o.w3 with
        | none => k s2
        | some (c, r, f) => s2.endOp key 5 c r f wait k

/-- Every op that the journal of a tenant holds for a bench goes on there. -/
def State.resumeEngines (s : State) (b t : Nat) (wait : Out) (k : State → Out) : Out :=
  match s.pkg.desc t with
  | none => k s
  | some d =>
    forEach (fun (i : Nat) s1 k => s1.resumeSlot t b d i wait k) (List.range 832) s fun s1 => s1.requeueAll b t wait k

/-! ### Weight slots and tiles (R278, R288) -/

/-- Weight slots and tiles cleared. -/
def Bench.wipe (x : Bench) : Bench := { x with wslots := [], tiles := [] }

/-- Weight slots and tiles cleared, and not written since. -/
def Bench.clearEngine (x : Bench) : Bench := { x.wipe with wdirty := [], tdirty := [] }

/-- The virtual address of page j of the engine save area of a bench (R288, R371). -/
def engineAt (d : TenantDesc) (b j : Nat) : Nat := d.ojbase + 0x400000 + 0xC0000 * b + 65536 * j

/-- The first page of an engine save area that cannot be reached. -/
def Pkg.engineLost (p : Pkg) (t b : Nat) (d : TenantDesc) (u : Use) : Option Nat :=
  ((List.range 12).map (engineAt d b)).find? fun va => (p.place t va u).isNone

/-- What byte i of page j of a save area holds once the area is written with free values from n on. -/
def areaBytes (n j : Nat) : List Byte := (List.range 65536).map fun i => Config.engineByte (n + 65536 * j + i)

/-- Save the slots and tiles of a bench that its tenant has written since its last restore there, beside those saved before. DESIGN CHOICE
(log 88): the spec gives the area no layout, so its bytes are free values. -/
def State.saveEngine (s : State) (b t : Nat) (d : TenantDesc) : State :=
  let x := s.pkg.bench b
  let w := s.pkg.engAway.get ⟨[], [], none⟩ (8 * b + t)
  let n := s.free
  if x.wdirty.isEmpty && x.tdirty.isEmpty then s.updBy .hub fun p => p.onBench b Bench.clearEngine
  else
    match s.pkg.engineLost t b d .store with
    | some va => (s.areaError (b / 16) va).updBy .hub fun p => p.onBench b Bench.clearEngine
    | none =>
      { s.updBy .hub fun p =>
          let q := (List.range 12).foldl (fun (p : Pkg) j =>
            (p.perform none ((p.place t (engineAt d b j) .store).getD 0) 65536 (bytesNat (areaBytes n j))).used t (engineAt d b j) .store) p
          let slots := x.wdirty.foldl (fun m i => m.set ⟨[], []⟩ i (x.wslots.get ⟨[], []⟩ i)) w.wslots
          let tiles := x.tdirty.foldl (fun m i => m.set Tile.init i (x.tiles.get Tile.init i)) w.tiles
          { q with engAway := q.engAway.set ⟨[], [], none⟩ (8 * b + t) ⟨slots, tiles, some n⟩ }.onBench b Bench.clearEngine with
        free := n + 786432 }

/-- A weight slot of open contents. -/
def openSlot (n : Nat) : WSlot :=
  ⟨(List.range 32768).foldl (fun (m : Store Int) i => m.set 0 i (toSigned 8 (Config.engineCell (n + i)).toNat)) [],
    (List.range 1024).foldl (fun (m : Store Int) i => m.set 0 i (bits ((Config.engineCell (n + 32768 + i)).setWidth 64) 0 6 : Nat)) []⟩

/-- A tile of open contents. -/
def openTile (n : Nat) : Tile :=
  let f := (Config.engineCell n).getLsbD 0
  ⟨f, toSigned 8 (Config.engineCell (n + 1)).toNat, (List.range 16384).foldl (fun (m : Store Int) i =>
    let v := (Config.engineCell (n + 2 + i)).toNat
    m.set 0 i (if f then (v % 2 ^ 32 : Nat) else toSigned 48 v)) []⟩

/-- Restore what the save area of the incoming tenant holds; one that was written meanwhile gives open contents (log 88). DESIGN CHOICE
(log 117): a slot or tile that a gate cleared, and that the tenant did not write again before it left, comes back as it was saved before. -/
def State.loadEngine (s : State) (b t : Nat) (d : TenantDesc) : State :=
  let w := s.pkg.engAway.get ⟨[], [], none⟩ (8 * b + t)
  match w.bytes with
  | none => s.updBy .hub fun p => p.onBench b Bench.clearEngine
  | some n =>
    match s.pkg.engineLost t b d .load with
    | some va => (s.areaError (b / 16) va).updBy .hub fun p => p.onBench b Bench.clearEngine
    | none =>
      let same := (List.range 12).all fun j => readMem s.pkg.mem ((s.pkg.place t (engineAt d b j) .load).getD 0) 65536 == bytesNat (areaBytes n j)
      let slots := if same then w.wslots else (List.range 8).foldl (fun m i => m.set ⟨[], []⟩ i (openSlot (s.free + 65536 * i))) []
      let tiles := if same then w.tiles else (List.range 4).foldl (fun m i => m.set Tile.init i (openTile (s.free + 65536 * (8 + i)))) []
      { s.updBy .hub fun p =>
          ((List.range 12).foldl (fun (p : Pkg) j => p.used t (engineAt d b j) .load) p).onBench b fun x =>
            { x with wslots := slots, tiles := tiles, wdirty := [], tdirty := [] } with
        free := s.free + 786432 }

/-! ### The switch area (R358) -/

/-- The address of byte o of core c's switch area. -/
def switchAt (d : TenantDesc) (c o : Nat) : Nat := d.swbase + 0x80000 * c + o

/-- The pages of the switch areas of a bench are there. -/
def Pkg.areaOk (p : Pkg) (t b : Nat) (d : TenantDesc) (u : Use) : Bool :=
  (List.range 8).all fun i => (List.range 7).all fun j => (p.place t (switchAt d (8 * b + i) (0x10000 * j)) u).isSome

/-- The pages of core c's switch area have been used. -/
def Pkg.usedArea (p : Pkg) (t c : Nat) (d : TenantDesc) (u : Use) : Pkg :=
  (List.range 7).foldl (fun p j => p.used t (switchAt d c (0x10000 * j)) u) p

/-- The place of byte o of a switch area whose pages are there. -/
def Pkg.area (p : Pkg) (t : Nat) (d : TenantDesc) (c o : Nat) (u : Use) : Nat := (p.place t (switchAt d c o) u).getD 0

/-- The shelf blocks of core c written since write n. -/
def Pkg.dirtyBlocks (p : Pkg) (c n : Nat) : List Nat :=
  let mine := (p.hist.filter fun h => decide (n ≤ h.n) && decide (shelfOf c ≤ h.addr) && decide (h.addr < shelfOf c + 0x60000)).map
    fun h => (h.addr - shelfOf c) / 4096
  (List.range 96).filter mine.contains

/-- Copy a shelf block. -/
def Pkg.moveBlock (p : Pkg) (src dst : Nat) : Pkg := p.perform none dst 4096 (readMem p.mem src 4096)

/-- The bits of a word of shelf block n that can be other than 0: records and drawer descriptors have reserved ones (R5). -/
def blockMask (n : Nat) : Nat → Word := if 4 ≤ n ∧ n < 8 then recordMask else if n = 0x5F then drawerMask else fun _ => allOnes

/-- Copy a saved block to its place in a shelf; what software has put into reserved bits of the image stays out (R5). -/
def Pkg.restoreBlock (p : Pkg) (src c n : Nat) : Pkg :=
  p.perform none (shelfOf c + 4096 * n) 4096 (maskBytes (blockMask n) (shelfOf c + 4096 * n) (readMem p.mem src 4096) 4096)

/-- Save the shelf blocks, mailboxes and counters of core c. -/
def Pkg.saveCore (p : Pkg) (t b c : Nat) (d : TenantDesc) : Pkg :=
  let at_ := fun (o : Nat) => p.area t d c o .store
  let blocks := p.dirtyBlocks c (p.bench b).restored
  let k := p.core c
  let q := blocks.foldl (fun p n => p.moveBlock (shelfOf c + 4096 * n) (at_ (4096 * n))) p
  let mask := blocks.foldl (fun m n => m ||| 2 ^ n) (readMem p.mem (at_ 0x61020) 16)
  let q := (q.perform none (at_ 0x61020) 16 mask).perform none (at_ 0x61000) 32
    ((List.range 8).foldl (fun v i => v + k.signals.get 0 i * 2 ^ (32 * i)) 0)
  ((List.range 4).foldl (fun p pri => (List.range 16).foldl (fun p e =>
    p.perform none (at_ (0x60000 + 1024 * pri + 64 * e)) 64 (match (k.mail.get [] pri)[e]? with
      | some m => wordsNat m.words
      | none => 0)) p) q).usedArea t c d .store

/-- The class and stamp of what waits at a core, for the horizon (R254). -/
def Pkg.waitingStamps (p : Pkg) (t c : Nat) : List (Nat × Nat) :=
  let k := p.core c
  let records := k.pool.filterMap fun i =>
    let r := p.record (slotAddr c i)
    if 8 ≤ r.state ∧ r.state ≤ 10 then none else some (r.cls, r.stamp.toNat)
  let releases := k.releases.filterMap fun x => (p.entryOf t x.entry).map fun e => (e.cls, x.cycle.toNat)
  records ++ releases ++ (p.mailOf c).map fun m => (m.cls, m.stamp.toNat)

/-- The hardware deque of core c moves whole to its memory deque (R304, R357). -/
def Pkg.spillDeque (p : Pkg) (c : Nat) : Pkg :=
  let k := p.core c
  ((k.hwDeque.reverse.zipIdx).foldl (fun (p : Pkg) x => p.wr (memEntry c (k.memLen + x.2)) (word x.1)) p).onCore c fun x =>
    { x with hwDeque := [], memLen := k.memLen + k.hwDeque.length }

/-- Put away what the scheduler keeps of core c for tenant t; its request as a thief is withdrawn (R303). -/
def Pkg.putAway (p : Pkg) (t c : Nat) : Pkg :=
  let q := p.withdrawThief c
  let own := fun (z : Sleeper) => z.tenant == t && slotCore z.slot == c
  let mine := q.sleepers.filter own
  let kept := { q.core c with steals := [], thief := none, fifo := [], queues := [], accounts := [] }
  let cycles := (mine.filter fun z => z.state == 6).map fun z => (z.slot, (q.record z.slot).cls)
  { q with
    away := q.away.set Away.init (t * 512 + c) ⟨kept, mine, q.waitingStamps t c, cycles, []⟩
    sleepers := q.sleepers.filter fun z => !own z }.onCore c fun k =>
      { Core.init with rgen := k.rgen, refuse := k.refuse, stalegen := k.stalegen, dasel := k.dasel }

/-- A message from its eight words in a saved mailbox; what the words do not hold comes from what was put away. -/
def messageOf (t now tick : Nat) (known : List Message) (id : Nat) (ws : List Word) : Message :=
  match known.find? fun m => m.words == ws with
  | some m => m
  | none => ⟨id, t, ws.getD 0 0, ws.getD 1 0, ws.getD 2 0, ws.drop 3, id, now, tick, false, 0⟩

/-- The mailboxes that the switch area holds: a zero word 0 is a free entry. -/
def Pkg.savedMail (p : Pkg) (t now tick : Nat) (d : TenantDesc) (c : Nat) (known : List Message) : Store (List Message) :=
  (List.range 4).foldl (fun (m : Store (List Message)) pri =>
    m.set [] pri ((List.range 16).filterMap fun e =>
      let a := p.area t d c (0x60000 + 1024 * pri + 64 * e) .load
      let ws := (List.range 8).map fun i => p.rd (a + 8 * i)
      if ws.getD 0 0 = 0 then none else some (messageOf t now tick known (p.arrival + 16 * pri + e) ws))) []

/-- The waiters of a core take the messages that came while they were away, in the order they suspended (R293). -/
def Pkg.serveAll (p : Pkg) (now tick c : Nat) : Pkg :=
  (p.core c).waiters.foldl (fun p w => p.serveWaiter now tick c w.slot w.tenant w.tag w.job 64) p

/-- Bring back core c for tenant t: its shelf blocks, or zeros, its mailboxes and counters, and what was put away. What waits for a cycle
that has started, or for a class that has stopped meanwhile, is ready (R236). -/
def Pkg.bringBack (p : Pkg) (t c now tick : Nat) (d : TenantDesc) : Pkg :=
  let at_ := fun (o : Nat) => p.area t d c o .load
  let mask := readMem p.mem (at_ 0x61020) 16
  let q := (List.range 96).foldl (fun (p : Pkg) n =>
    if mask.testBit n then p.restoreBlock (at_ (4096 * n)) c n
    else if readMem p.mem (shelfOf c + 4096 * n) 4096 = 0 then p
    else p.perform none (shelfOf c + 4096 * n) 4096 0) p
  let w := q.away.get Away.init (t * 512 + c)
  let known := [0, 1, 2, 3].flatMap fun i => w.core.mail.get [] i
  let mail := q.savedMail t now tick d c known
  let signals := (List.range 8).foldl (fun (m : Store Nat) i => m.set 0 i (readMem p.mem (at_ 0x61000 + 4 * i) 4)) []
  let r := { q with
    away := q.away.set Away.init (t * 512 + c) Away.init
    arrival := q.arrival + 64
    sleepers := q.sleepers ++ w.sleepers }.onCore c fun k =>
      { w.core with mail := mail, signals := signals, rgen := k.rgen, refuse := k.refuse, stalegen := k.stalegen, dasel := k.dasel }
  let late := w.sleepers.filter fun z =>
    let own := r.cls (r.record z.slot).cls
    w.freed.contains z.slot || (z.state == 11 && !(r.cls z.key).started) ||
      (z.state == 6 && (!own.started || decide ((own.cyc - word z.key).toNat < 2 ^ 63)))
  ((late.foldl (fun p z => p.wakeAs tick z.slot (z.state == 6 || z.state == 11)) r).serveAll now tick c).usedArea t c d .load

/-! ### The switch (R357) -/

/-- The threads of a bench that run a task. -/
def State.busyThreads (s : State) (b : Nat) : List Nat :=
  ((List.range 32).map fun i => 32 * b + i).filter fun n => (s.thr n).task.isSome

/-- Pre-empt the running segments of a bench. -/
def State.preemptBench (s : State) (b : Nat) : State :=
  { s with threads := s.threads.map fun t => (t.1, if (s.busyThreads b).contains t.1 then t.2.due s.tick else t.2) }

/-- The steal requests that wait at a bench are refused: their thieves ask on. -/
def Pkg.refuseSteals (p : Pkg) (now b : Nat) : Pkg :=
  (List.range 8).foldl (fun p i =>
    let v := 8 * b + i
    let q := p.onCore v fun k => { k with steals := [] }
    (p.core v).steals.foldl (fun q c => match (q.core c).thief with
      | some f => q.askNext now c f.victims
      | none => q) q) p

/-- No byte older than now is fetched or read from a read cache by the bench's threads. -/
def State.freshCaches (s : State) (b : Nat) : State :=
  { s with
    threads := s.threads.map fun t => (t.1, if benchOf t.1 = b && !isSteward t.1 then { t.2 with fence := s.pkg.histN } else t.2)
    inval := (List.range 8).foldl (fun (m : Store Nat) i => m.set 0 (8 * b + i) s.pkg.histN) s.inval }

/-- `ctl.tvec` and `ctl.tstk` of a bench's threads are put away for one tenant and loaded for another. -/
def State.swapVectors (s : State) (b : Nat) (out into : Option Nat) : State :=
  (List.range 32).foldl (fun s i =>
    let n := 32 * b + i
    let t := s.thr n
    let s1 := match out with
      | some o => s.updBy .hub fun p => { p with vecs := p.vecs.set (0, 0) (o * 4096 + n) (t.tvec, t.tstk) }
      | none => s
    let v := match into with
      | some u => s1.pkg.vecs.get (0, 0) (u * 4096 + n)
      | none => (0, 0)
    s1.setThr n { t with tvec := v.1, tstk := v.2 }) s

/-- The bench is no longer tenant t's: the trace unit is cleared (R388), and the generations that it holds of t's jobs go. -/
def Bench.vacate (t : Nat) (x : Bench) : Bench :=
  { x with tenant := none, trctl := 0, trptr := 0, tbuf := [], tlost := 0, samples := [], gens := x.gens.filter fun g => g.1 / 65536 != t }

/-- Steps 3 to 5 for the outgoing tenant. -/
def State.switchOut (s : State) (b t : Nat) (d : TenantDesc) (wait : Out) (k : State → Out) : Out :=
  s.stopEngines b t wait fun s1 =>
    let s2 := (s1.drain b true).saveEngine b t d
    k (s2.updBy .hub fun p =>
      let q := (List.range 8).foldl (fun (p : Pkg) i => ((p.spillDeque (8 * b + i)).saveCore t b (8 * b + i) d).putAway t (8 * b + i)) p
      q.onBench b (Bench.vacate t))

/-- Step 6 for the incoming tenant. -/
def State.switchIn (s : State) (b t : Nat) (d : TenantDesc) (wait : Out) (k : State → Out) : Out :=
  let now := s.ticks
  let tick := s.tick
  let s1 := (s.loadEngine b t d).updBy .hub fun p =>
    let q := (List.range 8).foldl (fun (p : Pkg) i => p.bringBack t (8 * b + i) now tick d) p
    q.onBench b fun x => { x with tenant := some t, restored := q.histN }
  s1.resumeEngines b t wait k

/-- The switch ends; what a stop that was given up had stopped runs on. -/
def State.switchDone (s : State) (b : Nat) : State :=
  s.updBy .hub fun p => (p.endHalt b).onBench b fun x =>
    { x with switching := false, target := none, waking := x.waking || (x.gated && x.tenant.isSome) }

/-- The incoming tenant may take the bench: VALID, the bench in its BMAP, and R393. -/
def State.welcome (s : State) (b : Nat) : Option Nat → Bool
  | none => true
  | some u => match s.pkg.desc u with
    | some d => d.bmap.getLsbD b && s.mayRun u d
    | none => false

/-- The switch area of a tenant on a bench can be reached (R358, R399). -/
def Pkg.areaReady (p : Pkg) (b : Nat) (u : Use) : Option Nat → Bool
  | none => true
  | some t => match p.desc t with
    | some d => p.areaOk t b d u
    | none => true

/-- The switch starts, or is under way: the steal requests that wait at the bench are refused, its dispatch stops, and the 10 µs of its
segments run (R357). -/
def State.beginSwitch (s : State) (b : Nat) (tenant : Option Nat) : State :=
  let now := s.tick
  s.updBy .hub fun p => (p.refuseSteals now b).onBench b fun x =>
    { x with switching := true, target := tenant, switchAt := if x.switching then x.switchAt else now }

/-- TENANT_SWITCH: a bench goes from its tenant to another, or to none. DEDUCED (log 118): spare pages leave its shelves first, as before a
wake (R340). Until its segments have ended, at a suspension point within 10 µs
or by a pre-emption, and its engine may stop, the switch is under way and is taken up again. A failure in a switch area, of the outgoing
tenant or of the incoming one, stops the switch, leaves the outgoing tenant there and is reported (R358). -/
def execTenantSwitch (bench : Nat) (tenant : Option Nat) (s : State) : Out :=
  let x := s.pkg.bench bench
  if 64 ≤ bench || !s.welcome bench tenant || (x.tenant == tenant && !x.switching) then .next s
  else
    let s1 := (s.recallSpares bench).beginSwitch bench tenant
    if !(s.busyThreads bench).isEmpty then
      .next (if s.tick < (s1.pkg.bench bench).switchAt + 16000 then s1 else s1.preemptBench bench)
    else if (s1.beginHalt bench).pkg.mustFinish bench s.tick then .next (s1.beginHalt bench)
    else if !s1.pkg.areaReady bench .store x.tenant || !s1.pkg.areaReady bench .load tenant then
      .next { s1.switchDone bench with outputs := s.outputs ++ [.steward (bench / 16) 0x21 (word bench)] }
    else
      let finish := fun (s2 : State) =>
        let s3 := (s2.swapVectors bench x.tenant tenant).freshCaches bench
        match tenant with
        | none => Host.Outcome.next (s3.switchDone bench)
        | some u =>
          match s3.pkg.desc u with
          | none => .next (s3.switchDone bench)
          | some d => s3.switchIn bench u d (.next s) fun s4 => .next (s4.switchDone bench)
      let s1 := s1.beginHalt bench
      match x.tenant with
      | none => finish s1
      | some t =>
        match s1.pkg.desc t with
        | none => finish (s1.updBy .hub fun p => p.onBench bench (Bench.vacate t))
        | some d => s1.switchOut bench t d (.next s) finish

end Sys2Proof.Machine
end

