-- ==== Sys2Proof/Machine/Pager.lean ====
section
/-! DEFINITION. The pager's answers (R337, R338), shootdowns (R339), the spare-shelf tier (R340) and migration (R341, R342). -/

namespace Sys2Proof.Machine

/-! ### Answers (R337) -/

/-- The requesters of a service request walk again. -/
def State.answerPage (s : State) (req : Nat) : State :=
  { s.updBy .hub fun p =>
      { p with
        reqs := p.reqs.filter fun r => r.id != req
        ops := p.ops.map fun x => (x.1, x.2.map fun (o : Op) =>
          if o.pageReq = some req then
            { o with pageReq := none, state := if o.stopped then 3 else if o.place = 2 then 2 else if o.kind = 9 then 1 else 0 }
          else o) } with
    threads := s.threads.map fun t => (t.1, if t.2.park = some (.page req) then { t.2 with park := none } else t.2) }

/-- The pager maps the page of a request: a zeroed frame under the tenant's policy. -/
def State.mapPage (s : State) (r : PageReq) (g : MapRange) : State :=
  s.supply r.va r.level r.entry (fun f => leafFor f g) fun p f => p.zero f 65536

/-- PAGE_MAPPED: a pager in hardware mode copies a spare page back, or gives a page of the policy a zero-filled frame; then every held
requester walks again. An entry that is present by now is only answered. -/
def execPageMapped (req : Nat) (s : State) : Out :=
  match s.pkg.reqs.find? fun r => r.id == req with
  | none => .next s
  | some r =>
    let e := s.pkg.rd r.entry
    if e.getLsbD 0 then .next (s.answerPage req)
    else if s.pkg.assisted r.tenant 0 then .next s
    else if e.getLsbD 52 then
      match s.pkg.spareBack r.tenant r.va with
      | some leaf => .next ((s.recall r.tenant r.va r.level r.entry leaf).answerPage req)
      | none => .next s
    else
      match s.pkg.policyOf r.tenant r.va with
      | some g => .next ((s.mapPage r g).answerPage req)
      | none => .next s

/-- The host answers MAPPED: a page of the spare tier is copied back, and any other entry is what the host has made present (R337, R374). -/
def State.hostMapped (s : State) (r : PageReq) : State :=
  let e := s.pkg.rd r.entry
  let s1 :=
    if e.getLsbD 0 then s
    else match if e.getLsbD 52 then s.pkg.spareBack r.tenant r.va else none with
      | some leaf => s.recall r.tenant r.va r.level r.entry leaf
      | none => { s.updBy .hub fun p => p.wr r.entry (Config.hostEntry s.free ||| 1) with free := s.free + 1 }
  s1.answerPage r.id

/-- The pager answers REFUSED: BAD is written first, in an entry that is not present (R337). -/
def State.refusePage (s : State) (r : PageReq) : State :=
  (s.updBy .hub fun p => if (p.rd r.entry).getLsbD 0 then p else p.wr r.entry (setBits (p.rd r.entry) 2 1 1)).answerPage r.id

/-- PAGE_REFUSED: a page outside every range of the policy, or one of the spare tier that has no permissions. -/
def execPageRefused (req : Nat) (s : State) : Out :=
  match s.pkg.reqs.find? fun r => r.id == req with
  | none => .next s
  | some r =>
    let e := s.pkg.rd r.entry
    let known := if e.getLsbD 52 then (s.pkg.spareBack r.tenant r.va).isSome else (s.pkg.policyOf r.tenant r.va).isSome
    if s.pkg.assisted r.tenant 0 || known || e.getLsbD 0 then .next s else .next (s.refusePage r)

/-! ### Shootdown (R339) -/

/-- No access or chunk that was checked under an old entry of a tenant is still on its way. -/
def State.quiet (s : State) (t : Nat) : Bool :=
  !(s.flight.any fun a => s.tenantOf a.thread == t && !(a.todo.isEmpty && a.acc.isEmpty)) &&
    !(s.pkg.ops.any fun x => match x.2 with
      | some o => o.tenant == t && !o.chunks.isEmpty
      | none => false)

/-- No TLB holds an entry of the range, and no instruction cache an older byte. -/
def State.invalidate (s : State) (t va len : Nat) : State :=
  let s1 := s.forgetRange t va len
  { s1 with threads := s1.threads.map fun x => (x.1, { x.2 with fence := s.pkg.histN }) }

/-- SHOOTDOWN: it completes once nothing under an old entry is on its way. -/
def execShootdown (tenant va len : Nat) (s : State) : Out :=
  if len = 0 || !s.quiet tenant then .next s else .next (s.invalidate tenant va len)

/-! ### The spare-shelf tier (R340) -/

/-- SPARE_SHELF_MOVE: a 64 KiB page that is not pinned goes to stretch i of a core of a gated bench. -/
def execSpareShelfMove (tenant va core i : Nat) (s : State) : Out :=
  let page := va / 65536
  if 512 ≤ core || 4 ≤ i || !(s.pkg.bench (core / 8)).gated || !s.quiet tenant || (s.pkg.spares.any fun x => x.2.2.1 == core && x.2.2.2 == i) then
    .next s
  else
    match s.pkg.walk tenant (page * 65536) with
    | .leaf e at_ 3 =>
      if e.getLsbD 53 || isForeign (pteAddr e) then .next s
      else
        .next ((s.updBy .hub fun p =>
          let q := p.perform none (shelfOf core + 0x10000 + 0x10000 * i) 65536 (readMem p.mem (pteAddr e) 65536)
          { q.wr at_ (word (2 ^ 52 + core * 2 ^ 18 + i * 2 ^ 16)) with
            spares := (tenant, page, core, i) :: p.spares
            spareLeaf := p.spareLeaf.set 0 (pageKey tenant page) e }).invalidate tenant (page * 65536) 65536)
    | .leaf _ _ _ => .next s
    | .bad => .next s
    | .absent _ _ _ => .next s

/-! ### Migration (R341, R342) -/

/-- The event that each move, settling and unsettling delivers to the pager. -/
def moveEvent (t va code : Nat) (here : Bool) : Output :=
  .service t [word va, word (t + code * 256 + (Config.packageNumber here).val * 65536)]

/-- The images of the open marks keep free bytes for a page that comes from another package with that package's images of its lines
(R259, R341; DESIGN CHOICE, log 87). -/
def State.imagesOf (s : State) (new : Nat) : State :=
  { s with
    marks := s.marks.zipIdx.map fun x =>
      { x.1 with image := x.1.image.map fun p => p.putBytes new ((List.range 65536).map fun j => Config.foreignByte (s.free + 65536 * x.2 + j)) }
    free := s.free + 65536 * s.marks.length }

/-- A page's 64 KiB go to the other package, or come from it, the entry is rewritten with a shootdown, and its images and apply records
go with it; the accesses held walk again (R341). -/
def State.movePage (s : State) (t va at_ : Nat) (e : Word) (m : Moves) : State :=
  let old := pteAddr e
  let new := if m.here then 0x200000000000 + (Config.peerFrame s.free).val * 65536 else poolAddr s.free
  let body := (List.range 65536).map fun j => if m.here then s.pkg.mem.get 0 (old + j) else Config.foreignByte (s.free + 1 + j)
  let m' : Moves := { m with here := !m.here, times := s.time :: m.times }
  let images := if m.here then s.marks.filterMap fun x => x.image.map fun p => Output.peerWrite new ((List.range 65536).map fun j => p.mem.get 0 (old + j)) else []
  let s1 := s.updBy .hub fun p =>
    let q := p.wr at_ ((e &&& ~~~0x3FFFFFFFFF00#64) ||| word new)
    let q := if m.here then q else q.perform none new 65536 (bytesNat body)
    { q with
      moves := p.moves.set none (pageKey t (va / 65536)) (some m')
      applied := if m.here then p.applied.filter fun r => !(decide (old ≤ 64 * r.2.2.1) && decide (64 * r.2.2.1 < old + 65536)) else p.applied }
  let s2 := { s1.invalidate t va 65536 with
    free := s.free + 65537
    outputs := s.outputs ++ images ++ (if m.here then [Output.peerWrite new body] else []) ++ [moveEvent t va 0 m'.here] }
  if m.here then s2 else s2.imagesOf new

/-- What the package keeps of a page's moves. -/
def Pkg.movesOf (p : Pkg) (t va : Nat) (e : Word) : Moves := (p.moves.get none (pageKey t (va / 65536))).getD ⟨[], none, !isForeign (pteAddr e)⟩

/-- The moves within the last millisecond. -/
def Moves.recent (m : Moves) (time : Nat) : List Nat := m.times.filter fun x => decide (time < x + 8000000)

/-- A request to move a page (R341, R342): refused while it is SETTLED; the fifth within 1 ms settles it. A move begins by holding every
access to the page. -/
def State.migrate (s : State) (t va : Nat) : State :=
  let base := va / 65536 * 65536
  match s.pkg.walk t base with
  | .leaf e at_ 3 =>
    let m := s.pkg.movesOf t base e
    if !(e.getLsbD 54) || e.getLsbD 53 || m.settled.isSome || s.pkg.migrants.contains (t, base) then s
    else if (m.recent s.time).length < 4 then s.updBy .hub fun p => { p with migrants := (t, base) :: p.migrants }
    else
      { (s.updBy .hub fun p =>
          { p.wr at_ (setBits e 55 1 1) with
            moves := p.moves.set none (pageKey t (base / 65536)) (some { m with settled := some s.time }) }).invalidate t base 65536 with
        outputs := s.outputs ++ [moveEvent t base 1 m.here] }
  | .leaf _ _ _ => s
  | .bad => s
  | .absent _ _ _ => s

/-- A store that waits for the page in the release buffer. -/
def State.releasing (s : State) (a : Nat) : Bool := s.released.any fun h => decide (a < h.addr + h.bytes.length) && decide (h.addr < a + 65536)

/-- The move of a held page, once nothing is on its way to it. -/
def State.finishMove (s : State) (t base : Nat) : State :=
  let free := fun (s : State) => s.updBy .hub fun p => { p with migrants := p.migrants.erase (t, base) }
  match s.pkg.walk t base with
  | .leaf e at_ 3 =>
    let m := s.pkg.movesOf t base e
    if !s.quiet t || s.releasing (pteAddr e) then s else free (s.movePage t base at_ e { m with times := m.recent s.time })
  | .leaf _ _ _ => free s
  | .bad => free s
  | .absent _ _ _ => free s

/-- This package homes the page of an address. -/
def Pkg.homesPage (p : Pkg) (t va : Nat) : Bool :=
  match p.walk t va with
  | .leaf e _ _ => (p.movesOf t va e).here
  | .bad => false
  | .absent _ _ _ => false

/-- MIGRATION_MOVE: in hardware mode the page's home asks for the move once the other package's accesses exceed its own by 256 within
100 µs, the others being a free value (log 119), and where the other package is the home it is that one that asks; a move under way ends. -/
def execMigrationMove (tenant va : Nat) (s : State) : Out :=
  let base := va / 65536 * 65536
  let due := !s.pkg.homesPage tenant base ||
    decide (s.pkg.usesOf s.time (pageKey tenant (va / 65536)) + 256 < Config.peerAccesses s.free)
  if s.pkg.migrants.contains (tenant, base) then .next (s.finishMove tenant base)
  else if s.pkg.assisted tenant 4 then .next s
  else
    let s1 := { s with free := s.free + 1 }
    .next (if due then s1.migrate tenant va else s1)

/-- SETTLE_EXPIRY: after 16 ms SET is cleared and the count starts from 0. -/
def execSettleExpiry (tenant va : Nat) (s : State) : Out :=
  let base := va / 65536 * 65536
  let key := pageKey tenant (va / 65536)
  match s.pkg.moves.get none key, s.pkg.walk tenant base with
  | some m, .leaf e at_ _ =>
    match m.settled with
    | none => .next s
    | some x =>
      if s.time < x + 128000000 then .next s
      else
        .next { s.updBy .hub fun p =>
            { p.wr at_ (setBits e 55 1 0) with moves := p.moves.set none key (some { m with times := [], settled := none }) } with
          outputs := s.outputs ++ [moveEvent tenant base 2 m.here] }
  | _, _ => .next s

end Sys2Proof.Machine
end

