-- ==== Sys2Proof/Machine/Events.lean ====
section
/-! DEFINITION. What the host, the firmware and the power controls do: host answers (R374), configuration requests (R371, R380), image
windows (R378), the locked L2 region (R326, R327), gating and waking of benches (R278, R307, R386), the power cap (R384), resets (R395,
R396) and the PCIe port (R395). -/

namespace Sys2Proof.Machine

/-! ### The host (R374, R378) -/

/-- The host's answer to a request: MAPPED or REFUSED of a page, a bench mask of a cancel (R374). -/
def State.applyAnswer (s : State) (t func note : Nat) (answer : Word) : State :=
  match func with
  | 0 =>
    match s.pkg.reqs.find? fun r => r.id == note with
    | none => s
    | some r => if answer = 0 then s.hostMapped r else s.refusePage r
  | 3 =>
    s.updBy .hub fun p =>
      { p with
        cancelHeld := p.cancelHeld.filter fun x => x != (t, note)
        benches := p.benches.map fun b =>
          (b.1, if answer.getLsbD b.1 then b.2 else { b.2 with gens := b.2.gens.set 0 (t * 65536 + note) 0 }) }
  | _ => s

/-- The oldest request of a tenant that waits in the hub enters the ring (R374), a service request with the requesters merged by now (R338). -/
def State.postWaiting (s : State) (t : Nat) : State :=
  match s.pkg.svcWait.find? fun y => y.1 == t with
  | none => s
  | some y =>
    let ws := if y.2.1 = 0 then ((s.pkg.reqs.find? fun r => r.id == y.2.2.1).map PageReq.words).getD y.2.2.2 else y.2.2.2
    (s.updBy .hub fun p => { p with svcWait := p.svcWait.erase y }).postService t y.2.1 y.2.2.1 ws

/-- HOST_ANSWER: a 16-byte write to the answer register, a HOSTIN entry; an unknown sequence is dropped and counted, and a request
that waited for the ring enters it. -/
def execHostAnswer (tenant : Nat) (seq answer : Word) (s : State) : Out :=
  s.choose ⟨0x0C, hubSite, 16, word 0x6000⟩ true (.next s) fun s1 _ =>
    match s1.pkg.svcOpen.find? fun x => x.1 == tenant && x.2.1 == seq.toNat with
    | none => .next (s1.updBy .hub fun p => { p with svcDropped := p.svcDropped + 1 })
    | some x =>
      let s2 := s1.updBy .hub fun p => { p with svcOpen := p.svcOpen.erase x }
      .next ((s2.postWaiting tenant).applyAnswer tenant x.2.2.1 x.2.2.2 answer)

/-- The byte that a read of a virtual function gives: BAR 2 below 16 MiB, outside the windows zero (R378), and above it BAR 0, whose launch
windows show BADLNCH at offset 0xFC0 and zero in the rest of the status line (R379). DESIGN CHOICE (log 98): any other byte of BAR 0 reads
as a free value. -/
def State.hostByte (s : State) (t o : Nat) : Byte :=
  if o < 0x1000000 then (if s.pkg.imageByte t o then s.pkg.mem.get 0 (imageBase + o) else 0)
  else
    let w := (o - 0x1000000) / 0x1000
    let i := o % 0x1000
    if 4 ≤ w ∨ i < 0xFC0 then Config.foreignByte (s.free + i)
    else if i < 0xFC4 then BitVec.ofNat 8 (s.pkg.badlnch.get 0 (4 * t + w) / 2 ^ (8 * (i - 0xFC0))) else 0

/-- HOST_IMAGE_ACCESS: the host reads or writes BAR 2 of a virtual function; outside the windows writes are dropped. A write is a HOSTIN
entry. A read from offset 16 MiB on is one of BAR 0. A write whose data are not `len` bytes is a poisoned TLP: dropped and counted
(R377). -/
def execHostImageAccess (tenant offset len : Nat) (data : Option (List Byte)) (s : State) : Out :=
  match data with
  | none => .next { s with outputs := s.outputs ++ [.hostRead ((List.range len).map fun i => s.hostByte tenant (offset + i))], free := s.free + 4096 }
  | some bs =>
    if bs.length ≠ len then .next (s.updBy .hub fun p => { p with poisoned := p.poisoned + 1 })
    else s.choose ⟨0x0C, hubSite, bs.length, word offset⟩ true (.next s) fun s1 _ =>
      .next (s1.updBy .hub fun p =>
        if bs.isEmpty then p
        else if p.rangeInWindows tenant offset bs.length then p.putBytes (imageBase + offset) bs
        else bs.zipIdx.foldl (fun p x =>
          if p.imageByte tenant (offset + x.2) then p.perform none (imageBase + offset + x.2) 1 x.1.toNat else p) p)

/-! ### Tenant descriptors (R371, R392, R393) -/

/-- A base of a descriptor lies in a page with PIN, R and W of the tenant's own tables. -/
def pinned (m : Store Byte) (l0 va : Nat) : Bool :=
  match walkFrom m va l0 4 with
  | .leaf e _ _ => e.getLsbD 53 && e.getLsbD 2 && e.getLsbD 3
  | .bad => false
  | .absent _ _ _ => false

/-- Two image windows overlap. -/
def windowsMeet (a b : Nat × Nat) : Bool := decide (a.1 < b.1 + b.2) && decide (b.1 < a.1 + a.2)

/-- Firmware accepts a descriptor of tenant t. -/
def State.accepts (s : State) (t : Nat) (d : TenantDesc) : Bool :=
  let m := s.pkg.mem
  let base := fun (va align : Nat) => va % align == 0 && decide (va < 2 ^ 48) && !inWindowSpace va && pinned m d.l0 va
  let others := ((List.range 8).filter fun i => i != t).filterMap s.pkg.desc
  decide (t < 8) && d.l0 % 4096 == 0 && base d.ttbase 65536 && base d.gtbase 65536 && base d.csbase 4096 && base d.swbase 0x80000 &&
    base d.ojbase 0x400000 && d.trsize % 4096 == 0 && base d.trbase 4096 && decide (d.imgw.length ≤ 4) &&
    (d.imgw.all fun w => w.2 == 0 || decide ((w.1 + w.2) * 4096 ≤ 0xC00000)) &&
    (others.all fun o => o.imgw.all fun w => d.imgw.all fun v => w.2 == 0 || v.2 == 0 || !windowsMeet w v) &&
    (others.all fun o => o.clown &&& d.clown == 0) && (others.all fun o => !(o.l2own && d.l2own)) &&
    (!d.conf || !(s.onyx.keys.get [] t).isEmpty)

/-- The bytes of a descriptor (R371). -/
def descBytes (d : TenantDesc) : List Byte :=
  let imgw := d.imgw.zipIdx.foldl (fun n w => n + (w.1.1 * 65536 + w.1.2) * 2 ^ (32 * w.2)) 0
  let ctl := num d.valid * 2 ^ 63 + num d.conf * 2 ^ 62 + d.mode.toNat * 2 ^ 56 + d.clown.toNat * 2 ^ 40 + num d.l2own * 2 ^ 39
  byteList ctl 8 ++ byteList d.bmap.toNat 8 ++ [d.l0, d.ttbase, d.gtbase, d.csbase, d.swbase, d.ojbase].flatMap (fun x => byteList x 8) ++
    byteList imgw 16 ++ [d.trbase, d.trsize, d.svq, 0, 0, 0].flatMap fun x => byteList x 8

/-- Measurement register i: M0 and M1 at bring-up hold what the boot measured, the others zero (R366, R392). -/
def Onyx.measure (o : Onyx) (i : Nat) : List Byte :=
  let old := o.m.get [] i
  if !old.isEmpty then old else if i < 2 then (Config.bootMeasure o.image i ++ List.replicate 32 0#8).take 32 else List.replicate 32 0#8

/-- Measurement register i extended by a record (R366). -/
def Onyx.extend (o : Onyx) (i : Nat) (e : List Byte) : Onyx :=
  { o with m := o.m.set [] i (sha256 (o.measure i ++ e)) }

/-- A descriptor is written: a valid one extends M2 (R392). -/
def State.writeDesc (s : State) (t : Nat) (d : TenantDesc) : State :=
  if !d.valid then s.updBy .hub fun p => { p with descs := p.descs.set none t none }
  else if !s.accepts t d then s
  else s.updBy .hub fun p => { p with descs := p.descs.set none t (some d), onyx := p.onyx.extend 2 (descBytes d) }

/-! ### Resets of a core and of a bench (R396) -/

/-- What the threads of a core sent goes on without a reply to them. -/
def State.orphanFlight (s : State) (n : Nat) : State :=
  { s with flight := s.flight.filterMap fun a =>
      if a.thread ≠ n then some a
      else
        match a.kind with
        | .plain _ => none
        | .home => none
        | .store _ => if a.todo.isEmpty && a.acc.isEmpty then none else some { a with replied := true, dst := none }
        | .atomic _ _ _ => if a.todo.isEmpty && a.acc.isEmpty then none else some { a with replied := true, dst := none } }

/-- One thread of a core reset: its segment ends FAILED with cause MCHK, reason RESET (R344, R350), and every register is lost. -/
def State.resetThread (s : State) (n : Nat) (wait : Out) (k : State → Out) : Out :=
  let wipe := fun (s : State) => k ((s.orphanFlight n).setThr n { Thread.init with fence := s.pkg.histN })
  let t := s.thr n
  match t.task with
  | none => wipe s
  | some j =>
    (s.withdraw n).failRecord (.thread n) n j.tenant j.slot j.link 0x11 9 0 0 0 wait fun s1 => wipe (s1.leave n j 10 t.pc)

/-- The core itself: deque to memory, caches empty, counters cleared, RGEN on by one. -/
def State.resetCore (s : State) (c : Nat) : State :=
  { s.updBy .hub fun p =>
      let k := p.core c
      let q := (k.hwDeque.reverse.zipIdx).foldl (fun (p : Pkg) x => p.wr (memEntry c (k.memLen + x.2)) (word x.1)) p
      q.onCore c fun x =>
        { x with hwDeque := [], memLen := k.memLen + k.hwDeque.length, signals := [], rgen := (x.rgen + 1) % 65536 } with
    tlbs := s.tlbs.set [] c []
    inval := s.inval.set 0 c s.pkg.histN
    pair := { s.pair with ready := false, lost := s.pair.lost || s.pair.role != 0 } }

/-- A core reset of the four threads and the core. -/
def State.coreReset (s : State) (c : Nat) (wait : Out) (k : State → Out) : Out :=
  forEach (fun (i : Nat) s1 k => s1.resetThread (4 * c + i) wait k) (List.range 4) s fun s1 => k (s1.resetCore c)

/-- CORE_RESET: where no tenant holds the bench, or a thread is parked under R349 that no debugger holds. -/
def execCoreReset (core : Nat) (s : State) : Out :=
  let parked := (List.range 4).any fun i => (s.thr (4 * core + i)).park == some .doubleFault && !s.onyx.dbgOpen
  if 512 ≤ core || !((s.pkg.bench (core / 8)).tenant.isNone || parked) then .next s
  else s.coreReset core (.next s) .next

/-- Every op that a bench reset finds on the bench ends CANCELLED and is reaped. -/
def State.cancelAll (s : State) (b : Nat) (wait : Out) (k : State → Out) : Out :=
  forEach (fun (x : Nat × Op) s1 k => s1.endOp x.1 6 0x0F 0 0 wait fun s2 =>
    k (if (s2.pkg.op x.1).isSome then s2.updBy .hub fun p => (p.unqueue x.1).reap x.1 else s2)) (s.pkg.benchOps b) s k

/-- What a bench reset clears beside its cores and ops. -/
def Pkg.benchReset (p : Pkg) (b : Nat) : Pkg :=
  let r := (List.range 8).foldl (fun (p : Pkg) i => p.onCore (8 * b + i) fun c =>
    { c with
      refuse := (c.refuse + (((List.range 4).flatMap fun i => c.mail.get [] i).filter fun m => !m.wt).length) % 65536
      mail := [], accounts := [], fifo := [], queues := [] }) p
  r.onBench b fun x =>
    { x.clearEngine with bflag := 0, keep := false, clamp := 0, renorm := 0, trctl := 0, trptr := 0, bqueues := [], halting := none }

/-- BENCH_RESET: only on a bench that no tenant holds. -/
def execBenchReset (bench : Nat) (s : State) : Out :=
  if 64 ≤ bench || (s.pkg.bench bench).tenant.isSome || (s.pkg.bench bench).switching then .next s
  else
    forEach (fun (i : Nat) s1 k => s1.coreReset (8 * bench + i) (.next s) k) (List.range 8) s fun s1 =>
      s1.cancelAll bench (.next s) fun s2 => .next (s2.updBy .hub fun p => p.benchReset bench)

/-! ### The governor (R382, R384) -/

/-- CAP of a die after a change. -/
def Pkg.setCap (p : Pkg) (die cap : Nat) : Pkg := { p with pgov := p.pgov.set pgovReset die (setBits (p.pgov.get pgovReset die) 16 12 cap) }

/-- POWER_CAP_ADJUST: above 450 W the CAP of every die falls, to no less than 64; below 430 W it rises. The step is open (log 10). -/
def execPowerCapAdjust (milliwatts : Nat) (s : State) : Out :=
  let x := Config.powerCap s.free
  .next { s.updBy .hub fun p => (List.range 4).foldl (fun (p : Pkg) die =>
      let cap := bits (p.pgov.get pgovReset die) 16 12
      if 450000 < milliwatts then (if 64 < cap then p.setCap die (64 + x % (cap - 64)) else p)
      else if milliwatts < 430000 then (if cap < 4095 then p.setCap die (cap + 1 + x % (4095 - cap)) else p)
      else p) p with
    free := s.free + 1 }

/-! ### Gating and waking (R278, R307, R386) -/

/-- The tiles of a bench that are not clear. DESIGN CHOICE (log 116): a tile cleared to F32 counts, as R278's clear is to W48. -/
def Bench.usedTiles (x : Bench) : Nat := (x.tiles.filter fun t => t.2 != Tile.init).length

/-- A core of the bench has something to do. -/
def State.hasWork (s : State) (b : Nat) : Bool :=
  !(s.busyThreads b).isEmpty || (List.range 8).any fun i => !(s.pkg.candidates (8 * b + i)).isEmpty

/-- BENCH_GATE: LIVE = 0, KEEP = 0 and nothing to do. A trace buffer that is not empty is drained first (R389). -/
def execBenchGate (bench : Nat) (s : State) : Out :=
  let x := s.pkg.bench bench
  if 64 ≤ bench || x.gated || x.keep || x.waking || x.switching || s.pkg.liveBeryl bench != 0 || s.hasWork bench then .next s
  else if !x.tbuf.isEmpty then .next (s.drain bench true)
  else .next (s.updBy .hub fun p => p.onBench bench fun x => { x.wipe with gated := true })

/-- BENCH_WAKE: the spare pages go back to DRAM first (R340); a stopped engine takes up its ops. -/
def execBenchWake (bench : Nat) (s : State) : Out :=
  let x := s.pkg.bench bench
  if !x.gated || !x.waking then .next s
  else
    let s2 := (s.recallSpares bench).updBy .hub fun p => p.onBench bench fun x => { x with gated := false, waking := false }
    match x.tenant with
    | none => .next s2
    | some t =>
      if s.pkg.ops.any fun y => y.1 / 65536 == t + 1 && y.1 % 65536 / 1024 == bench then s2.resumeEngines bench t (.next s) .next else .next s2

/-- The bench of a die that a thermal emergency gates next: the highest that is not gated. -/
def Pkg.hotBench (p : Pkg) (die : Nat) : Option Nat :=
  ((List.range 16).reverse.map fun i => 16 * die + i).find? fun b => !(p.bench b).gated

/-- The trace unit of a bench that is gated by force (R386, R389). DEDUCED (log 96): what its ring does not take is dropped and counted,
and the loss record names all that was dropped since the last one; if that does not fit either, the next record that does is one. -/
def State.loseTrace (s : State) (b : Nat) : State :=
  let now := s.ticks
  let s1 := (s.drain b true).updBy .hub fun p => p.onBench b fun x =>
    let n := x.tbuf.length
    { x with
      trctl := setBits x.trctl 0 32 (bits x.trctl 0 32 + n)
      tlost := x.tlost + n
      tbuf := if x.trctl.getLsbD 63 then [traceWords 4 now 0 (word (x.tlost + n)) 0] else [] }
  (s1.drain b true).updBy .hub fun p => p.onBench b fun x =>
    { x with tlost := if x.trctl.getLsbD 63 && x.tbuf.isEmpty then 0 else x.tlost, tbuf := [] }

/-- A forced gate of a bench: its segments pre-empted, its engine stopped, the loss record, each tile not clear counted. -/
def State.forceGate (s : State) (b : Nat) (wait : Out) : Out :=
  if !(s.busyThreads b).isEmpty then .next (s.preemptBench b)
  else
    let gate := fun (s1 : State) =>
      let s2 := s1.loseTrace b
      Host.Outcome.next (s2.updBy .hub fun p => p.onBench b fun x =>
        { x.wipe with gated := true, halting := none, floss := (x.floss + x.usedTiles) % 65536 })
    match (s.pkg.bench b).tenant with
    | none => gate s
    | some t =>
      let s1 := s.beginHalt b
      if s1.pkg.mustFinish b s.tick then .next s1 else s1.stopEngines b t wait gate

/-- The engines of a die's benches that a forced gate had begun to stop run on; those of a tenant switch do not. -/
def Pkg.cool (p : Pkg) (die : Nat) : Pkg :=
  (List.range 16).foldl (fun p i => if (p.bench (16 * die + i)).switching then p else p.endHalt (16 * die + i)) p

/-- THERMAL_EMERGENCY: TJ of a die. From 115 °C on the die is in an emergency, which ends below 110 °C; during one, its highest running
bench is gated (R386). -/
def execThermalEmergency (die tj : Nat) (s : State) : Out :=
  let cooler := s.hot.filter fun d => d != die
  let s1 := if 4 ≤ die then s else if tj < 110 then { s.updBy .hub fun p => p.cool die with hot := cooler } else if 115 ≤ tj then { s with hot := die :: cooler } else s
  if !s1.hot.contains die then .next s1
  else
    match s1.pkg.hotBench die with
    | none => .next s1
    | some b => s1.forceGate b (.next s1)

/-! ### The locked region (R327) -/

/-- L2_LOCK_ENABLE: a write that sets EN. -/
def execL2LockEnable (v : Word) (s : State) : Out := .next (if v.getLsbD 63 then s.writeL2lk .hub v else s)

/-- L2_LOCK_DISABLE: a write that clears EN. -/
def execL2LockDisable (s : State) : Out := .next (if s.pkg.l2lk.getLsbD 63 then s.writeL2lk .hub 0 else s)

/-- L2_LOCK_DONE: the fill is complete, or the write-back, after which EN is 0. -/
def execL2LockDone (s : State) : Out :=
  .next (if s.pkg.l2lk.getLsbD 62 then s.updBy .hub fun p => { p with l2lk := setBits p.l2lk 62 1 0 } else s)

/-! ### Configuration requests (R380) -/

/-- The writable bits of word w of an egress entry (R247). -/
def egressMask (w : Nat) : Word :=
  match w with
  | 0 => 0x87FFFFFFF00007FF#64
  | 1 => 0xFFFFFFFFFFFF#64
  | 2 => 0xFFFF#64
  | 3 => allOnes
  | 4 => allOnes
  | 5 => allOnes
  | _ => 0

/-- A write to word w of an egress entry (R247); an entry disabled takes part in no instant whose cut-off came before (R249). -/
def Pkg.writeEgress (p : Pkg) (e w : Nat) (v : Word) : Pkg :=
  let q := p.wr (egressAddr e + 8 * w) (v &&& egressMask w)
  if w = 0 ∧ v.getLsbD 63 = false then { q with snaps := q.snaps.filter fun x => x.entry != e } else q

/-- Change a port. -/
def Pkg.onPort (p : Pkg) (port : Nat) (f : Port → Port) : Pkg :=
  { p with ports := p.ports.set Port.init port (f (p.ports.get Port.init port)) }

/-- A gate control list within the limits of R253: 1 to 256 entries that fill its cycle, of at most 1 s. -/
def gatesFit (g : GateList) : Bool :=
  decide (1 ≤ g.entries.length) && decide (g.entries.length ≤ 256) && decide (0 < g.cycle) && decide (g.cycle ≤ 1000000000) &&
    (g.entries.foldl (fun n x => n + x.2) 0 == g.cycle)

/-- The configuration change procedure (R253; PRESUMED, log 83: that of IEEE 802.1Q): a new list is in force from its base time, or from
the first of its cycle starts still to come. -/
def Port.change (q : Port) (time : Nat) (g : GateList) : Port :=
  let cyc := 8 * g.cycle
  let base := 8 * g.base
  let start := if time ≤ base then base else base + (time - base + cyc - 1) / cyc * cyc
  { q with gates := q.list time, admin := some (g, start) }

/-- The writable bits of word w of an ingress entry (R241). -/
def ingressMask (w : Nat) : Word :=
  match w with
  | 0 => 0x87FF3FFF00003FFF#64
  | 1 => allOnes
  | 2 => allOnes
  | _ => 0

/-- MPER of ctl.rcfg (R264). -/
def Pair.writeRcfg (p : Pair) (v : Word) : Pair := if 32 ≤ bits v 0 16 ∧ bits v 0 16 ≤ 320 then { p with mper := bits v 0 16 } else p

/-- The lists that firmware builds from a stream list in hardware mode, which the spec does not give: free values within the limits of R253
(R373; DESIGN CHOICE, log 97). -/
def Pkg.buildLists (p : Pkg) (time : Nat) (l : List Word) : Pkg :=
  let q := (List.range 10).foldl (fun (p : Pkg) i => match (Config.builtQbv l i).filter gatesFit with
    | some g => p.onPort i fun x => x.change time g
    | none => p) p
  { q with gates := (List.range 256).foldl (fun m i => match (Config.builtQci l i).filter fun g => decide (g.windows.length ≤ 16) with
    | some g => m.set none i (some g)
    | none => m) q.gates }

/-- What the firmware does on a configuration request. The two lists of MODE bit 57 come from a stream list, or from the host as they are
(R373). DESIGN CHOICE (log 120): a watchpoint hand-off to a thread is made by the stewards at the mailbox's request, as the spec names the
INT that it raises and not its sender (R376). -/
def State.configure (s : State) (r : CfgReq) : Out :=
  match r with
  | .tenant t d => .next (s.writeDesc t d)
  | .policy t rs => .next (s.updBy .hub fun p => { p with policies := p.policies.set [] t rs })
  | .classReg t n which v =>
    .next (if ((s.pkg.desc t).map fun d => d.clown.getLsbD n).getD false then s.writeClass .hub n which v else s)
  | .l2lk t v => .next (if ((s.pkg.desc t).map (·.l2own)).getD false then s.writeL2lk .hub v else s)
  | .portMac port mac => .next (s.updBy .hub fun p => p.onPort port fun q => { q with mac := some (BitVec.ofNat 48 mac) })
  | .rtag e on => .next (s.updBy .hub fun p => { p with rtags := p.rtags.set false e on })
  | .filter i f => .next (if i < 1024 then s.updBy .hub fun p => { p with filters := p.filters.set none i (some f) } else s)
  | .recovery i h t =>
    .next (if i < 256 ∧ 2 ≤ h ∧ h ≤ 64 ∧ 1000000 ≤ t ∧ t ≤ 1000000000 then
      s.updBy .hub fun p => { p with recoveries := p.recoveries.set none i (some ⟨h, t, none, [], 0⟩) } else s)
  | .gateList port g => .next (if port < 10 && gatesFit g then s.updBy .hub fun p => p.onPort port fun q => q.change s.time g else s)
  | .preempt port c f v =>
    .next (if port < 8 then s.updBy .hub fun p => p.onPort port fun q => { q with preemptable := c, fragment := f, verify := v } else s)
  | .split e port => .next (if e < 256 ∧ port.getD 0 < 10 then s.updBy .hub fun p => { p with splits := p.splits.set none e port } else s)
  | .gate i g => .next (if i < 256 && decide (g.windows.length ≤ 16) then s.updBy .hub fun p => { p with gates := p.gates.set none i (some g) } else s)
  | .ingress i w v => .next (if i < 1024 && decide (w < 4) then s.updBy .hub fun p => p.wr (ingressAddr i + 8 * w) (v &&& ingressMask w) else s)
  | .egress e w v => .next (if e < 256 && decide (w < 8) then s.updBy .hub fun p => p.writeEgress e w v else s)
  | .fallback e bs =>
    .next (if e < 256 && decide (bs.length ≤ 1536) then s.updBy .hub fun p => p.putBytes (imageBase + 0xF10000 + 1536 * e) bs else s)
  | .pgov die v => .next (if die < 4 then s.updBy .hub fun p => p.writeGovernor die v else s)
  | .rcfg v => .next { s with pair := s.pair.writeRcfg v }
  | .migrate t va => .next (if s.pkg.assisted t 4 then s.migrate t va else s)
  | .resetCore c => execCoreReset c s
  | .resetBench b => execBenchReset b s
  | .switch b t => execTenantSwitch b t s
  | .streams t l => .next (if s.pkg.assisted t 1 then s else s.updBy .hub fun p => p.buildLists s.time l)
  | .handOff n => .next (s.raiseInt n 3 none)

/-- CONFIG_MAILBOX_REQUEST: a 256-byte host write, a HOSTIN entry, and what the firmware does on it. -/
def execConfigMailboxRequest (r : CfgReq) (s : State) : Out :=
  s.choose ⟨0x0C, hubSite, 256, Config.mailbox⟩ true (.next s) fun s1 _ => s1.configure r

/-! ### The PCIe port and the package reset (R395) -/

/-- PERST_RELEASE. -/
def execPerstRelease (s : State) : Out := .next { s with perst := true, perstAt := s.tick }

/-- PCIE_CONFIG_REQUEST: answered with retry status until the port is ready, which it is a second after PERST# is released at the
latest. -/
def execPcieConfigRequest (s : State) : Out :=
  if !s.perst then .next s
  else
    let ready := s.pcieReady || decide (s.perstAt + 1600000000 ≤ s.tick) || Config.portReady s.free
    .next { s with pcieReady := ready, free := s.free + 1, outputs := s.outputs ++ [.config (!ready)] }

/-- Onyx after bring-up: fuses, key store and flash image stay (R364, R366, R392). -/
def Onyx.restart (o : Onyx) : Onyx :=
  { Onyx.reset with
    lc := o.lc, unlockCnt := o.unlockCnt, keys := o.keys, identity := o.identity, dbgOpen := o.lc == 3, recovery := !Config.imageVerifies o.image, image := o.image
    nonce := o.nonce }

/-- The package after a reset or a power loss: bring-up state; what has left it and the model's own counters stay. -/
def State.restart (s : State) : State :=
  { State.reset with pkg := { Pkg.reset with onyx := s.onyx.restart }, agenda := s.agenda, free := s.free, tick := s.tick, epochTick := s.tick, outputs := s.outputs }

/-- PACKAGE_RESET: bring-up from power good (R395). -/
def execPackageReset (s : State) : Out := .next s.restart

/-- FIRMWARE_RECOVERY_WRITE: in recovery a new image that verifies is programmed (R392). -/
def execFirmwareRecoveryWrite (image : List Byte) (s : State) : Out :=
  .next (if s.onyx.recovery && Config.imageVerifies image then s.setOnyx { s.onyx with image := image, recovery := false } else s)

end Sys2Proof.Machine
end

