-- ==== Sys2Proof/Machine/Onyx.lean ====
section
/-! DEFINITION. The requests that the Onyx core serves (R361-R368, R393) and a loss of power (R367). -/

namespace Sys2Proof.Machine

/-! ### Requests (R362, R363) -/

/-- The steward whose request Onyx serves: the oldest doorbell. -/
def Onyx.serving (o : Onyx) : Option Nat :=
  (o.busy.foldl (fun (b : Option (Nat × Nat)) x => match b with
    | none => some x
    | some y => if x.2 < y.2 then some x else some y) none).map (·.1)

/-- n bytes at an address of the stewards' space, if all lie in pinned pages with R and W. -/
def Pkg.pinnedBytes (p : Pkg) (va n : Nat) : Option (List Byte) :=
  (List.range n).foldr (fun i (r : Option (List Byte)) =>
    match p.pinnedAt (va + i), r with
    | some a, some bs => some (p.mem.get 0 a :: bs)
    | _, _ => none) (some [])

/-- The length of the argument data that an OP lists (R363, R393). -/
def opLen (op : Nat) : Option Nat :=
  match op with
  | 1 => some 448
  | 2 => some 0
  | 3 => some 0
  | 4 => some 32
  | 5 => some 384
  | 6 => some 0
  | 7 => some 0
  | _ => none

/-- A request ends: CODE and DONE in the status; an OK one writes RESULT and words 5-7. The next request is taken. -/
def State.finish (s : State) (die code : Nat) (result : Word) : State :=
  let st := s.onyx.status.get 0 die
  let s1 := match if code = 0 then s.block die else none with
    | some a => s.updBy .hub fun p => p.perform none (a + 32) 32 result.toNat
    | none => s
  let s2 := (s1.setOnyx { s1.onyx with
    busy := s1.onyx.busy.set 0 die 0
    status := s1.onyx.status.set 0 die (word (bits st 32 32 * 2 ^ 32 + code * 256 + 2)) })
  match s2.onyx.serving with
  | some d => s2.takeRequest d
  | none => s2

/-- Serve the request of a steward if it is the one in service and names this OP; one that breaks the form of a request ends with
BAD_REQ, and one whose block is no longer in a pinned page with R and W with BAD_ADDR (R362). -/
def State.serve (s : State) (die op : Nat) (k : Out) : Out :=
  if s.onyx.serving ≠ some die || s.onyx.burning then .next s
  else if (s.block die).isNone then .next (s.finish die 2 0)
  else
    let w := s.blockWord die 0
    let named := bits w 0 8
    if (opLen named).isNone then .next (s.finish die 1 0)
    else if named ≠ op then .next s
    else if bits w 8 8 ≠ 0 || opLen named != some (bits w 16 16) then .next (s.finish die 1 0)
    else k

/-! ### UNLOCK (R365, R366) -/

/-- A little-endian field of a token. -/
def field (t : List Byte) (off n : Nat) : Nat := bytesNat ((t.drop off).take n)

/-- The first check of R365 that a token fails, as its CODE; 0 where it passes. -/
def State.judgeToken (s : State) (t : List Byte) : Nat :=
  if field t 0 4 ≠ 0x4C4E5544 || field t 4 2 != 1 || field t 6 2 != 0 || field t 0x11 3 != 0 || field t 0x20 32 != 0 ||
      decide (65535 < field t 0x14 4) then 3
  else if !Config.pssVerify (t.take 64) ((t.drop 64).take 384) then 4
  else if word (field t 8 8) ≠ Config.devId then 5
  else if field t 0x10 1 ≠ s.onyx.lc || !(s.onyx.lc == 1 || s.onyx.lc == 2) then 6
  else if field t 0x14 4 ≤ s.onyx.unlockCnt then 7
  else 0

/-- The record E that an UNLOCK extends M7 with (R366). -/
def unlockRecord (t : List Byte) (lc : Nat) : List Byte :=
  byteList 0xD01 4 ++ byteList (field t 0x14 4) 4 ++ byteList (field t 8 8) 8 ++ byteList (lc + 0x300) 8 ++ (t.drop 0x18).take 8

/-- UNLOCK: a token that passes sets PENDING and extends M7. -/
def execUnlock (die : Nat) (s : State) : Out :=
  s.serve die 1 <|
    let a := (s.blockWord die 1).toNat
    match if a % 64 = 0 then s.pkg.pinnedBytes a 448 else none with
    | none => .next (s.finish die 2 0)
    | some t =>
      let code := s.judgeToken t
      if code ≠ 0 then .next (s.finish die code 0)
      else
        let o := s.onyx.extend 7 (unlockRecord t s.onyx.lc)
        .next ((s.setOnyx { o with pending := some (field t 0x14 4) }).finish die 0 0)

/-! ### The other operations -/

/-- WIPE: the named key slots are emptied; the result is the mask of those that held a key. -/
def execWipe (die : Nat) (s : State) : Out :=
  s.serve die 2 <|
    let mask := bits (s.blockWord die 1) 0 8
    let held := s.onyx.present.toNat &&& mask
    let keys := s.onyx.keys.filter fun k => !mask.testBit k.1
    .next ((s.setOnyx { s.onyx with keys := keys }).finish die 0 (word held))

/-- An OPEN that has burned UNLOCKCNT goes on: it burns LC, and then opens the port and ends (R367). -/
def State.burnOn (s : State) (die : Nat) : State :=
  if s.onyx.lc ≠ 3 then s.setOnyx { s.onyx with lc := 3 }
  else
    let o := { s.onyx with dbgOpen := true, pending := none, burning := false }
    (s.setOnyx o).finish die 0 o.lcst

/-- OPEN: once no slot holds a key and a token is pending, its counter is burned into UNLOCKCNT, then LC, and then the port opens, each at
the end of its own part of the service time (R367). -/
def execOpenPort (die : Nat) (s : State) : Out :=
  if s.onyx.burning then .next (if s.onyx.serving = some die then s.burnOn die else s)
  else
    s.serve die 3 <|
      if s.onyx.present ≠ 0 then .next (s.finish die 8 0)
      else
        match s.onyx.pending with
        | none => .next (s.finish die 9 0)
        | some c => .next (s.setOnyx { s.onyx with unlockCnt := c, burning := true })

/-- The 320 bytes that an attestation report signs (R368). -/
def State.report (s : State) (nonce : List Byte) : List Byte :=
  byteList 0x52545441 4 ++ byteList 1 4 ++ byteList Config.devId.toNat 8 ++ byteList s.onyx.lcst.toNat 8 ++ byteList s.onyx.present.toNat 8 ++
    nonce ++ (List.range 8).flatMap s.onyx.measure

/-- Write bytes at an address of the stewards' space. -/
def Pkg.putPinned (p : Pkg) (va : Nat) (bs : List Byte) : Pkg :=
  bs.zipIdx.foldl (fun q x => match p.pinnedAt (va + x.2) with
    | some a => q.perform none a 1 x.1.toNat
    | none => q) p

/-- ATTEST: the signed report of R368. -/
def execAttest (die : Nat) (s : State) : Out :=
  s.serve die 4 <|
    let out := (s.blockWord die 2).toNat
    if s.onyx.lc = 0 || s.onyx.lc == 4 then .next (s.finish die 1 0)
    else
      match s.pkg.pinnedBytes (s.blockWord die 1).toNat 32, if out % 64 = 0 then s.pkg.pinnedBytes out 704 else none with
      | some nonce, some _ =>
        let body := s.report nonce
        let sig := (Config.pssSign s.onyx.nonce body ++ List.replicate 384 0#8).take 384
        .next (((s.setOnyx { s.onyx with nonce := s.onyx.nonce + 1 }).updBy .hub fun p => p.putPinned out (body ++ sig)).finish die 0 704)
      | _, _ => .next (s.finish die 2 0)

/-- KEYLOAD: a wrapped key goes into a tenant's slot (R393); without the identity key none decrypts. -/
def execKeyload (die : Nat) (s : State) : Out :=
  s.serve die 5 <|
    match s.pkg.pinnedBytes (s.blockWord die 2).toNat 384 with
    | none => .next (s.finish die 2 0)
    | some bs =>
      match (if s.onyx.identity then Config.oaepDecrypt bs else none).filter fun k => k.length == 32 with
      | none => .next (s.finish die 4 0)
      | some key =>
        if s.onyx.lc ≠ 2 || s.onyx.pending.isSome then .next (s.finish die 10 0)
        else
          let o := { s.onyx with keys := s.onyx.keys.set [] (bits (s.blockWord die 1) 0 3) key }
          .next ((s.setOnyx o).finish die 0 o.present)

/-- DEPLOY: PROVISIONED to DEPLOYED. -/
def execDeploy (die : Nat) (s : State) : Out :=
  s.serve die 6 <|
    if s.onyx.lc ≠ 1 then .next (s.finish die 6 0)
    else
      let o := { s.onyx with lc := 2 }
      .next ((s.setOnyx o).finish die 0 o.lcst)

/-- RETIRE: every key and the identity key wiped, LC RETIRED, the port closed. -/
def execRetire (die : Nat) (s : State) : Out :=
  s.serve die 7 <|
    if s.onyx.lc = 0 then .next (s.finish die 6 0)
    else
      let o := { s.onyx with keys := [], identity := false, lc := 4, dbgOpen := false }
      .next ((s.setOnyx o).finish die 0 o.lcst)

/-! ### Loss of power (R367, R392) -/

/-- The fuses after a loss of power: an OPEN in service may have burned UNLOCKCNT (1), or LC too (2). -/
def State.burned (s : State) (n : Nat) : Onyx :=
  match s.onyx.serving, s.onyx.pending with
  | some die, some c =>
    let w := s.blockWord die 0
    if s.onyx.burning || (bits w 0 32 == 3 && s.onyx.present == 0) then
      match n with
      | 1 => { s.onyx with unlockCnt := c }
      | 2 => { s.onyx with unlockCnt := c, lc := 3 }
      | _ => s.onyx
    else s.onyx
  | _, _ => s.onyx

/-- POWER_LOSS: nothing runs until the package is reset; fuses, key store and flash stay as they read. An image is programmed in recovery
only, so a package that loses power while it is programmed is still in recovery (R392). -/
def execPowerLoss (burned : Nat) (s : State) : Out :=
  .next { (s.setOnyx (s.burned burned)).restart with stopped := true }

end Sys2Proof.Machine
end

