-- ==== Sys2Proof/Machine/Debug.lean ====
section
/-! DEFINITION. The debug packets of task-table entry 1,022 (R391) and the open debug port (R394). -/

namespace Sys2Proof.Machine

/-! ### Debug packets (R391) -/

/-- The message with a number in a mailbox, and its core. -/
def Pkg.findMail (p : Pkg) (id : Nat) : Option (Nat × Message) :=
  (p.cores.flatMap fun c => (p.mailOf c.1).map fun m => (c.1, m)).find? fun x => x.2.id == id

/-- Payload word i. -/
def Message.payload (m : Message) (i : Nat) : Word := m.pay.getD i 0

/-- The target job of a packet. -/
def Message.target (m : Message) : Nat := bits (m.payload 1) 0 16

/-- The sender is the target job's own debugger. -/
def Message.debugger (m : Message) : Bool := m.job == m.target + 0x8000

/-- The bench controller answers: to SRC, WT = 1, the same JOB and PRI, TAG from payload 0; the packet leaves its mailbox. DESIGN CHOICE
(log 80): the answer's ENTRY is 1,022, that of the debug channel. -/
def State.answerPacket (s : State) (c : Nat) (m : Message) (status : Nat) (ws : List Word) : State :=
  let now := s.ticks
  let header := headerOf m.job c (bits (m.payload 0) 16 16) true m.pri 1022 m.src
  let gen := (s.pkg.generation m.tenant m.job).getD 0
  s.updBy .hub fun p =>
    (p.dropMail c m).offer m.tenant now header m.stamp (sendWordOf gen now) ((word status :: ws) ++ List.replicate (4 - ws.length) 0) m.cls
      none

/-- Serve a packet that names command `cmd`; `all` says that only J + 0x8000 may send it. `k` answers with status and words, or `none` to
answer later. -/
def State.packet (s : State) (id cmd : Nat) (all : Bool) (k : Nat → Message → State × Option (Nat × List Word)) : Out :=
  match s.pkg.findMail id with
  | none => .next s
  | some (c, m) =>
    let named := bits (m.payload 0) 0 8
    if m.wt || m.entry != 1022 || (s.pkg.entryOf m.tenant 1022).isNone || !s.pkg.inMap m.tenant (c / 8) then .next s
    else if s.pkg.oldMessage m then
      .next (s.updBy .hub fun p => (p.dropMail c m).onCore c fun x => { x with stalegen := (x.stalegen + 1) % 65536 })
    else if !(m.debugger || m.job == m.target) then .next (s.answerPacket c m 1 [])
    else if named = 0 || decide (4 < named) then .next (s.answerPacket c m 3 [])
    else if named ≠ cmd then .next s
    else if all && !m.debugger then .next (s.answerPacket c m 1 [])
    else
      match k c m with
      | (s1, some (st, ws)) => .next ((s1.updBy .hub fun p => p.useGen (c / 8) m.tenant m.job).answerPacket c m st ws)
      | (s1, none) => .next s1

/-- The key of a stopped job. -/
def Message.jobKey (m : Message) : Nat := m.tenant * 65536 + m.target

/-- A segment of the packet's job runs on a bench. -/
def State.jobRuns (s : State) (b : Nat) (m : Message) : Bool :=
  (s.busyThreads b).any fun n => match (s.thr n).task with
    | some t => t.tenant == m.tenant && t.job == m.target
    | none => false

/-- STOP_JOB: no task of J is dispatched on the bench; the answer comes once no segment of J runs there. -/
def execStopJob (id : Nat) (s : State) : Out :=
  s.packet id 1 true fun c m =>
    let b := c / 8
    let s1 := s.updBy .hub fun p => p.onBench b fun x =>
      { x with stopped := if x.stopped.contains m.jobKey then x.stopped else m.jobKey :: x.stopped }
    (s1, if s.jobRuns b m then none else some (0, []))

/-- GO_JOB: the stop ends, the job's waiters on the bench take the messages that came meanwhile, and a gated bench wakes for what the stop
has held back (R307). -/
def execGoJob (id : Nat) (s : State) : Out :=
  s.packet id 2 true fun c m =>
    let now := s.ticks
    let tick := s.tick
    (s.updBy .hub fun p =>
      ((List.range 8).foldl (fun (p : Pkg) i => p.serveAll now tick (c / 8 * 8 + i))
        (p.onBench (c / 8) fun x => { x with stopped := x.stopped.erase m.jobKey })).rouse (c / 8), some (0, []))

/-- Payload 2 is the slot of a record of J. -/
def Pkg.recordOf (p : Pkg) (m : Message) : Option (Nat × Rec) :=
  let slot := (m.payload 2).toNat
  let c := slotCore slot
  if shelfBase ≤ slot ∧ c < 512 ∧ slot = slotAddr c (slotIndex slot) ∧ (p.core c).pool.contains (slotIndex slot) ∧ p.inMap m.tenant (c / 8) ∧
      (p.record slot).job = m.target then some (slot, p.record slot) else none

/-- RDREC: words n to n + 3 of a record. -/
def execRdrec (id : Nat) (s : State) : Out :=
  s.packet id 3 false fun _ m =>
    let n := bits (m.payload 3) 0 3
    (s, match s.pkg.recordOf m with
      | some (slot, _) => if n ≤ 4 then some (0, (List.range 4).map fun i => s.pkg.rd (slot + 8 * (n + i))) else some (3, [])
      | none => some (3, []))

/-- RDCTX: 32 bytes of the save area of a pre-empted record of a stopped job. -/
def execRdctx (id : Nat) (s : State) : Out :=
  s.packet id 4 true fun c m =>
    let off := (m.payload 3).toNat
    (match s.pkg.recordOf m, s.pkg.desc m.tenant with
      | some (slot, _), some d => s.updBy .hub fun p => p.used m.tenant (saveArea d slot) .load
      | _, _ => s,
      if !(s.pkg.bench (c / 8)).stopped.contains m.jobKey then some (2, [])
      else
        match s.pkg.recordOf m, (s.pkg.desc m.tenant) with
        | some (slot, r), some d =>
          match s.pkg.place m.tenant (saveArea d slot) .load with
          | some a => if r.pre && off % 8 == 0 && decide (off + 32 ≤ 4096) then some (0, (List.range 4).map fun i => s.pkg.rd (a + off + 8 * i))
              else some (3, [])
          | none => some (3, [])
        | _, _ => some (3, []))

/-! ### The open port (R394) -/

/-- DEBUG_HALT: the debugger halts a thread. -/
def execDebugHalt (t : Nat) (s : State) : Out :=
  .next (if s.onyx.dbgOpen && (s.thr t).park != some .doubleFault then s.setThr t { s.thr t with park := some .debugger } else s)

/-- DEBUG_RELEASE: a thread that the debugger halted, or took from a double fault, runs on. -/
def execDebugRelease (t : Nat) (s : State) : Out :=
  let held := match (s.thr t).park with
    | some .debugger => true
    | some .doubleFault => true
    | some (.page _) => false
    | none => false
  .next (if s.onyx.dbgOpen && held then s.setThr t { s.thr t with park := none } else s)

/-- Word i of a debugger's read at an address. -/
def State.debugWord (s : State) (a i : Nat) : Word :=
  if isForeign (a + 8 * i) then word (bytesNat ((List.range 8).map fun j => s.foreignAt (a + 8 * i + j) (8 * i + j))) else s.pkg.rd (a + 8 * i)

/-- What a debugger's write puts out at the homes outside the package. DESIGN CHOICE (log 100): it leaves at once, as no task's cycle
commits it. -/
def debugOut (a : Nat) (bs : List Byte) : List Output :=
  let far := (bs.zipIdx.map fun x => (a + x.2, x.1)).filter fun x => isForeign x.1
  match far with
  | [] => []
  | x :: _ => [if x.1 < 0x200000000000 then .hostWrite x.1 (far.map (·.2)) else .peerWrite x.1 (far.map (·.2))]

/-- DEBUG_ACCESS: memory by its resolved address, or a control register of a thread. -/
def execDebugAccess (r : DebugReq) (s : State) : Out :=
  if !s.onyx.dbgOpen then .next s
  else
    match r with
    | .readMem a n =>
      .next { s with
        free := if isForeign a || isForeign (a + n) then s.free + n + 8 else s.free
        outputs := s.outputs ++ (List.range ((n + 7) / 8)).map fun i => Output.debug (s.debugWord a i) }
    | .writeMem a bs =>
      let now := s.tick
      .next { s.updBy .hub fun p =>
          (bs.zipIdx.map fun x => (a + x.2, p.storedValue (a + x.2) 1 x.1.toNat)).foldl (fun q x =>
            if isForeign x.1 then q else if x.1 < shelfBase then q.perform none x.1 1 x.2 else q.writeHome now none x.1 1 x.2) p with
        outputs := s.outputs ++ debugOut a bs }
    | .readCtl t n => .next { s with outputs := s.outputs ++ [.debug (s.readCtl t n)] }
    | .writeCtl t n v =>
      if n = 0x1C0 then .next (if isSteward t && s.onyx.busy.get 0 (dieOf t) == 0 then s.doorbell (dieOf t) v else s)
      else
        let s1 := { s with cur := t }.writeCtl n v
        .next { s1.commit t ((s1.thr t).writeCtl n v) with cur := s.cur }
    | .haltOnBrk on => .next (s.setOnyx { s.onyx with haltOnBrk := on })

end Sys2Proof.Machine
end

