-- ==== Sys2Proof/Machine/Order.lean ====
section
/-! DEFINITION. Witness instructions (R146, R147), prefetch and read-cache invalidation (R154). -/

namespace Sys2Proof.Machine

/-- wmerge (R146): WITNESS on a malformed operand, w[a] first. -/
def execWmerge (d a b : BitVec 6) (s : State) : Out :=
  s.issue [.w d.toNat, .w a.toNat, .w b.toNat] fun t =>
    let p := t.rw a.toNat
    let q := t.rw b.toNat
    if !validWit p then s.trap .witness p
    else if !validWit q then s.trap .witness q
    else s.mergeAt s.cur p q (s.stallWith .log) fun s' m => s'.retire (t.ww d.toNat m) 4 false
/-- wmovg: the bits of w[a], never checked. -/
def execWmovg (d a b : BitVec 6) (s : State) : Out :=
  s.issue [gR d, .w a.toNat] fun t => s.retire (t.wg d.toNat (t.rw a.toNat)) 4 (b != 0)
/-- wmovw: the bits of g[a], never checked. -/
def execWmovw (d a b : BitVec 6) (s : State) : Out :=
  s.issue [.w d.toNat, gR a] fun t => s.retire (t.ww d.toNat (t.rg a.toNat)) 4 (b != 0)
/-- wwait (R147): stalls until w[a] is satisfied. -/
def execWwait (d a b : BitVec 6) (s : State) : Out :=
  s.issue [.w a.toNat] fun t =>
    if !validWit (t.rw a.toNat) then s.trap .witness (t.rw a.toNat)
    else if s.satisfied (s.nodeV s.cur) (t.rw a.toNat) then s.retire t 4 (d != 0 || b != 0)
    else s.stallWith .witness
/-- wfence (R147): waits until OS = 0, then w[d] takes FW. -/
def execWfence (d a b : BitVec 6) (s : State) : Out :=
  s.issue [.w d.toNat] fun t =>
    if t.os = 0 then s.retire (t.ww d.toNat t.fw) 4 (a != 0 || b != 0) else s.stallWith .ownStores
/-- wtest: the result is a READ entry (R262). -/
def execWtest (d a b : BitVec 6) (s : State) : Out :=
  s.issue [gR d, .w a.toNat] fun t =>
    if !validWit (t.rw a.toNat) then s.trap .witness (t.rw a.toNat)
    else
      s.read 0x24 5 (flag (s.satisfied (s.nodeV s.cur) (t.rw a.toNat))) fun s' v => s'.retire (t.wg d.toNat v) 4 (b != 0)

/-- A prefetch (R154): one that passes its checks and reaches DRAM uses the leaf (R333); any other is dropped. -/
def prefetchForm (d a b : BitVec 6) (s : State) : Out :=
  s.issue [gR a] fun t =>
    let s' := match s.view s.cur t.sup .load (t.rg a.toNat) with
      | .ok pa leaf =>
        if pa < dramEnd && !s.pkg.pageMoves (s.tenantOf s.cur) (t.rg a.toNat) 1 then s.useLeaves .load leaf.toList else s
      | .fault _ => s
      | .absent _ _ _ => s
    s'.retire t 4 (d != 0 || b != 0)

/-- pf.rc (R154). -/
def execPfRc (d a b : BitVec 6) (s : State) : Out := prefetchForm d a b s
/-- pf.l2 (R154). -/
def execPfL2 (d a b : BitVec 6) (s : State) : Out := prefetchForm d a b s
/-- rcinv (R154): later plain loads of the core's threads from the DRAM line of g[a] read at the home. -/
def execRcinv (d a b : BitVec 6) (s : State) : Out :=
  s.issue [gR a] fun t =>
    let s' := match s.view s.cur t.sup .load (t.rg a.toNat) with
      | .ok pa _ =>
        if pa < dramEnd then { s with inval := s.inval.set 0 ((pa / 64 + 1) * 4096 + coreOf s.cur) s.pkg.histN } else s
      | .fault _ => s
      | .absent _ _ _ => s
    s'.retire t 4 (d != 0 || b != 0)
/-- rcinv.all (R154). -/
def execRcinvAll (d a b : BitVec 6) (s : State) : Out :=
  { s with inval := s.inval.set 0 (coreOf s.cur) s.pkg.histN }.retire s.me 4 (d != 0 || a != 0 || b != 0)

end Sys2Proof.Machine
end

