-- ==== Sys2Proof/Machine/Scalar.lean ====
section
/-! DEFINITION. The 16-bit forms but for memory and `fmt` (R41), integer arithmetic, logic and shifts (R82, R83), multiply and
divide (R84, R85), compare and select (R86), bit fields (R87) and the constant-bank load (R88). -/

namespace Sys2Proof.Machine

/-! ### Arithmetic on words -/

/-- sext(u32(x), 32), the result of a `.w` form (R81). -/
def sext32 (x : Word) : Word := (x.setWidth 32).signExtend 64

/-- ror of 64 bits (R82). -/
def ror64 (x : Word) (n : Nat) : Word := x.rotateRight (n % 64)

/-- The relation cc between left and right (R41, R86). -/
def compareCc (cc : Nat) (l r : Word) : Bool :=
  match cc with
  | 0 => l == r
  | 1 => l != r
  | 2 => decide (l.toInt < r.toInt)
  | 3 => decide (r.toInt ≤ l.toInt)
  | 4 => decide (l.toNat < r.toNat)
  | _ => decide (r.toNat ≤ l.toNat)

/-- clamp(x, -2^63, 2^63 - 1) (R82, R84). -/
def satS64 (x : Int) : Word := BitVec.ofInt 64 (clamp x (-(2 ^ 63)) (2 ^ 63 - 1))

/-- clamp(x, 0, 2^64 - 1) (R82). -/
def satU64 (x : Int) : Word := BitVec.ofInt 64 (clamp x 0 (2 ^ 64 - 1))

/-- Quotient and remainder of R85, signed, in w bits. -/
def divSigned {w : Nat} (x y : BitVec w) : BitVec w × BitVec w :=
  if y = 0 then (BitVec.allOnes w, x)
  else (BitVec.ofInt w (x.toInt.tdiv y.toInt), BitVec.ofInt w (x.toInt.tmod y.toInt))

/-- Quotient and remainder of R85, unsigned, in w bits. -/
def divUnsigned {w : Nat} (x y : BitVec w) : BitVec w × BitVec w :=
  if y = 0 then (BitVec.allOnes w, x) else (x / y, x % y)

/-- The number of leading zero bits, looking at the n low bits from the top (R87). -/
def leadingZeros (x : Word) : Nat → Nat
  | 0 => 0
  | n + 1 => if x.getLsbD n then 0 else 1 + leadingZeros x n

/-- The number of trailing zero bits, from bit 64 - n up (R87). -/
def trailingZeros (x : Word) : Nat → Nat
  | 0 => 0
  | n + 1 => if x.getLsbD (63 - n) then 0 else 1 + trailingZeros x n

/-- The number of one bits among the n low bits (R87). -/
def onesCount (x : Word) : Nat → Nat
  | 0 => 0
  | n + 1 => (if x.getLsbD n then 1 else 0) + onesCount x n

/-- The n low bytes in reverse order (R87). -/
def revBytes (x : Nat) : Nat → Nat
  | 0 => 0
  | n + 1 => x % 256 * 256 ^ n + revBytes (x / 256) n

/-- The first bit and the number of bits of a field descriptor (R87). -/
def fieldOf (u : Word) : Nat × Nat :=
  let lo := bits u 0 6
  (lo, min (lo + bits u 8 7) 64 - lo)

/-- bfx (R87). -/
def bfxWord (x u : Word) : Word := word (bits x (fieldOf u).1 (fieldOf u).2)

/-- bfxs (R87). -/
def bfxsWord (x u : Word) : Word :=
  let l := (fieldOf u).2
  let v := bits x (fieldOf u).1 l
  if l = 0 then 0 else if v < 2 ^ (l - 1) then word v else word (v + (2 ^ 64 - 2 ^ l))

/-- bfi (R87). -/
def bfiWord (old x u : Word) : Word := setBits old (fieldOf u).1 (fieldOf u).2 x.toNat

/-! ### 16-bit forms (R41) -/

/-- mov. -/
def execMov16 (d a : BitVec 4) (s : State) : Out := alu16 d a (fun _ y => y) s
/-- addi. -/
def execAddi16 (d : BitVec 4) (i : BitVec 7) (s : State) : Out := alu16 d d (fun x _ => x + i.signExtend 64) s
/-- add. -/
def execAdd16 (d a : BitVec 4) (s : State) : Out := alu16 d a (fun x y => x + y) s
/-- bz. -/
def execBz16 (a : BitVec 4) (o : BitVec 7) (s : State) : Out := branch a.toNat (o.signExtend 64) 2 (fun x => x == 0) false s
/-- bnz. -/
def execBnz16 (a : BitVec 4) (o : BitVec 7) (s : State) : Out := branch a.toNat (o.signExtend 64) 2 (fun x => x != 0) false s
/-- j. -/
def execJ16 (o : BitVec 11) (s : State) : Out := branch 0 (o.signExtend 64) 2 (fun _ => true) false s
/-- The amount of a 16-bit shift: 0 means 32. -/
def amount16 (n : BitVec 5) : Nat := if n = 0 then 32 else n.toNat
/-- shl. -/
def execShl16 (d : BitVec 4) (n : BitVec 5) (s : State) : Out := alu16 d d (fun x _ => x <<< amount16 n) s
/-- shr. -/
def execShr16 (d : BitVec 4) (n : BitVec 5) (s : State) : Out := alu16 d d (fun x _ => x >>> amount16 n) s
/-- sar. -/
def execSar16 (d : BitVec 4) (n : BitVec 5) (s : State) : Out := alu16 d d (fun x _ => x.sshiftRight (amount16 n)) s
/-- ror. -/
def execRor16 (d : BitVec 4) (n : BitVec 5) (s : State) : Out := alu16 d d (fun x _ => ror64 x (amount16 n)) s
/-- cmp.cc. -/
def execCmp16 (d a : BitVec 4) (cc : BitVec 3) (s : State) : Out := alu16 d a (fun x y => flag (compareCc cc.toNat x y)) s
/-- jr, ret. -/
def execJr16 (a : BitVec 4) (s : State) : Out := jumpReg (if a = 0 then 63 else a.toNat) none 2 false s
/-- callr. -/
def execCallr16 (a : BitVec 4) (s : State) : Out := jumpReg (if a = 0 then 63 else a.toNat) (some 63) 2 false s
/-- nop. -/
def execNop (s : State) : Out := s.retire s.me 2 false
/-- fmt (R44): the payload becomes pending; an earlier pending one is discarded with WARN. -/
def execFmt (a b : BitVec 3) (acc sat : Bool) (pl : BitVec 2) (s : State) : Out :=
  let t := s.me
  let p : BitVec 11 := a ++ b ++ bit acc ++ bit sat ++ pl ++ 0#1
  let t' := t.dropPrefix.warn t.pp
  .next (s.commit s.cur { t' with
    tstat := t'.tstat ||| 0x100#64 ||| (p.setWidth 64 <<< 9)
    pc := t.pc + 2
    prog := 0
    stall := none })

/-! ### Major 0x00 (R82) -/

/-- add. -/
def execAdd (d a b : BitVec 6) (s : State) : Out := alu3 d a b (fun x y => x + y) s
/-- sub. -/
def execSub (d a b : BitVec 6) (s : State) : Out := alu3 d a b (fun x y => x - y) s
/-- and. -/
def execAnd (d a b : BitVec 6) (s : State) : Out := alu3 d a b (fun x y => x &&& y) s
/-- or. -/
def execOr (d a b : BitVec 6) (s : State) : Out := alu3 d a b (fun x y => x ||| y) s
/-- xor. -/
def execXor (d a b : BitVec 6) (s : State) : Out := alu3 d a b (fun x y => x ^^^ y) s
/-- andn. -/
def execAndn (d a b : BitVec 6) (s : State) : Out := alu3 d a b (fun x y => x &&& ~~~y) s
/-- orn. -/
def execOrn (d a b : BitVec 6) (s : State) : Out := alu3 d a b (fun x y => x ||| ~~~y) s
/-- xnor. -/
def execXnor (d a b : BitVec 6) (s : State) : Out := alu3 d a b (fun x y => ~~~(x ^^^ y)) s
/-- shl. -/
def execShl (d a b : BitVec 6) (s : State) : Out := alu3 d a b (fun x y => x <<< bits y 0 6) s
/-- shr. -/
def execShr (d a b : BitVec 6) (s : State) : Out := alu3 d a b (fun x y => x >>> bits y 0 6) s
/-- sar. -/
def execSar (d a b : BitVec 6) (s : State) : Out := alu3 d a b (fun x y => x.sshiftRight (bits y 0 6)) s
/-- ror. -/
def execRor (d a b : BitVec 6) (s : State) : Out := alu3 d a b (fun x y => ror64 x (bits y 0 6)) s
/-- shl, immediate. -/
def execShli (d a n : BitVec 6) (s : State) : Out := aluImm d a (fun x => x <<< n.toNat) s
/-- shr, immediate. -/
def execShri (d a n : BitVec 6) (s : State) : Out := aluImm d a (fun x => x >>> n.toNat) s
/-- sar, immediate. -/
def execSari (d a n : BitVec 6) (s : State) : Out := aluImm d a (fun x => x.sshiftRight n.toNat) s
/-- ror, immediate. -/
def execRori (d a n : BitVec 6) (s : State) : Out := aluImm d a (fun x => ror64 x n.toNat) s
/-- add.w. -/
def execAddW (d a b : BitVec 6) (s : State) : Out := alu3 d a b (fun x y => sext32 (x + y)) s
/-- sub.w. -/
def execSubW (d a b : BitVec 6) (s : State) : Out := alu3 d a b (fun x y => sext32 (x - y)) s
/-- shl.w. -/
def execShlW (d a b : BitVec 6) (s : State) : Out := alu3 d a b (fun x y => sext32 (x <<< bits y 0 5)) s
/-- shr.w. -/
def execShrW (d a b : BitVec 6) (s : State) : Out :=
  alu3 d a b (fun x y => (x.setWidth 32 >>> bits y 0 5).signExtend 64) s
/-- sar.w. -/
def execSarW (d a b : BitVec 6) (s : State) : Out :=
  alu3 d a b (fun x y => ((x.setWidth 32).sshiftRight (bits y 0 5)).signExtend 64) s
/-- ror.w. -/
def execRorW (d a b : BitVec 6) (s : State) : Out :=
  alu3 d a b (fun x y => ((x.setWidth 32).rotateRight (bits y 0 5)).signExtend 64) s
/-- add.s. -/
def execAddS (d a b : BitVec 6) (s : State) : Out := alu3 d a b (fun x y => satS64 (x.toInt + y.toInt)) s
/-- sub.s. -/
def execSubS (d a b : BitVec 6) (s : State) : Out := alu3 d a b (fun x y => satS64 (x.toInt - y.toInt)) s
/-- add.us. -/
def execAddUs (d a b : BitVec 6) (s : State) : Out := alu3 d a b (fun x y => satU64 ((x.toNat : Int) + y.toNat)) s
/-- sub.us. -/
def execSubUs (d a b : BitVec 6) (s : State) : Out := alu3 d a b (fun x y => satU64 ((x.toNat : Int) - y.toNat)) s
/-- lea.2. -/
def execLea2 (d a b : BitVec 6) (s : State) : Out := alu3 d a b (fun x y => x + y * 2) s
/-- lea.4. -/
def execLea4 (d a b : BitVec 6) (s : State) : Out := alu3 d a b (fun x y => x + y * 4) s
/-- lea.8. -/
def execLea8 (d a b : BitVec 6) (s : State) : Out := alu3 d a b (fun x y => x + y * 8) s
/-- lea.16. -/
def execLea16 (d a b : BitVec 6) (s : State) : Out := alu3 d a b (fun x y => x + y * 16) s
/-- lea.64. -/
def execLea64 (d a b : BitVec 6) (s : State) : Out := alu3 d a b (fun x y => x + y * 64) s

/-! ### Major 0x01 (R84, R85) -/

/-- mul. -/
def execMul (d a b : BitVec 6) (s : State) : Out := alu3 d a b (fun x y => x * y) s
/-- mulh. -/
def execMulh (d a b : BitVec 6) (s : State) : Out := alu3 d a b (fun x y => BitVec.ofInt 64 (x.toInt * y.toInt / 2 ^ 64)) s
/-- mulhu. -/
def execMulhu (d a b : BitVec 6) (s : State) : Out := alu3 d a b (fun x y => word (x.toNat * y.toNat / 2 ^ 64)) s
/-- mulhsu. -/
def execMulhsu (d a b : BitVec 6) (s : State) : Out := alu3 d a b (fun x y => BitVec.ofInt 64 (x.toInt * y.toNat / 2 ^ 64)) s
/-- mul.w. -/
def execMulW (d a b : BitVec 6) (s : State) : Out := alu3 d a b (fun x y => sext32 (x * y)) s
/-- mul.s. -/
def execMulS (d a b : BitVec 6) (s : State) : Out := alu3 d a b (fun x y => satS64 (x.toInt * y.toInt)) s
/-- div. -/
def execDiv (d a b : BitVec 6) (s : State) : Out := alu3 d a b (fun x y => (divSigned x y).1) s
/-- divu. -/
def execDivu (d a b : BitVec 6) (s : State) : Out := alu3 d a b (fun x y => (divUnsigned x y).1) s
/-- rem. -/
def execRem (d a b : BitVec 6) (s : State) : Out := alu3 d a b (fun x y => (divSigned x y).2) s
/-- remu. -/
def execRemu (d a b : BitVec 6) (s : State) : Out := alu3 d a b (fun x y => (divUnsigned x y).2) s
/-- div.w. -/
def execDivW (d a b : BitVec 6) (s : State) : Out :=
  alu3 d a b (fun x y => (divSigned (x.setWidth 32) (y.setWidth 32)).1.signExtend 64) s
/-- divu.w. -/
def execDivuW (d a b : BitVec 6) (s : State) : Out :=
  alu3 d a b (fun x y => (divUnsigned (x.setWidth 32) (y.setWidth 32)).1.signExtend 64) s
/-- rem.w. -/
def execRemW (d a b : BitVec 6) (s : State) : Out :=
  alu3 d a b (fun x y => (divSigned (x.setWidth 32) (y.setWidth 32)).2.signExtend 64) s
/-- remu.w. -/
def execRemuW (d a b : BitVec 6) (s : State) : Out :=
  alu3 d a b (fun x y => (divUnsigned (x.setWidth 32) (y.setWidth 32)).2.signExtend 64) s

/-! ### Major 0x02 (R86) -/

/-- cmp.cc. -/
def execCmp (d a b : BitVec 6) (cc : BitVec 3) (s : State) : Out := alu3 d a b (fun x y => flag (compareCc cc.toNat x y)) s
/-- min. -/
def execMin (d a b : BitVec 6) (s : State) : Out := alu3 d a b (fun x y => if x.toInt ≤ y.toInt then x else y) s
/-- max. -/
def execMax (d a b : BitVec 6) (s : State) : Out := alu3 d a b (fun x y => if y.toInt ≤ x.toInt then x else y) s
/-- minu. -/
def execMinu (d a b : BitVec 6) (s : State) : Out := alu3 d a b (fun x y => if x.toNat ≤ y.toNat then x else y) s
/-- maxu. -/
def execMaxu (d a b : BitVec 6) (s : State) : Out := alu3 d a b (fun x y => if y.toNat ≤ x.toNat then x else y) s
/-- movz. -/
def execMovz (d a b : BitVec 6) (s : State) : Out := aluRmw d a b (fun old x y => if y = 0 then x else old) s
/-- movnz. -/
def execMovnz (d a b : BitVec 6) (s : State) : Out := aluRmw d a b (fun old x y => if y = 0 then old else x) s

/-! ### Major 0x03 (R87) -/

/-- clz. -/
def execClz (d a b : BitVec 6) (s : State) : Out := alu2 d a b (fun x => word (leadingZeros x 64)) s
/-- ctz. -/
def execCtz (d a b : BitVec 6) (s : State) : Out := alu2 d a b (fun x => word (trailingZeros x 64)) s
/-- popc. -/
def execPopc (d a b : BitVec 6) (s : State) : Out := alu2 d a b (fun x => word (onesCount x 64)) s
/-- rev8. -/
def execRev8 (d a b : BitVec 6) (s : State) : Out := alu2 d a b (fun x => word (revBytes x.toNat 8)) s
/-- rev8.w. -/
def execRev8W (d a b : BitVec 6) (s : State) : Out := alu2 d a b (fun x => word (revBytes (x.toNat % 2 ^ 32) 4)) s
/-- bfx. -/
def execBfx (d a b : BitVec 6) (s : State) : Out := alu3 d a b bfxWord s
/-- bfxs. -/
def execBfxs (d a b : BitVec 6) (s : State) : Out := alu3 d a b bfxsWord s
/-- bfi. -/
def execBfi (d a b : BitVec 6) (s : State) : Out := aluRmw d a b bfiWord s

/-! ### Immediates (R83) and the constant bank (R88) -/

/-- addi. -/
def execAddi (d a : BitVec 6) (i : BitVec 13) (s : State) : Out := aluI d a (i.signExtend 64) 4 (fun x y => x + y) s
/-- addi with a literal. -/
def execAddiLit32 (d a : BitVec 6) (l : Word32) (s : State) : Out := aluI d a (l.signExtend 64) 8 (fun x y => x + y) s
/-- addi with two literals. -/
def execAddiLit64 (d a : BitVec 6) (l : Word) (s : State) : Out := aluI d a l 12 (fun x y => x + y) s
/-- andi. -/
def execAndi (d a : BitVec 6) (i : BitVec 13) (s : State) : Out := aluI d a (i.signExtend 64) 4 (fun x y => x &&& y) s
/-- andi with a literal. -/
def execAndiLit32 (d a : BitVec 6) (l : Word32) (s : State) : Out := aluI d a (l.signExtend 64) 8 (fun x y => x &&& y) s
/-- andi with two literals. -/
def execAndiLit64 (d a : BitVec 6) (l : Word) (s : State) : Out := aluI d a l 12 (fun x y => x &&& y) s
/-- ori. -/
def execOri (d a : BitVec 6) (i : BitVec 13) (s : State) : Out := aluI d a (i.signExtend 64) 4 (fun x y => x ||| y) s
/-- ori with a literal. -/
def execOriLit32 (d a : BitVec 6) (l : Word32) (s : State) : Out := aluI d a (l.signExtend 64) 8 (fun x y => x ||| y) s
/-- ori with two literals. -/
def execOriLit64 (d a : BitVec 6) (l : Word) (s : State) : Out := aluI d a l 12 (fun x y => x ||| y) s
/-- xori. -/
def execXori (d a : BitVec 6) (i : BitVec 13) (s : State) : Out := aluI d a (i.signExtend 64) 4 (fun x y => x ^^^ y) s
/-- xori with a literal. -/
def execXoriLit32 (d a : BitVec 6) (l : Word32) (s : State) : Out := aluI d a (l.signExtend 64) 8 (fun x y => x ^^^ y) s
/-- xori with two literals. -/
def execXoriLit64 (d a : BitVec 6) (l : Word) (s : State) : Out := aluI d a l 12 (fun x y => x ^^^ y) s
/-- movi. -/
def execMovi (d : BitVec 6) (i : BitVec 19) (s : State) : Out :=
  s.issue [gR d] fun t => s.retire (t.wg d.toNat (i.signExtend 64)) 4 false
/-- ldcb (R88): the index wraps within the bank. -/
def execLdcb (d a : BitVec 6) (z : Bool) (n : BitVec 8) (s : State) : Out :=
  s.issue [gR a, gR d] fun t =>
    let c := t.rcb ((t.rg a.toNat + n.setWidth 64).toNat % 256)
    s.retire (t.wg d.toNat (if z then c.setWidth 64 else c.signExtend 64)) 4 false

end Sys2Proof.Machine
end

