-- ==== Sys2Proof/Machine/VectorInt.lean ====
section
/-! DEFINITION. Compares, select and mask logic (R115, R116), conversions and q4 (R117-R121), integer vector arithmetic (R122,
R123), permutes (R124), reductions (R125), approximations (R126, R127) and the moves between register kinds (R128). -/

namespace Sys2Proof.Machine

/-! ### Major 0x17 (R115, R116) -/

/-- The relation of a float compare and its flags (R115). -/
def fcompare (c : Nat) (x y : Nat) : Bool × Nat :=
  let a := f32.value x
  let b := f32.value y
  let nan := a.isNan || b.isNan
  let eq := !nan && !FVal.lt false a b && !FVal.lt false b a
  let sg := a.sig ||| b.sig
  let ordered := if nan then 16 else 0
  match c with
  | 0 => (eq, sg)
  | 1 => (!eq, sg)
  | 2 => (FVal.lt false a b, ordered)
  | 3 => (FVal.lt false a b || eq, ordered)
  | 4 => (FVal.lt false b a, ordered)
  | 5 => (FVal.lt false b a || eq, ordered)
  | _ => (nan, sg)

/-- fcmp.cc: inactive lanes give 0. -/
def execFcmp (f : VF) (c : BitVec 3) (s : State) : Out :=
  s.issue ([.k f.d.toNat, .v f.a.toNat, .k f.k.toNat] ++ f.srcRegs) fun t =>
    let r := lanes.map fun j =>
      if f.active t j then fcompare c.toNat (elem 32 (t.rv f.a.toNat) j) (f.bLane t j) else (false, 0)
    fpComplete s t (r.map (·.2))
      (fun t => t.wk f.d.toNat (BitVec.ofNat 16 (pack 1 (r.map fun x => if x.1 then 1 else 0)))) f.len
      (t.pfxWarn 0 0 false false || f.srcWarn)

/-- The relation of an integer compare (R115). -/
def icompare (c x y : Nat) : Bool :=
  match c with
  | 0 => x == y
  | 1 => x != y
  | 2 => decide (toSigned 32 x < toSigned 32 y)
  | 3 => decide (toSigned 32 x ≤ toSigned 32 y)
  | 4 => decide (x < y)
  | _ => decide (x ≤ y)

/-- icmp.cc. -/
def execIcmp (f : VF) (c : BitVec 3) (s : State) : Out :=
  s.issue ([.k f.d.toNat, .v f.a.toNat, .k f.k.toNat] ++ f.srcRegs) fun t =>
    let r := lanes.map fun j =>
      if f.active t j && icompare c.toNat (elem 32 (t.rv f.a.toNat) j) (f.bLane t j) then 1 else 0
    s.retirePrefixed (t.wk f.d.toNat (BitVec.ofNat 16 (pack 1 r))) f.len (t.pfxWarn 5 5 false false || f.srcWarn)

/-- vsel: the mask selects lanes. -/
def execVsel (f : VF) (s : State) : Out :=
  s.issue f.uses3 fun t =>
    s.retire (t.wv f.d.toNat (vecOf 32 (lanes.map fun j =>
      if f.active t j then f.bLane t j else elem 32 (t.rv f.a.toNat) j))) f.len f.srcWarn

/-- Mask logic: no b operand in the sense of R105, and unmaskable. -/
def maskOp (f : VF) (two : Bool) (op : BitVec 16 → BitVec 16 → BitVec 16) (s : State) : Out :=
  s.issue ([.k f.d.toNat, .k f.a.toNat] ++ (if two then [.k f.b.toNat] else [])) fun t =>
    s.retire (t.wk f.d.toNat (op (t.rk f.a.toNat) (if two then t.rk f.b.toNat else 0))) f.len
      (f.noB || f.k != 0 || (!two && f.b != 0))

/-- kand. -/
def execKand (f : VF) (s : State) : Out := maskOp f true (fun x y => x &&& y) s
/-- kor. -/
def execKor (f : VF) (s : State) : Out := maskOp f true (fun x y => x ||| y) s
/-- kxor. -/
def execKxor (f : VF) (s : State) : Out := maskOp f true (fun x y => x ^^^ y) s
/-- kandn. -/
def execKandn (f : VF) (s : State) : Out := maskOp f true (fun x y => x &&& ~~~y) s
/-- knot. -/
def execKnot (f : VF) (s : State) : Out := maskOp f false (fun x _ => ~~~x) s

/-! ### Major 0x18: conversions (R117, R118) -/

/-- Narrow two binary32 registers into elements j and 16 + j. -/
def narrowTo (F : Fmt) (code : Nat) (f : VF) (s : State) : Out :=
  s.issue f.uses3 fun t =>
    let r := lanes.map fun j =>
      if f.active t j then
        (F.ofVal t.rm (f32.value (elem 32 (t.rv f.a.toNat) j)), F.ofVal t.rm (f32.value (f.bLane t j)))
      else ((elem 16 (t.rv f.d.toNat) j, 0), (elem 16 (t.rv f.d.toNat) (16 + j), 0))
    fpComplete s t (r.map fun x => x.1.2 ||| x.2.2)
      (fun t => t.wv f.d.toNat (vecOf 16 (r.map (·.1.1) ++ r.map (·.2.1)))) f.len
      (t.pfxWarn code 0 false false || f.srcWarn)

/-- fcvt.f16.f32. -/
def execFcvtF16F32 (f : VF) (s : State) : Out := narrowTo f16 2 f s
/-- fcvt.bf16.f32. -/
def execFcvtBf16F32 (f : VF) (s : State) : Out := narrowTo bf16 1 f s

/-- Forms with no b operand: results of lanes from the source register, with flags. -/
def convert (f : VF) (a b : Nat) (unused : Bool) (op : Thread → Nat → Nat × Nat) (s : State) : Out :=
  s.issue f.uses2 fun t =>
    let r := lanes32 f t (op t)
    fpComplete s t (r.map (·.2)) (fun t => t.wv f.d.toNat (vecOf 32 (r.map (·.1)))) f.len
      (t.pfxWarn a b false false || f.noB || unused)

/-- Widen element 16h + j (R63, R117). -/
def widenFrom (F : Fmt) (code : Nat) (f : VF) (s : State) : Out :=
  convert f 0 code false (fun t j => f32.ofVal t.rm (F.value (elem 16 (t.rv f.a.toNat) (16 * (f.b.toNat % 2) + j)))) s

/-- fcvt.f32.f16. -/
def execFcvtF32F16 (f : VF) (s : State) : Out := widenFrom f16 2 f s
/-- fcvt.f32.bf16. -/
def execFcvtF32Bf16 (f : VF) (s : State) : Out := widenFrom bf16 1 f s

/-- binary32 to a 32-bit integer (R64). -/
def toLane (rm : Nat) (lo hi : Int) (x : Nat) : Nat × Nat :=
  let (v, fl) := toInt rm lo hi (f32.value x)
  (ofSigned 32 v, fl)

/-- fcvt.i32.f32. -/
def execFcvtI32F32 (f : VF) (s : State) : Out :=
  convert f 5 0 (f.b != 0) (fun t j => toLane t.rm (-(2 ^ 31)) (2 ^ 31 - 1) (elem 32 (t.rv f.a.toNat) j)) s
/-- fcvt.i32.f32.z. -/
def execFcvtI32F32Z (f : VF) (s : State) : Out :=
  convert f 5 0 (f.b != 0) (fun t j => toLane 1 (-(2 ^ 31)) (2 ^ 31 - 1) (elem 32 (t.rv f.a.toNat) j)) s
/-- fcvt.n32.f32. -/
def execFcvtN32F32 (f : VF) (s : State) : Out :=
  convert f 5 0 (f.b != 0) (fun t j => toLane t.rm 0 (2 ^ 32 - 1) (elem 32 (t.rv f.a.toNat) j)) s
/-- fcvt.n32.f32.z. -/
def execFcvtN32F32Z (f : VF) (s : State) : Out :=
  convert f 5 0 (f.b != 0) (fun t j => toLane 1 0 (2 ^ 32 - 1) (elem 32 (t.rv f.a.toNat) j)) s
/-- fcvt.f32.i32. -/
def execFcvtF32I32 (f : VF) (s : State) : Out :=
  convert f 0 5 (f.b != 0) (fun t j => f32.ofInt t.rm (toSigned 32 (elem 32 (t.rv f.a.toNat) j))) s
/-- fcvt.f32.n32. -/
def execFcvtF32N32 (f : VF) (s : State) : Out :=
  convert f 0 5 (f.b != 0) (fun t j => f32.ofInt t.rm (elem 32 (t.rv f.a.toNat) j)) s

/-- The byte conversions' narrowing: quarter q of vd, bytes of active lanes; clamped with SAT (R118). -/
def vnarrow (f : VF) (lo hi : Int) (s : State) : Out :=
  s.issue f.uses2 fun t =>
    let q := f.b.toNat
    let old := t.rv f.d.toNat
    let byte := fun j =>
      let x := elem 32 (t.rv f.a.toNat) j
      if t.sat then ofSigned 8 (clamp (toSigned 32 x) lo hi) else x % 256
    let out := (List.range 64).map fun i =>
      if i / 16 = q && f.active t (i % 16) then byte (i % 16) else elem 8 old i
    s.retirePrefixed (t.wv f.d.toNat (vecOf 8 out)) f.len (t.pfxWarn 3 5 true false || f.noB)

/-- vnarrow.i8. -/
def execVnarrowI8 (f : VF) (s : State) : Out := vnarrow f (-128) 127 s
/-- vnarrow.n8. -/
def execVnarrowN8 (f : VF) (s : State) : Out := vnarrow f 0 255 s
/-- vwiden.i8. -/
def execVwidenI8 (f : VF) (s : State) : Out :=
  convert f 5 3 false (fun t j => (ofSigned 32 (toSigned 8 (elem 8 (t.rv f.a.toNat) (16 * f.b.toNat + j))), 0)) s
/-- vwiden.n8. -/
def execVwidenN8 (f : VF) (s : State) : Out :=
  convert f 5 3 false (fun t j => (elem 8 (t.rv f.a.toNat) (16 * f.b.toNat + j), 0)) s

/-! ### Major 0x18: q4 (R119-R121) -/

/-- The magnitude of a value against Tmax: y × 2^(32-e) ≤ Tmax. -/
def fitsScale (m : Nat) (g : Int) (e tmax : Nat) : Bool :=
  let x : Int := g + 32 - e
  decide ((m : Int) * 2 ^ (max x 0).toNat ≤ (tmax : Int) * 2 ^ (max (-x) 0).toNat)

/-- The least exponent from e on with every value in range, or 63 (R120). -/
def leastExp (vals : List FVal) (tmax : Nat) : Nat → Nat → Nat
  | 0, _ => 63
  | n + 1, e =>
    let ok := vals.all fun v =>
      match v with
      | .nan _ => true
      | .inf _ => false
      | .fin _ m g => fitsScale m g e tmax
    if ok then e else leastExp vals tmax n (e + 1)

/-- The scale byte that vq4a chooses (R120). -/
def chooseScale (s : Nat) (vals : List FVal) : Nat :=
  let ty := s / 64 % 4
  let tmax := [7, 12, 64, 16].getD ty 0
  let zero := vals.all fun v =>
    match v with
    | .nan _ => true
    | .inf _ => false
    | .fin _ m _ => m == 0
  ty * 64 + (if zero then 0 else leastExp vals tmax 64 0)

/-- Quantize into block q of vd (R119, R120). -/
def quantize (auto : Bool) (f : VF) (q : BitVec 2) (s : State) : Out :=
  s.issue ([.v f.d.toNat, .v f.a.toNat, .x s.me.plane] ++ f.srcRegs) fun t =>
    let vals := (lanes.map fun j => f32.value (elem 32 (t.rv f.a.toNat) j)) ++ lanes.map fun j => f32.value (f.bLane t j)
    let x := t.rx t.plane
    let s0 := bits x (8 * q.toNat) 8
    let sc := if auto then chooseScale s0 vals else s0
    let r := vals.map (q4Encode sc)
    let fl := lanes.map fun j => (r.getD j (0, 0)).2 ||| (r.getD (16 + j) (0, 0)).2
    let write := fun (t : Thread) =>
      let t' := t.wv f.d.toNat (setBits (t.rv f.d.toNat) (128 * q.toNat) 128 (pack 4 (r.map (·.1))))
      if auto then t'.wx t.plane (setBits x (8 * q.toNat) 8 sc) else t'
    fpComplete s t fl write f.len (t.pfxWarn 4 0 false true || f.srcWarn || f.k != 0)

/-- vq4. -/
def execVq4 (f : VF) (q : BitVec 2) (s : State) : Out := quantize false f q s
/-- vq4a. -/
def execVq4a (f : VF) (q : BitVec 2) (s : State) : Out := quantize true f q s

/-- vdq4 (R121): always exact. -/
def execVdq4 (f : VF) (s : State) : Out :=
  s.issue (.x s.me.plane :: f.uses2) fun t =>
    let q := f.b.toNat % 4
    let h := f.b.toNat / 4
    let sc := bits (t.rx t.plane) (8 * q) 8
    let val := fun j =>
      let v := q4Decode (sc / 64) (elem 4 (t.rv f.a.toNat) (32 * q + 16 * h + j))
      (f32.roundInt 0 v ((sc % 64 : Nat) - (32 : Int))).1
    s.retirePrefixed (t.wv f.d.toNat (vecOf 32 (lanes.map fun j =>
      if f.active t j then val j else elem 32 (t.rv f.d.toNat) j))) f.len (t.pfxWarn 0 4 false true || f.noB)

/-! ### Major 0x19 (R122, R123) -/

/-- A lane-wise integer instruction: `op sat a b d`. -/
def iop3 (f : VF) (fa fb : Nat) (satOk : Bool) (op : Bool → Nat → Nat → Nat → Nat) (s : State) : Out :=
  s.issue f.uses3 fun t =>
    let sat := t.sat && satOk
    s.retirePrefixed (t.wv f.d.toNat (vecOf 32 (lanes.map fun j =>
      let d := elem 32 (t.rv f.d.toNat) j
      if f.active t j then op sat (elem 32 (t.rv f.a.toNat) j) (f.bLane t j) d else d))) f.len
      (t.pfxWarn fa fb satOk false || f.srcWarn)

/-- A result wrapped, or clamped to w signed bits with SAT (R54). -/
def wrapSat (w : Nat) (sat : Bool) (x : Int) : Nat :=
  ofSigned w (if sat then clamp x (-(2 ^ (w - 1))) (2 ^ (w - 1) - 1) else x)

/-- An i32 form. -/
def i32op (f : VF) (satOk : Bool) (op : Int → Int → Int) (s : State) : Out :=
  iop3 f 5 5 satOk (fun sat a b _ => wrapSat 32 sat (op (toSigned 32 a) (toSigned 32 b))) s

/-- A form on bit patterns. -/
def n32op (f : VF) (op : Nat → Nat → Nat) (s : State) : Out := iop3 f 5 5 false (fun _ a b _ => op a b) s

/-- vadd. -/
def execVadd (f : VF) (s : State) : Out := i32op f true (fun a b => a + b) s
/-- vsub. -/
def execVsub (f : VF) (s : State) : Out := i32op f true (fun a b => a - b) s
/-- vmul. -/
def execVmul (f : VF) (s : State) : Out := i32op f true (fun a b => a * b) s
/-- vmulh. -/
def execVmulh (f : VF) (s : State) : Out := i32op f false (fun a b => a * b / 2 ^ 32) s
/-- vmin. -/
def execVmin (f : VF) (s : State) : Out := i32op f false (fun a b => min a b) s
/-- vmax. -/
def execVmax (f : VF) (s : State) : Out := i32op f false (fun a b => max a b) s
/-- vminu. -/
def execVminu (f : VF) (s : State) : Out := n32op f (fun a b => min a b) s
/-- vmaxu. -/
def execVmaxu (f : VF) (s : State) : Out := n32op f (fun a b => max a b) s
/-- vand. -/
def execVand (f : VF) (s : State) : Out := n32op f (fun a b => a &&& b) s
/-- vor. -/
def execVor (f : VF) (s : State) : Out := n32op f (fun a b => a ||| b) s
/-- vxor. -/
def execVxor (f : VF) (s : State) : Out := n32op f (fun a b => a ^^^ b) s
/-- vandn. -/
def execVandn (f : VF) (s : State) : Out := n32op f (fun a b => a &&& (b ^^^ (2 ^ 32 - 1))) s
/-- vshl. -/
def execVshl (f : VF) (s : State) : Out := n32op f (fun a b => a * 2 ^ (b % 32)) s
/-- vshr. -/
def execVshr (f : VF) (s : State) : Out := n32op f (fun a b => a / 2 ^ (b % 32)) s
/-- vsar. -/
def execVsar (f : VF) (s : State) : Out :=
  iop3 f 5 5 false (fun _ a b _ => ofSigned 32 (toSigned 32 a / 2 ^ (b % 32))) s

/-- vabs: unary, saturating. -/
def execVabs (f : VF) (s : State) : Out :=
  s.issue f.uses2 fun t =>
    s.retirePrefixed (t.wv f.d.toNat (vecOf 32 (lanes.map fun j =>
      if f.active t j then wrapSat 32 t.sat (toSigned 32 (elem 32 (t.rv f.a.toNat) j)).natAbs
      else elem 32 (t.rv f.d.toNat) j))) f.len (t.pfxWarn 5 5 true false || f.noB || f.b != 0)

/-- An i16 form on elements. -/
def i16op (f : VF) (op : Int → Int → Int) (s : State) : Out :=
  s.issue f.uses3 fun t =>
    s.retirePrefixed (t.wv f.d.toNat (vecOf 16 ((List.range 32).map fun i =>
      if f.active t (i / 2) then
        wrapSat 16 t.sat (op (toSigned 16 (elem 16 (t.rv f.a.toNat) i)) (toSigned 16 (f.bElem t i)))
      else elem 16 (t.rv f.d.toNat) i))) f.len (t.pfxWarn 5 5 true false || f.srcWarn16)

/-- vadd.i16. -/
def execVaddI16 (f : VF) (s : State) : Out := i16op f (fun a b => a + b) s
/-- vsub.i16. -/
def execVsubI16 (f : VF) (s : State) : Out := i16op f (fun a b => a - b) s

/-- A four-way dot product (R123). -/
def dot4 (f : VF) (ea eb : Nat → Int) (s : State) : Out :=
  iop3 f 3 3 true (fun sat a b d =>
    let term := fun i => ea (a / 2 ^ (8 * i) % 256) * eb (b / 2 ^ (8 * i) % 256)
    wrapSat 32 sat (toSigned 32 d + term 0 + term 1 + term 2 + term 3)) s

/-- vdot4.ss. -/
def execVdot4Ss (f : VF) (s : State) : Out := dot4 f (toSigned 8) (toSigned 8) s
/-- vdot4.uu. -/
def execVdot4Uu (f : VF) (s : State) : Out := dot4 f (fun x => x) (fun x => x) s
/-- vdot4.us. -/
def execVdot4Us (f : VF) (s : State) : Out := dot4 f (fun x => x) (toSigned 8) s

/-! ### Major 0x1A (R124) -/

/-- A permute with a b operand: `op s t j` gives lane j. -/
def perm3 (f : VF) (op : (Nat → Nat) → (Nat → Nat) → Nat → Nat) (s : State) : Out :=
  s.issue f.uses3 fun t =>
    s.retire (t.wv f.d.toNat (vecOf 32 (lanes.map fun j =>
      if f.active t j then op (elem 32 (t.rv f.a.toNat)) (f.bLane t) j else elem 32 (t.rv f.d.toNat) j))) f.len f.srcWarn

/-- A permute with no b operand; n is bits 13:10. -/
def perm2 (f : VF) (unused : Bool) (op : (Nat → Nat) → Nat → Nat) (s : State) : Out :=
  s.issue f.uses2 fun t =>
    s.retire (t.wv f.d.toNat (vecOf 32 (lanes.map fun j =>
      if f.active t j then op (elem 32 (t.rv f.a.toNat)) j else elem 32 (t.rv f.d.toNat) j))) f.len (f.noB || unused)

/-- vperm. -/
def execVperm (f : VF) (s : State) : Out := perm3 f (fun x t j => x (t j % 16)) s
/-- vbcast. -/
def execVbcast (f : VF) (s : State) : Out := perm2 f false (fun x _ => x f.b.toNat) s
/-- vslup. -/
def execVslup (f : VF) (s : State) : Out := perm2 f false (fun x j => if f.b.toNat ≤ j then x (j - f.b.toNat) else 0) s
/-- vsldn. -/
def execVsldn (f : VF) (s : State) : Out := perm2 f false (fun x j => if j + f.b.toNat ≤ 15 then x (j + f.b.toNat) else 0) s
/-- vrot. -/
def execVrot (f : VF) (s : State) : Out := perm2 f false (fun x j => x ((j + f.b.toNat) % 16)) s
/-- vrev. -/
def execVrev (f : VF) (s : State) : Out := perm2 f (f.b != 0) (fun x j => x (15 - j)) s
/-- vzip.lo. -/
def execVzipLo (f : VF) (s : State) : Out := perm3 f (fun x t j => if j % 2 = 0 then x (j / 2) else t (j / 2)) s
/-- vzip.hi. -/
def execVzipHi (f : VF) (s : State) : Out := perm3 f (fun x t j => if j % 2 = 0 then x (8 + j / 2) else t (8 + j / 2)) s
/-- vuzp.ev. -/
def execVuzpEv (f : VF) (s : State) : Out := perm3 f (fun x t j => if j ≤ 7 then x (2 * j) else t (2 * (j - 8))) s
/-- vuzp.od. -/
def execVuzpOd (f : VF) (s : State) : Out := perm3 f (fun x t j => if j ≤ 7 then x (2 * j + 1) else t (2 * (j - 8) + 1)) s

/-! ### Major 0x1B (R125) -/

/-- One level of the tree: adjacent values combined. -/
def treeLevel (op : Nat → Nat → Nat × Nat) : List Nat → List Nat × Nat
  | x :: y :: r =>
    let (v, fl) := op x y
    let (vs, fs) := treeLevel op r
    (v :: vs, fl ||| fs)
  | l => (l, 0)

/-- The four levels of the tree. -/
def treeReduce (op : Nat → Nat → Nat × Nat) (l : List Nat) : Nat × Nat :=
  let a := treeLevel op l
  let b := treeLevel op a.1
  let c := treeLevel op b.1
  let d := treeLevel op c.1
  (d.1.headD 0, a.2 ||| b.2 ||| c.2 ||| d.2)

/-- A float reduction (R125). DESIGN CHOICE (log 92): its FP trap reports lane 0 alone, as R60 says of a scalar instruction's single
result; the spec does not say which lanes a reduction reports. -/
def freduce (f : VF) (ident : Nat) (op : Nat → Nat → Nat → Nat × Nat) (s : State) : Out :=
  s.issue f.uses2 fun t =>
    let l := lanes.map fun j => if f.active t j then elem 32 (t.rv f.a.toNat) j else ident
    let r := treeReduce (op t.rm) l
    fpComplete s t [r.2] (fun t => t.wv f.d.toNat (vecOf 32 [r.1])) f.len
      (t.pfxWarn 0 0 false false || f.noB || f.b != 0)

/-- fsum. -/
def execFsum (f : VF) (s : State) : Out := freduce f 0x80000000 (fun rm x y => f32.addBits rm x y) s
/-- fmaxr. -/
def execFmaxr (f : VF) (s : State) : Out := freduce f 0x7FC00000 (fun _ x y => f32.minmax false x y) s
/-- fminr. -/
def execFminr (f : VF) (s : State) : Out := freduce f 0x7FC00000 (fun _ x y => f32.minmax true x y) s

/-- An integer reduction by a fold; only isum is saturating. -/
def ireduce (f : VF) (satOk : Bool) (ident : Int) (read : Nat → Int) (op : Int → Int → Int) (s : State) : Out :=
  s.issue f.uses2 fun t =>
    let l := lanes.map fun j => if f.active t j then read (elem 32 (t.rv f.a.toNat) j) else ident
    let v := l.foldl op ident
    s.retirePrefixed (t.wv f.d.toNat (vecOf 32 [wrapSat 32 (t.sat && satOk) v])) f.len
      (t.pfxWarn 5 5 satOk false || f.noB || f.b != 0)

/-- isum. -/
def execIsum (f : VF) (s : State) : Out := ireduce f true 0 (toSigned 32) (fun x y => x + y) s
/-- imaxr. -/
def execImaxr (f : VF) (s : State) : Out := ireduce f false (-(2 ^ 31)) (toSigned 32) (fun x y => max x y) s
/-- iminr. -/
def execIminr (f : VF) (s : State) : Out := ireduce f false (2 ^ 31 - 1) (toSigned 32) (fun x y => min x y) s
/-- imaxur. -/
def execImaxur (f : VF) (s : State) : Out := ireduce f false 0 (fun x => x) (fun x y => max x y) s
/-- iminur. -/
def execIminur (f : VF) (s : State) : Out := ireduce f false (2 ^ 32 - 1) (fun x => x) (fun x y => min x y) s

/-! ### Major 0x1C (R126, R127) -/

/-- m and E with |x| = m 2^E / 2^23, 2^23 ≤ m < 2^24. -/
def normalize32 (m : Nat) (e : Int) : Nat × Int :=
  let k := 23 - m.log2
  (m * 2 ^ k, e - k + 23)

/-- frcp (R126). -/
def rcp32 (rm : Nat) (x : Nat) : Nat × Nat :=
  match f32.value x with
  | .nan a => (f32.dnan, FVal.sig (.nan a))
  | .inf a => (f32.sign a, 0)
  | .fin a m e =>
    if m = 0 then (f32.infinity a, 8)
    else
      let (n, E) := normalize32 m e
      let i := (n - 2 ^ 23) / 2 ^ 16
      let c := 256 + 2 * i + 1
      let R := (dropBits 0 false (512 * 256 * 2 ^ 20 / c * 2 + (if 512 * 256 * 2 ^ 20 % c = 0 then 0 else 1)) 21).1
      if E ≤ -129 then (f32.infinity a, 5) else f32.round rm a R (-9 - E)

/-- frsqrt (R127). -/
def rsqrt32 (x : Nat) : Nat × Nat :=
  match f32.value x with
  | .nan a => (f32.dnan, FVal.sig (.nan a))
  | .inf a => if a then (f32.dnan, 16) else (0, 0)
  | .fin a m e =>
    if m = 0 then (f32.infinity a, 8)
    else if a then (f32.dnan, 16)
    else
      let (n, E) := normalize32 m e
      let j := (n - 2 ^ 23) / 2 ^ 17
      let odd := E % 2 ≠ 0
      let E' := if odd then E - 1 else E
      let c := (if odd then 2 else 1) * (128 + 2 * j + 1)
      -- 512 ÷ √(c ÷ 128) = √(2^18 × 128 ÷ c); its nearest integer from the square root of 4 × that
      let r := isqrt (4 * 2 ^ 25 / c) 0 12
      f32.round 0 false ((r + 1) / 2) (-9 - E' / 2)

/-- frcp. -/
def execFrcp (f : VF) (s : State) : Out := fop2 f 0 0 (fun rm a => rcp32 rm a) s
/-- frsqrt. -/
def execFrsqrt (f : VF) (s : State) : Out := fop2 f 0 0 (fun _ a => rsqrt32 a) s

/-! ### Major 0x1D (R128) -/

/-- vmov: va is unused. -/
def execVmov (f : VF) (s : State) : Out :=
  s.issue ([.v f.d.toNat, .k f.k.toNat] ++ f.srcRegs) fun t =>
    s.retire (t.wv f.d.toNat (vecOf 32 (lanes.map fun j =>
      if f.active t j then f.bLane t j else elem 32 (t.rv f.d.toNat) j))) f.len (f.srcWarn || f.a != 0)
/-- vmov with a literal. -/
def execVmovLit (d a b : BitVec 5) (k : BitVec 3) (l : Word32) (s : State) : Out :=
  let f : VF := ⟨d, a, b, k, .lit l⟩
  s.issue [.v d.toNat, .k k.toNat] fun t =>
    s.retire (t.wv d.toNat (vecOf 32 (lanes.map fun j =>
      if f.active t j then l.toNat else elem 32 (t.rv d.toNat) j))) 8 (b != 0 || a != 0)
/-- vbcg. -/
def execVbcg (f : VF) (s : State) : Out :=
  s.issue [.v f.d.toNat, .k f.k.toNat, .g f.a.toNat] fun t =>
    let x := bits (t.rg f.a.toNat) 0 32
    s.retire (t.wv f.d.toNat (vecOf 32 (lanes.map fun j =>
      if f.active t j then x else elem 32 (t.rv f.d.toNat) j))) f.len (f.noB || f.b != 0)
/-- vins. DEDUCED (log 91): g[a] is read through the va field, and n through vb, as the table says; the sentence that calls va unused is
not followed for the forms that read it. -/
def execVins (f : VF) (s : State) : Out :=
  s.issue [.v f.d.toNat, .g f.a.toNat] fun t =>
    s.retire (t.wv f.d.toNat (setBits (t.rv f.d.toNat) (32 * f.b.toNat) 32 (bits (t.rg f.a.toNat) 0 32))) f.len
      (f.noB || f.k != 0)
/-- Lane n of va into a general register; va is used (log 91). -/
def extractLane (f : VF) (ext : Word32 → Word) (s : State) : Out :=
  s.issue [.g f.d.toNat, .v f.a.toNat] fun t =>
    s.retire (t.wg f.d.toNat (ext (BitVec.ofNat 32 (elem 32 (t.rv f.a.toNat) f.b.toNat)))) f.len (f.noB || f.k != 0)
/-- vext. -/
def execVext (f : VF) (s : State) : Out := extractLane f (fun x => x.signExtend 64) s
/-- vextu. -/
def execVextu (f : VF) (s : State) : Out := extractLane f (fun x => x.setWidth 64) s
/-- kmovg. -/
def execKmovg (f : VF) (s : State) : Out :=
  s.issue [.g f.d.toNat, .k f.a.toNat] fun t =>
    s.retire (t.wg f.d.toNat ((t.rk f.a.toNat).setWidth 64)) f.len (f.noB || f.k != 0 || f.b != 0)
/-- kmovk. -/
def execKmovk (f : VF) (s : State) : Out :=
  s.issue [.k f.d.toNat, .g f.a.toNat] fun t =>
    s.retire (t.wk f.d.toNat ((t.rg f.a.toNat).setWidth 16)) f.len (f.noB || f.k != 0 || f.b != 0)

end Sys2Proof.Machine
end

