-- ==== Sys2Proof/Machine/Dispatch.lean ====
section
/-! DEFINITION. One arm for each instruction and event: its meaning. -/

namespace Sys2Proof.Machine

/-- The meaning of an instruction of the running thread, or of an event of the package. -/
def exec (i : Instr) (s : State) : Host.Outcome State Fault Refusal :=
  match i with
  | .mov16 d a => Sys2Proof.Machine.execMov16 d a s
  | .addi16 d im => Sys2Proof.Machine.execAddi16 d im s
  | .add16 d a => Sys2Proof.Machine.execAdd16 d a s
  | .ldD16 d a o => Sys2Proof.Machine.execLdD16 d a o s
  | .stD16 d a o => Sys2Proof.Machine.execStD16 d a o s
  | .bz16 a o => Sys2Proof.Machine.execBz16 a o s
  | .bnz16 a o => Sys2Proof.Machine.execBnz16 a o s
  | .j16 o => Sys2Proof.Machine.execJ16 o s
  | .shl16 d n => Sys2Proof.Machine.execShl16 d n s
  | .shr16 d n => Sys2Proof.Machine.execShr16 d n s
  | .sar16 d n => Sys2Proof.Machine.execSar16 d n s
  | .ror16 d n => Sys2Proof.Machine.execRor16 d n s
  | .cmp16 d a cc => Sys2Proof.Machine.execCmp16 d a cc s
  | .wait16 m n => Sys2Proof.Machine.execWait16 m n s
  | .jr16 a => Sys2Proof.Machine.execJr16 a s
  | .callr16 a => Sys2Proof.Machine.execCallr16 a s
  | .nop => Sys2Proof.Machine.execNop s
  | .fmt a b acc sat pl => Sys2Proof.Machine.execFmt a b acc sat pl s
  | .add d a b => Sys2Proof.Machine.execAdd d a b s
  | .sub d a b => Sys2Proof.Machine.execSub d a b s
  | .and d a b => Sys2Proof.Machine.execAnd d a b s
  | .or d a b => Sys2Proof.Machine.execOr d a b s
  | .xor d a b => Sys2Proof.Machine.execXor d a b s
  | .andn d a b => Sys2Proof.Machine.execAndn d a b s
  | .orn d a b => Sys2Proof.Machine.execOrn d a b s
  | .xnor d a b => Sys2Proof.Machine.execXnor d a b s
  | .shl d a b => Sys2Proof.Machine.execShl d a b s
  | .shr d a b => Sys2Proof.Machine.execShr d a b s
  | .sar d a b => Sys2Proof.Machine.execSar d a b s
  | .ror d a b => Sys2Proof.Machine.execRor d a b s
  | .shli d a n => Sys2Proof.Machine.execShli d a n s
  | .shri d a n => Sys2Proof.Machine.execShri d a n s
  | .sari d a n => Sys2Proof.Machine.execSari d a n s
  | .rori d a n => Sys2Proof.Machine.execRori d a n s
  | .addW d a b => Sys2Proof.Machine.execAddW d a b s
  | .subW d a b => Sys2Proof.Machine.execSubW d a b s
  | .shlW d a b => Sys2Proof.Machine.execShlW d a b s
  | .shrW d a b => Sys2Proof.Machine.execShrW d a b s
  | .sarW d a b => Sys2Proof.Machine.execSarW d a b s
  | .rorW d a b => Sys2Proof.Machine.execRorW d a b s
  | .addS d a b => Sys2Proof.Machine.execAddS d a b s
  | .subS d a b => Sys2Proof.Machine.execSubS d a b s
  | .addUs d a b => Sys2Proof.Machine.execAddUs d a b s
  | .subUs d a b => Sys2Proof.Machine.execSubUs d a b s
  | .lea2 d a b => Sys2Proof.Machine.execLea2 d a b s
  | .lea4 d a b => Sys2Proof.Machine.execLea4 d a b s
  | .lea8 d a b => Sys2Proof.Machine.execLea8 d a b s
  | .lea16 d a b => Sys2Proof.Machine.execLea16 d a b s
  | .lea64 d a b => Sys2Proof.Machine.execLea64 d a b s
  | .mul d a b => Sys2Proof.Machine.execMul d a b s
  | .mulh d a b => Sys2Proof.Machine.execMulh d a b s
  | .mulhu d a b => Sys2Proof.Machine.execMulhu d a b s
  | .mulhsu d a b => Sys2Proof.Machine.execMulhsu d a b s
  | .mulW d a b => Sys2Proof.Machine.execMulW d a b s
  | .mulS d a b => Sys2Proof.Machine.execMulS d a b s
  | .div d a b => Sys2Proof.Machine.execDiv d a b s
  | .divu d a b => Sys2Proof.Machine.execDivu d a b s
  | .rem d a b => Sys2Proof.Machine.execRem d a b s
  | .remu d a b => Sys2Proof.Machine.execRemu d a b s
  | .divW d a b => Sys2Proof.Machine.execDivW d a b s
  | .divuW d a b => Sys2Proof.Machine.execDivuW d a b s
  | .remW d a b => Sys2Proof.Machine.execRemW d a b s
  | .remuW d a b => Sys2Proof.Machine.execRemuW d a b s
  | .cmp d a b cc => Sys2Proof.Machine.execCmp d a b cc s
  | .min d a b => Sys2Proof.Machine.execMin d a b s
  | .max d a b => Sys2Proof.Machine.execMax d a b s
  | .minu d a b => Sys2Proof.Machine.execMinu d a b s
  | .maxu d a b => Sys2Proof.Machine.execMaxu d a b s
  | .movz d a b => Sys2Proof.Machine.execMovz d a b s
  | .movnz d a b => Sys2Proof.Machine.execMovnz d a b s
  | .clz d a b => Sys2Proof.Machine.execClz d a b s
  | .ctz d a b => Sys2Proof.Machine.execCtz d a b s
  | .popc d a b => Sys2Proof.Machine.execPopc d a b s
  | .rev8 d a b => Sys2Proof.Machine.execRev8 d a b s
  | .rev8W d a b => Sys2Proof.Machine.execRev8W d a b s
  | .bfx d a b => Sys2Proof.Machine.execBfx d a b s
  | .bfxs d a b => Sys2Proof.Machine.execBfxs d a b s
  | .bfi d a b => Sys2Proof.Machine.execBfi d a b s
  | .addi d a im => Sys2Proof.Machine.execAddi d a im s
  | .addiLit32 d a l => Sys2Proof.Machine.execAddiLit32 d a l s
  | .addiLit64 d a l => Sys2Proof.Machine.execAddiLit64 d a l s
  | .andi d a im => Sys2Proof.Machine.execAndi d a im s
  | .andiLit32 d a l => Sys2Proof.Machine.execAndiLit32 d a l s
  | .andiLit64 d a l => Sys2Proof.Machine.execAndiLit64 d a l s
  | .ori d a im => Sys2Proof.Machine.execOri d a im s
  | .oriLit32 d a l => Sys2Proof.Machine.execOriLit32 d a l s
  | .oriLit64 d a l => Sys2Proof.Machine.execOriLit64 d a l s
  | .xori d a im => Sys2Proof.Machine.execXori d a im s
  | .xoriLit32 d a l => Sys2Proof.Machine.execXoriLit32 d a l s
  | .xoriLit64 d a l => Sys2Proof.Machine.execXoriLit64 d a l s
  | .ldcb d a z n => Sys2Proof.Machine.execLdcb d a z n s
  | .movi d im => Sys2Proof.Machine.execMovi d im s
  | .bz a o => Sys2Proof.Machine.execBz a o s
  | .bnz a o => Sys2Proof.Machine.execBnz a o s
  | .bltz a o => Sys2Proof.Machine.execBltz a o s
  | .bgez a o => Sys2Proof.Machine.execBgez a o s
  | .blez a o => Sys2Proof.Machine.execBlez a o s
  | .bgtz a o => Sys2Proof.Machine.execBgtz a o s
  | .br a o => Sys2Proof.Machine.execBr a o s
  | .j o => Sys2Proof.Machine.execJ o s
  | .call o => Sys2Proof.Machine.execCall o s
  | .jr d a b => Sys2Proof.Machine.execJr d a b s
  | .callr d a b => Sys2Proof.Machine.execCallr d a b s
  | .getpc d a b => Sys2Proof.Machine.execGetpc d a b s
  | .rdctl d a n => Sys2Proof.Machine.execRdctl d a n s
  | .wrctl d a n => Sys2Proof.Machine.execWrctl d a n s
  | .setctl d a n => Sys2Proof.Machine.execSetctl d a n s
  | .clrctl d a n => Sys2Proof.Machine.execClrctl d a n s
  | .wait d a b ot => Sys2Proof.Machine.execWait d a b ot s
  | .trapi d a b => Sys2Proof.Machine.execTrapi d a b s
  | .brk d a b => Sys2Proof.Machine.execBrk d a b s
  | .tret d a b => Sys2Proof.Machine.execTret d a b s
  | .ifence d a b => Sys2Proof.Machine.execIfence d a b s
  | .idle d a b => Sys2Proof.Machine.execIdle d a b s
  | .movx d x im => Sys2Proof.Machine.execMovx d x im s
  | .movg d x im => Sys2Proof.Machine.execMovg d x im s
  | .ldx d x im => Sys2Proof.Machine.execLdx d x im s
  | .addx d x im => Sys2Proof.Machine.execAddx d x im s
  | .fadd f => Sys2Proof.Machine.execFadd f s
  | .fsub f => Sys2Proof.Machine.execFsub f s
  | .fmul f => Sys2Proof.Machine.execFmul f s
  | .fdiv f => Sys2Proof.Machine.execFdiv f s
  | .fsqrt f => Sys2Proof.Machine.execFsqrt f s
  | .fmin f => Sys2Proof.Machine.execFmin f s
  | .fmax f => Sys2Proof.Machine.execFmax f s
  | .fabs f => Sys2Proof.Machine.execFabs f s
  | .fneg f => Sys2Proof.Machine.execFneg f s
  | .fsgn f => Sys2Proof.Machine.execFsgn f s
  | .fround f => Sys2Proof.Machine.execFround f s
  | .fmac f => Sys2Proof.Machine.execFmac f s
  | .fmsc f => Sys2Proof.Machine.execFmsc f s
  | .fnmac f => Sys2Proof.Machine.execFnmac f s
  | .fnmsc f => Sys2Proof.Machine.execFnmsc f s
  | .fmah f => Sys2Proof.Machine.execFmah f s
  | .fmahLit d a b k l => Sys2Proof.Machine.execFmahLit d a b k l s
  | .fmsh f => Sys2Proof.Machine.execFmsh f s
  | .fnmah f => Sys2Proof.Machine.execFnmah f s
  | .fnmsh f => Sys2Proof.Machine.execFnmsh f s
  | .fadd16 f bf => Sys2Proof.Machine.execFadd16 f bf s
  | .fsub16 f bf => Sys2Proof.Machine.execFsub16 f bf s
  | .fmul16 f bf => Sys2Proof.Machine.execFmul16 f bf s
  | .fmin16 f bf => Sys2Proof.Machine.execFmin16 f bf s
  | .fmax16 f bf => Sys2Proof.Machine.execFmax16 f bf s
  | .fmac16 f bf => Sys2Proof.Machine.execFmac16 f bf s
  | .fnmac16 f bf => Sys2Proof.Machine.execFnmac16 f bf s
  | .fmah16 f bf => Sys2Proof.Machine.execFmah16 f bf s
  | .vmovImm d im => Sys2Proof.Machine.execVmovImm d im s
  | .fmahImm d im => Sys2Proof.Machine.execFmahImm d im s
  | .fcmp f c => Sys2Proof.Machine.execFcmp f c s
  | .icmp f c => Sys2Proof.Machine.execIcmp f c s
  | .vsel f => Sys2Proof.Machine.execVsel f s
  | .kand f => Sys2Proof.Machine.execKand f s
  | .kor f => Sys2Proof.Machine.execKor f s
  | .kxor f => Sys2Proof.Machine.execKxor f s
  | .kandn f => Sys2Proof.Machine.execKandn f s
  | .knot f => Sys2Proof.Machine.execKnot f s
  | .fcvtF16F32 f => Sys2Proof.Machine.execFcvtF16F32 f s
  | .fcvtBf16F32 f => Sys2Proof.Machine.execFcvtBf16F32 f s
  | .fcvtF32F16 f => Sys2Proof.Machine.execFcvtF32F16 f s
  | .fcvtF32Bf16 f => Sys2Proof.Machine.execFcvtF32Bf16 f s
  | .fcvtI32F32 f => Sys2Proof.Machine.execFcvtI32F32 f s
  | .fcvtI32F32Z f => Sys2Proof.Machine.execFcvtI32F32Z f s
  | .fcvtN32F32 f => Sys2Proof.Machine.execFcvtN32F32 f s
  | .fcvtN32F32Z f => Sys2Proof.Machine.execFcvtN32F32Z f s
  | .fcvtF32I32 f => Sys2Proof.Machine.execFcvtF32I32 f s
  | .fcvtF32N32 f => Sys2Proof.Machine.execFcvtF32N32 f s
  | .vnarrowI8 f => Sys2Proof.Machine.execVnarrowI8 f s
  | .vnarrowN8 f => Sys2Proof.Machine.execVnarrowN8 f s
  | .vwidenI8 f => Sys2Proof.Machine.execVwidenI8 f s
  | .vwidenN8 f => Sys2Proof.Machine.execVwidenN8 f s
  | .vq4 f q => Sys2Proof.Machine.execVq4 f q s
  | .vq4a f q => Sys2Proof.Machine.execVq4a f q s
  | .vdq4 f => Sys2Proof.Machine.execVdq4 f s
  | .vadd f => Sys2Proof.Machine.execVadd f s
  | .vsub f => Sys2Proof.Machine.execVsub f s
  | .vmul f => Sys2Proof.Machine.execVmul f s
  | .vmulh f => Sys2Proof.Machine.execVmulh f s
  | .vmin f => Sys2Proof.Machine.execVmin f s
  | .vmax f => Sys2Proof.Machine.execVmax f s
  | .vminu f => Sys2Proof.Machine.execVminu f s
  | .vmaxu f => Sys2Proof.Machine.execVmaxu f s
  | .vand f => Sys2Proof.Machine.execVand f s
  | .vor f => Sys2Proof.Machine.execVor f s
  | .vxor f => Sys2Proof.Machine.execVxor f s
  | .vandn f => Sys2Proof.Machine.execVandn f s
  | .vshl f => Sys2Proof.Machine.execVshl f s
  | .vshr f => Sys2Proof.Machine.execVshr f s
  | .vsar f => Sys2Proof.Machine.execVsar f s
  | .vabs f => Sys2Proof.Machine.execVabs f s
  | .vaddI16 f => Sys2Proof.Machine.execVaddI16 f s
  | .vsubI16 f => Sys2Proof.Machine.execVsubI16 f s
  | .vdot4Ss f => Sys2Proof.Machine.execVdot4Ss f s
  | .vdot4Uu f => Sys2Proof.Machine.execVdot4Uu f s
  | .vdot4Us f => Sys2Proof.Machine.execVdot4Us f s
  | .vperm f => Sys2Proof.Machine.execVperm f s
  | .vbcast f => Sys2Proof.Machine.execVbcast f s
  | .vslup f => Sys2Proof.Machine.execVslup f s
  | .vsldn f => Sys2Proof.Machine.execVsldn f s
  | .vrot f => Sys2Proof.Machine.execVrot f s
  | .vrev f => Sys2Proof.Machine.execVrev f s
  | .vzipLo f => Sys2Proof.Machine.execVzipLo f s
  | .vzipHi f => Sys2Proof.Machine.execVzipHi f s
  | .vuzpEv f => Sys2Proof.Machine.execVuzpEv f s
  | .vuzpOd f => Sys2Proof.Machine.execVuzpOd f s
  | .fsum f => Sys2Proof.Machine.execFsum f s
  | .fmaxr f => Sys2Proof.Machine.execFmaxr f s
  | .fminr f => Sys2Proof.Machine.execFminr f s
  | .isum f => Sys2Proof.Machine.execIsum f s
  | .imaxr f => Sys2Proof.Machine.execImaxr f s
  | .iminr f => Sys2Proof.Machine.execIminr f s
  | .imaxur f => Sys2Proof.Machine.execImaxur f s
  | .iminur f => Sys2Proof.Machine.execIminur f s
  | .frcp f => Sys2Proof.Machine.execFrcp f s
  | .frsqrt f => Sys2Proof.Machine.execFrsqrt f s
  | .vmov f => Sys2Proof.Machine.execVmov f s
  | .vmovLit d a b k l => Sys2Proof.Machine.execVmovLit d a b k l s
  | .vbcg f => Sys2Proof.Machine.execVbcg f s
  | .vins f => Sys2Proof.Machine.execVins f s
  | .vext f => Sys2Proof.Machine.execVext f s
  | .vextu f => Sys2Proof.Machine.execVextu f s
  | .kmovg f => Sys2Proof.Machine.execKmovg f s
  | .kmovk f => Sys2Proof.Machine.execKmovk f s
  | .ld d b sz w o => Sys2Proof.Machine.execLd d b sz w o s
  | .ldV d b w o => Sys2Proof.Machine.execLdV d b w o s
  | .ldu d b sz w o => Sys2Proof.Machine.execLdu d b sz w o s
  | .st d b sz w o => Sys2Proof.Machine.execSt d b sz w o s
  | .stV d b w o => Sys2Proof.Machine.execStV d b w o s
  | .ldw d b sz w o => Sys2Proof.Machine.execLdw d b sz w o s
  | .ldwV d b w o => Sys2Proof.Machine.execLdwV d b w o s
  | .ldc d b sz w o => Sys2Proof.Machine.execLdc d b sz w o s
  | .ldcV d b w o => Sys2Proof.Machine.execLdcV d b w o s
  | .vgather f n => Sys2Proof.Machine.execVgather f n s
  | .vscatter f n => Sys2Proof.Machine.execVscatter f n s
  | .wmerge d a b => Sys2Proof.Machine.execWmerge d a b s
  | .wmovg d a b => Sys2Proof.Machine.execWmovg d a b s
  | .wmovw d a b => Sys2Proof.Machine.execWmovw d a b s
  | .wwait d a b => Sys2Proof.Machine.execWwait d a b s
  | .wfence d a b => Sys2Proof.Machine.execWfence d a b s
  | .wtest d a b => Sys2Proof.Machine.execWtest d a b s
  | .amoSwap d b dw w win => Sys2Proof.Machine.execAmoSwap d b dw w win s
  | .amoCas d b dw w win => Sys2Proof.Machine.execAmoCas d b dw w win s
  | .amoAdd d b dw w win => Sys2Proof.Machine.execAmoAdd d b dw w win s
  | .amoAnd d b dw w win => Sys2Proof.Machine.execAmoAnd d b dw w win s
  | .amoOr d b dw w win => Sys2Proof.Machine.execAmoOr d b dw w win s
  | .amoXor d b dw w win => Sys2Proof.Machine.execAmoXor d b dw w win s
  | .amoMin d b dw w win => Sys2Proof.Machine.execAmoMin d b dw w win s
  | .amoMax d b dw w win => Sys2Proof.Machine.execAmoMax d b dw w win s
  | .amoMinu d b dw w win => Sys2Proof.Machine.execAmoMinu d b dw w win s
  | .amoMaxu d b dw w win => Sys2Proof.Machine.execAmoMaxu d b dw w win s
  | .amoFadd d b w win => Sys2Proof.Machine.execAmoFadd d b w win s
  | .dtake d a b => Sys2Proof.Machine.execDtake d a b s
  | .dtakeTry d a b => Sys2Proof.Machine.execDtakeTry d a b s
  | .dfree d a b => Sys2Proof.Machine.execDfree d a b s
  | .dclaim d a b => Sys2Proof.Machine.execDclaim d a b s
  | .dclaimTry d a b => Sys2Proof.Machine.execDclaimTry d a b s
  | .dpost d a b => Sys2Proof.Machine.execDpost d a b s
  | .dprobe d a b => Sys2Proof.Machine.execDprobe d a b s
  | .rrot d a b => Sys2Proof.Machine.execRrot d a b s
  | .rrotDn d a b => Sys2Proof.Machine.execRrotDn d a b s
  | .pfRc d a b => Sys2Proof.Machine.execPfRc d a b s
  | .pfL2 d a b => Sys2Proof.Machine.execPfL2 d a b s
  | .rcinv d a b => Sys2Proof.Machine.execRcinv d a b s
  | .rcinvAll d a b => Sys2Proof.Machine.execRcinvAll d a b s
  | .spawn d a b => Sys2Proof.Machine.execSpawn d a b s
  | .join d a b => Sys2Proof.Machine.execJoin d a b s
  | .yield d a b => Sys2Proof.Machine.execYield d a b s
  | .exit d a b => Sys2Proof.Machine.execExit d a b s
  | .send d a b => Sys2Proof.Machine.execSend d a b s
  | .sendTry d a b => Sys2Proof.Machine.execSendTry d a b s
  | .recv d a b => Sys2Proof.Machine.execRecv d a b s
  | .tbset d a b => Sys2Proof.Machine.execTbset d a b s
  | .tbclr d a b => Sys2Proof.Machine.execTbclr d a b s
  | .tbrd d a b => Sys2Proof.Machine.execTbrd d a b s
  | .cancel d a b => Sys2Proof.Machine.execCancel d a b s
  | .ccheck d a b => Sys2Proof.Machine.execCcheck d a b s
  | .ccheckX d a b => Sys2Proof.Machine.execCcheckX d a b s
  | .bbar d a b => Sys2Proof.Machine.execBbar d a b s
  | .mbar d a b => Sys2Proof.Machine.execMbar d a b s
  | .sigb d a b => Sys2Proof.Machine.execSigb d a b s
  | .swait d a b => Sys2Proof.Machine.execSwait d a b s
  | .rgen d a b => Sys2Proof.Machine.execRgen d a b s
  | .cwait d a b => Sys2Proof.Machine.execCwait d a b s
  | .rdcyc d a b => Sys2Proof.Machine.execRdcyc d a b s
  | .hwait d a b => Sys2Proof.Machine.execHwait d a b s
  | .rdhor d a b => Sys2Proof.Machine.execRdhor d a b s
  | .rdvis d a b => Sys2Proof.Machine.execRdvis d a b s
  | .stset d a b => Sys2Proof.Machine.execStset d a b s
  | .stchk d a b => Sys2Proof.Machine.execStchk d a b s
  | .stchkX d a b => Sys2Proof.Machine.execStchkX d a b s
  | .tsmin d a b => Sys2Proof.Machine.execTsmin d a b s
  | .tsrd d a b => Sys2Proof.Machine.execTsrd d a b s
  | .pub d a b => Sys2Proof.Machine.execPub d a b s
  | .cq d x => Sys2Proof.Machine.execCq d x s
  | .cqTry d x => Sys2Proof.Machine.execCqTry d x s
  | .copy d x det q => Sys2Proof.Machine.execCopy d x det q s
  | .copyRed d x det q rop => Sys2Proof.Machine.execCopyRed d x det q rop s
  | .copyMc d x det q => Sys2Proof.Machine.execCopyMc d x det q s
  | .bwl d x g q slot det => Sys2Proof.Machine.execBwl d x g q slot det s
  | .bmm d x g q slot tile det => Sys2Proof.Machine.execBmm d x g q slot tile det s
  | .bdr d x g q clr raw tile mode det => Sys2Proof.Machine.execBdr d x g q clr raw tile mode det s
  | .bclr d x g q clr raw tile mode det => Sys2Proof.Machine.execBclr d x g q clr raw tile mode det s
  | .twait d a b => Sys2Proof.Machine.execTwait d a b s
  | .twaitS d a b => Sys2Proof.Machine.execTwaitS d a b s
  | .tpoll d a b => Sys2Proof.Machine.execTpoll d a b s
  | .tcancel d a b => Sys2Proof.Machine.execTcancel d a b s
  | .tdet d a b => Sys2Proof.Machine.execTdet d a b s
  | .tadopt d a b => Sys2Proof.Machine.execTadopt d a b s
  | .tpri d a b => Sys2Proof.Machine.execTpri d a b s
  | .qfence d a b => Sys2Proof.Machine.execQfence d a b s
  | .tfrec d a n => Sys2Proof.Machine.execTfrec d a n s
  | .accessAtHome id ages => Sys2Proof.Machine.execAccessAtHome id ages s
  | .loadReply id => Sys2Proof.Machine.execLoadReply id s
  | .witnessReturn id => Sys2Proof.Machine.execWitnessReturn id s
  | .drawerEnable core n => Sys2Proof.Machine.execDrawerEnable core n s
  | .drawerDisable core n => Sys2Proof.Machine.execDrawerDisable core n s
  | .stampRegionWrite tenant region word v => Sys2Proof.Machine.execStampRegionWrite tenant region word v s
  | .commandEnqueue core => Sys2Proof.Machine.execCommandEnqueue core s
  | .copyDescRead op => Sys2Proof.Machine.execCopyDescRead op s
  | .leaveGrant die => Sys2Proof.Machine.execLeaveGrant die s
  | .opStart bench engine => Sys2Proof.Machine.execOpStart bench engine s
  | .copyChunk op => Sys2Proof.Machine.execCopyChunk op s
  | .reduceApply op line => Sys2Proof.Machine.execReduceApply op line s
  | .applyRetry op line => Sys2Proof.Machine.execApplyRetry op line s
  | .chunkClose op => Sys2Proof.Machine.execChunkClose op s
  | .copyClaimResume op => Sys2Proof.Machine.execCopyClaimResume op s
  | .berylOpComplete op => Sys2Proof.Machine.execBerylOpComplete op s
  | .opEnd op => Sys2Proof.Machine.execOpEnd op s
  | .engineStarved t => Sys2Proof.Machine.execEngineStarved t s
  | .spawnStarved t => Sys2Proof.Machine.execSpawnStarved t s
  | .idleTimeout t => Sys2Proof.Machine.execIdleTimeout t s
  | .interrupt t => Sys2Proof.Machine.execInterrupt t s
  | .hostDoorbell tenant t => Sys2Proof.Machine.execHostDoorbell tenant t s
  | .taskFail t => Sys2Proof.Machine.execTaskFail t s
  | .preempt t => Sys2Proof.Machine.execPreempt t s
  | .threadDispatch core => Sys2Proof.Machine.execThreadDispatch core s
  | .traceSample t => Sys2Proof.Machine.execTraceSample t s
  | .candidateForward core slot thief => Sys2Proof.Machine.execCandidateForward core slot thief s
  | .thiefStart core => Sys2Proof.Machine.execThiefStart core s
  | .stealRequest core => Sys2Proof.Machine.execStealRequest core s
  | .stealWithdraw core => Sys2Proof.Machine.execStealWithdraw core s
  | .thiefBackoffEnd core => Sys2Proof.Machine.execThiefBackoffEnd core s
  | .candidateAgeing core slot => Sys2Proof.Machine.execCandidateAgeing core slot s
  | .messageArrival id => Sys2Proof.Machine.execMessageArrival id s
  | .cancelBroadcast tenant job bench => Sys2Proof.Machine.execCancelBroadcast tenant job bench s
  | .signalAdd id => Sys2Proof.Machine.execSignalAdd id s
  | .launchRecord tenant window offset bytes => Sys2Proof.Machine.execLaunchRecord tenant window offset bytes s
  | .badlnchClear tenant window => Sys2Proof.Machine.execBadlnchClear tenant window s
  | .hostAnswer tenant seq answer => Sys2Proof.Machine.execHostAnswer tenant seq answer s
  | .configMailboxRequest r => Sys2Proof.Machine.execConfigMailboxRequest r s
  | .hostImageAccess tenant offset len data => Sys2Proof.Machine.execHostImageAccess tenant offset len data s
  | .releaseBufferSend => Sys2Proof.Machine.execReleaseBufferSend s
  | .pageMapped req => Sys2Proof.Machine.execPageMapped req s
  | .pageRefused req => Sys2Proof.Machine.execPageRefused req s
  | .shootdown tenant va len => Sys2Proof.Machine.execShootdown tenant va len s
  | .spareShelfMove tenant va core im => Sys2Proof.Machine.execSpareShelfMove tenant va core im s
  | .migrationMove tenant va => Sys2Proof.Machine.execMigrationMove tenant va s
  | .settleExpiry tenant va => Sys2Proof.Machine.execSettleExpiry tenant va s
  | .epochAdvance => Sys2Proof.Machine.execEpochAdvance s
  | .visibilityPublish => Sys2Proof.Machine.execVisibilityPublish s
  | .horizonPublish bench => Sys2Proof.Machine.execHorizonPublish bench s
  | .cycleStart n => Sys2Proof.Machine.execCycleStart n s
  | .frameIngress f => Sys2Proof.Machine.execFrameIngress f s
  | .pubCutoff n => Sys2Proof.Machine.execPubCutoff n s
  | .publishInstant n => Sys2Proof.Machine.execPublishInstant n s
  | .timeCorrection ns => Sys2Proof.Machine.execTimeCorrection ns s
  | .holdoverEntry => Sys2Proof.Machine.execHoldoverEntry s
  | .classStart n v => Sys2Proof.Machine.execClassStart n v s
  | .classStop n => Sys2Proof.Machine.execClassStop n s
  | .budgetExhausted tenant entry => Sys2Proof.Machine.execBudgetExhausted tenant entry s
  | .budgetGraceEnd t => Sys2Proof.Machine.execBudgetGraceEnd t s
  | .recoveryMarkOpen => Sys2Proof.Machine.execRecoveryMarkOpen s
  | .recoveryMarkClose => Sys2Proof.Machine.execRecoveryMarkClose s
  | .markHoldTimeout => Sys2Proof.Machine.execMarkHoldTimeout s
  | .machineCheck addr => Sys2Proof.Machine.execMachineCheck addr s
  | .pairWrite v => Sys2Proof.Machine.execPairWrite v s
  | .logFlit h es => Sys2Proof.Machine.execLogFlit h es s
  | .progFlit h ts => Sys2Proof.Machine.execProgFlit h ts s
  | .ackFlit h pos => Sys2Proof.Machine.execAckFlit h pos s
  | .heartFlit h b => Sys2Proof.Machine.execHeartFlit h b s
  | .fillReq h pos tenant region => Sys2Proof.Machine.execFillReq h pos tenant region s
  | .fillFlit h pos tenant region offset data => Sys2Proof.Machine.execFillFlit h pos tenant region offset data s
  | .fcrcFlit h entry cycle crc => Sys2Proof.Machine.execFcrcFlit h entry cycle crc s
  | .peerFlit h payload => Sys2Proof.Machine.execPeerFlit h payload s
  | .resign h => Sys2Proof.Machine.execResign h s
  | .standbyAck => Sys2Proof.Machine.execStandbyAck s
  | .heartTimer => Sys2Proof.Machine.execHeartTimer s
  | .flitResend => Sys2Proof.Machine.execFlitResend s
  | .laneRetrainDone => Sys2Proof.Machine.execLaneRetrainDone s
  | .peerLossTimeout => Sys2Proof.Machine.execPeerLossTimeout s
  | .lagmaxTimeout => Sys2Proof.Machine.execLagmaxTimeout s
  | .tenantSwitch bench tenant => Sys2Proof.Machine.execTenantSwitch bench tenant s
  | .l2LockEnable v => Sys2Proof.Machine.execL2LockEnable v s
  | .l2LockDisable => Sys2Proof.Machine.execL2LockDisable s
  | .l2LockDone => Sys2Proof.Machine.execL2LockDone s
  | .benchGate bench => Sys2Proof.Machine.execBenchGate bench s
  | .benchWake bench => Sys2Proof.Machine.execBenchWake bench s
  | .thermalEmergency die tj => Sys2Proof.Machine.execThermalEmergency die tj s
  | .powerCapAdjust milliwatts => Sys2Proof.Machine.execPowerCapAdjust milliwatts s
  | .packageReset => Sys2Proof.Machine.execPackageReset s
  | .firmwareRecoveryWrite image => Sys2Proof.Machine.execFirmwareRecoveryWrite image s
  | .coreReset core => Sys2Proof.Machine.execCoreReset core s
  | .benchReset bench => Sys2Proof.Machine.execBenchReset bench s
  | .stopJob id => Sys2Proof.Machine.execStopJob id s
  | .goJob id => Sys2Proof.Machine.execGoJob id s
  | .rdrec id => Sys2Proof.Machine.execRdrec id s
  | .rdctx id => Sys2Proof.Machine.execRdctx id s
  | .debugHalt t => Sys2Proof.Machine.execDebugHalt t s
  | .debugRelease t => Sys2Proof.Machine.execDebugRelease t s
  | .debugAccess r => Sys2Proof.Machine.execDebugAccess r s
  | .unlock die => Sys2Proof.Machine.execUnlock die s
  | .wipe die => Sys2Proof.Machine.execWipe die s
  | .openPort die => Sys2Proof.Machine.execOpenPort die s
  | .attest die => Sys2Proof.Machine.execAttest die s
  | .keyload die => Sys2Proof.Machine.execKeyload die s
  | .deploy die => Sys2Proof.Machine.execDeploy die s
  | .retire die => Sys2Proof.Machine.execRetire die s
  | .powerLoss burned => Sys2Proof.Machine.execPowerLoss burned s
  | .qbvGateOpen port => Sys2Proof.Machine.execQbvGateOpen port s
  | .flitDiscard h => Sys2Proof.Machine.execFlitDiscard h s
  | .stewardNotice t => Sys2Proof.Machine.execStewardNotice t s
  | .perstRelease => Sys2Proof.Machine.execPerstRelease s
  | .pcieConfigRequest => Sys2Proof.Machine.execPcieConfigRequest s

end Sys2Proof.Machine
end

