-- ==== Sys2Proof/Machine/Fetch.lean ====
section
/-! DEFINITION. Fetching the parcels of an instruction (R29-R32, R226, R387) and loading a constant bank (R39, R160). -/

namespace Sys2Proof.Machine

/-- One byte of code at x: what stands there, or for each write performed since the thread's last `ifence` or dispatch what stood
before it (R226). The answer also gives the next free value. -/
def codeByte (fence x free : Nat) (b : Byte) : List Hist → Byte × Nat
  | [] => (b, free)
  | h :: r =>
    if fence ≤ h.n ∧ h.addr ≤ x ∧ x < h.addr + h.old.length then
      if Config.fetchNew free then (b, free + 1) else codeByte fence x (free + 1) ((h.old[x - h.addr]?).getD b) r
    else codeByte fence x free b r

/-- The byte that a fetch of the running thread finds at a resolved address. At homes 641-644 it is what the release buffer or the other
side holds (R257), or, for a store since the fence, a byte from before it. -/
def State.codeAt (s : State) (x : Nat) : Byte × State :=
  if isForeign x then
    let new := Config.fetchNew s.free || !s.pkg.hist.any fun h => decide (s.me.fence ≤ h.n) && h.covers x
    (if new then s.foreignAt x 1 else Config.foreignByte (s.free + 2), { s with free := s.free + 3 })
  else
    let r := codeByte s.me.fence x s.free (s.pkg.mem.get 0 x) s.pkg.hist
    (r.1, { s with free := r.2 })

/-- One parcel at an address of the running thread's space; a line in error never answers, and the package rolls back (R135, R260). A
fetch from a page that moves to another package waits (R341). DESIGN CHOICE (log 99): the watchpoints are judged parcel by parcel, so a
match at one parcel traps before a later parcel's fault. -/
def State.fetchParcel (s : State) (a : Word) (k : State → Parcel → Out) : Out :=
  if s.pkg.pageMoves (s.tenantOf s.cur) a 2 then s.stallWith .moving
  else
  match s.view s.cur s.me.sup .fetch a with
  | .fault c => s.trap c a
  | .absent l sp at_ => .next (s.notPresent s.cur .fetch a l sp at_)
  | .ok pa leaf =>
    if s.pkg.errLines.contains (pa / 64) then .next s.noteError
    else
      s.watched .fetch a 2 leaf.toList fun s1 =>
        let lo := s1.codeAt pa
        let hi := lo.2.codeAt (pa + 1)
        k hi.2 (hi.1 ++ lo.1)

/-- n further parcels from address a on. -/
def State.fetchMore : Nat → Word → State → List Parcel → (State → List Parcel → Out) → Out
  | 0, _, s, ps, k => k s ps
  | n + 1, a, s, ps, k => s.fetchParcel a fun s' p => State.fetchMore n (a + 2) s' (ps ++ [p]) k

/-- The parcels of the instruction at PC (R30, R32). -/
def State.fetch (s : State) (k : State → List Parcel → Out) : Out :=
  let pc := s.me.pc
  s.fetchParcel pc fun s1 p =>
    if p.getLsbD 15 then
      s1.fetchParcel (pc + 2) fun s2 q => State.fetchMore (2 * literalWords (p ++ q)) (pc + 4) s2 [p, q] k
    else k s1 [p]

/-- The instruction word that an ILLEGAL trap reports (R49). -/
def trapWordOf (ps : List Parcel) : Word :=
  match ps with
  | [] => 0
  | [p] => p.setWidth 64
  | p :: q :: _ => (p ++ q).setWidth 64

/-- The 256 words of the bank at a resolved address: the bytes at its home, or what another home answers (R20). -/
def State.bankOf (s : State) (a : Nat) : Store Word32 :=
  (List.range 256).foldl (fun (b : Store Word32) i =>
    let x := if isForeign a then bytesNat ((List.range 4).map fun j => s.foreignAt (a + 4 * i + j) (4 * i + j)) else readMem s.pkg.mem (a + 4 * i) 4
    b.set 0 i (BitVec.ofNat 32 x)) []

/-- The bank of a task's entry, read as part of fetching its first instruction; a trap handler runs before it is loaded (R160). CBA is
that of the entry whatever its VALID bit, since tasks of an entry may live on (R298; DEDUCED, log 33). DESIGN CHOICE (log 79): the read is one of a thread
with S = 0, which needs U beside R, and a task table that cannot be reached, of which the steward hears (R399), is a bank that is not
permitted, named by the entry's address. -/
def State.loadBank (s : State) (k : State → Out) : Out :=
  let t := s.me
  if !t.cbNeed || t.sup then k s
  else
    match t.task with
    | none => k s
    | some tk =>
      match s.pkg.entryAddr tk.tenant tk.entry .load with
      | none =>
        let va := s.pkg.entryVa tk.tenant tk.entry
        (if t.isBusy [.g 63] then s else s.updBy .hub fun p => p.lost (dieOf s.cur) va).trap .xlatPerm (word va)
      | some at_ =>
        let cba := s.pkg.bankAddr at_
        let s0 := s.updBy (.thread s.cur) fun p => p.used tk.tenant (p.entryVa tk.tenant tk.entry) .load
        if s.pkg.pageMoves tk.tenant cba 1024 then s.stallWith .moving
        else
        match s.view s.cur false .load cba with
        | .fault _ => s.trap .xlatPerm cba
        | .absent l sp at_ => .next (s.notPresent s.cur .load cba l sp at_)
        | .ok pa leaf =>
          if !isForeign pa && (List.range 16).any fun i => s.pkg.errLines.contains (pa / 64 + i) then .next s.noteError
          else
            let s1 := s0.useLeaves .load leaf.toList
            k ({ s1 with free := s1.free + 1024 }.setMe
              { t with cb := s.bankOf pa, cbNeed := false })

end Sys2Proof.Machine
end

