-- ==== Sys2Proof/Machine/Sched.lean ====
section
/-! DEFINITION. The passing of time (R232, R233, R252) and what the package does of itself where no agenda says it (log 3). -/

namespace Sys2Proof.Machine

/-- n core ticks pass: T runs on by 0.625 ns a tick, and a pending slew changes it by at most 1 in 5,000 (R233). -/
def State.advance (s : State) (n : Nat) : State :=
  let k : Int := ((s.tick + n) / 1000 - s.tick / 1000 : Nat)
  let adj := clamp s.slew (-k) k
  { s with tick := s.tick + n, time := ((s.time + 5 * n : Nat) + adj).toNat, slew := s.slew - adj }

/-- Each thread that runs a budgeted task draws its tick (R252). -/
def State.drawBudgets (s : State) : State :=
  if s.pkg.budgets.isEmpty then s
  else s.threads.foldl (fun s t => match t.2.task with
    | some k => s.updBy (.thread t.1) fun p => p.draw k
    | none => s) s

/-- A move that may come about. -/
abbrev Move := State → Out

/-- The accesses, messages and adds on their way. -/
def State.trafficMoves (s : State) : List Move :=
  (s.flight.flatMap fun a => [execAccessAtHome a.id [], execLoadReply a.id, execWitnessReturn a.id]) ++
    (s.pkg.asks.map fun x => execAccessAtHome x.id []) ++ (s.pkg.messages.map fun m => execMessageArrival m.id) ++
    (s.pkg.offers.map fun o => execMessageArrival o.msg.id) ++ (s.pkg.adds.map fun m => execSignalAdd m.id)

/-- The engines. -/
def State.engineMoves (s : State) : List Move :=
  let keys := s.pkg.ops.filterMap fun x => if x.1 < 65536 && x.2.isSome then some x.1 else none
  let benches := (keys.map opBench).eraseDups
  (s.pkg.cores.filterMap fun c => if c.2.fifo.isEmpty then none else some (execCommandEnqueue c.1)) ++
    (if keys.isEmpty then [] else (List.range 4).map fun d => execLeaveGrant d) ++
    (benches.flatMap fun b => [execOpStart b 0, execOpStart b 1]) ++
    (s.pkg.ops.flatMap fun x => match x.2 with
      | none => []
      | some o =>
        if 65536 ≤ x.1 then []
        else
          [execCopyDescRead x.1, execCopyClaimResume x.1, execCopyChunk x.1] ++
            (o.chunks.flatMap fun c => (c.lines.map fun l => execReduceApply x.1 l) ++ c.retry.map fun l => execApplyRetry x.1 l) ++
            [execChunkClose x.1, execBerylOpComplete x.1, execOpEnd x.1])

/-- The link's timers. -/
def State.linkMoves (_s : State) : List Move := [execHeartTimer, execFlitResend, execLaneRetrainDone, execPeerLossTimeout]

/-- The scan cycle, epochs, horizons, recovery marks and the link. -/
def State.clockMoves (s : State) : List Move :=
  ((List.range 8).flatMap fun n => [execPubCutoff n, execPublishInstant n, execCycleStart n]) ++
    (s.pkg.budgets.map fun b => execBudgetExhausted (b.1 / 1024) (b.1 % 1024)) ++
    [execEpochAdvance, execVisibilityPublish, execRecoveryMarkOpen, execRecoveryMarkClose, execMarkHoldTimeout, execReleaseBufferSend,
      execLagmaxTimeout] ++ s.linkMoves ++
    (if s.pair.ackSent < s.pair.stored then [execStandbyAck] else []) ++
    (s.pkg.ports.filterMap fun p => if p.2.waiting.isEmpty then none else some (execQbvGateOpen p.1)) ++
    ((List.range 64).map fun b => execHorizonPublish b) ++
    (s.pkg.moves.map fun m => execSettleExpiry (m.1 / 2 ^ 40) (m.1 % 2 ^ 40 * 65536)) ++
    (s.pkg.migrants.map fun m => execMigrationMove m.1 m.2)

/-- The firmware, the bench controllers and Onyx. -/
def State.serviceMoves (s : State) : List Move :=
  (s.pkg.reqs.flatMap fun r => [execPageMapped r.id, execPageRefused r.id]) ++
    (s.pkg.benches.flatMap fun b => [execBenchWake b.1] ++ (if b.2.switching then [execTenantSwitch b.1 b.2.target] else []) ++
      b.2.gens.map fun g => execCancelBroadcast (g.1 / 65536) (g.1 % 65536) b.1) ++
    ((s.pkg.sleepers.filter fun z => z.state == 12).map fun z => execCancelBroadcast z.tenant (s.pkg.record z.slot).job (slotCore z.slot / 8)) ++
    (s.onyx.busy.flatMap fun x =>
      [execUnlock x.1, execWipe x.1, execOpenPort x.1, execAttest x.1, execKeyload x.1, execDeploy x.1, execRetire x.1]) ++
    (s.pkg.cores.flatMap fun c => (s.pkg.mailOf c.1).flatMap fun m =>
      if m.entry = 1022 then [execStopJob m.id, execGoJob m.id, execRdrec m.id, execRdctx m.id] else [execCandidateAgeing c.1 m.id]) ++
    [execL2LockDone]

/-- The threads' limits, and dispatch. -/
def State.threadMoves (s : State) : List Move :=
  (s.threads.flatMap fun t => [execIdleTimeout t.1, execEngineStarved t.1, execSpawnStarved t.1, execBudgetGraceEnd t.1, execTaskFail t.1]) ++
    (s.pkg.cores.flatMap fun c => (c.2.ready.map fun r => execCandidateAgeing c.1 r.slot) ++ [execThreadDispatch c.1])

/-- Everything that may come about of itself, in the order in which it is tried. -/
def State.ownMoves (s : State) : List Move :=
  s.trafficMoves ++ s.engineMoves ++ s.clockMoves ++ s.serviceMoves ++ s.threadMoves

/-- The first move that changes the state. -/
def firstMove (s : State) : List Move → Option Out
  | [] => none
  | m :: r =>
    match m s with
    | .next s' => if s' = s then firstMove s r else some (.next s')
    | .fault f => some (.fault f)
    | .refused x => some (.refused x)

/-- The thread whose turn it is after the last one. -/
def State.nextThread (s : State) : Option Nat :=
  let live := s.threads.filterMap fun t => if t.2.task.isSome || isSteward t.1 then some t.1 else none
  (live.find? fun n => decide (s.cur < n)).or live.head?

end Sys2Proof.Machine
end

