-- ==== Sys2Proof/Machine/Run.lean ====
section
/-! DEFINITION. What moves next (log 3): a thread's instruction or an event of the package. -/

namespace Sys2Proof.Machine

/-- Thread n runs the instruction at its PC. -/
noncomputable def State.issueNext (s : State) : Out :=
  s.loadBank fun s1 => s1.fetch fun s2 ps =>
    match decode ps with
    | .instr i => exec i s2
    | .illegal => s2.trap .illegal (trapWordOf ps)
    | .short => s2.trap .illegal (trapWordOf ps)

/-- A pre-emption waits at this boundary of thread n: nothing more issues before it (R352). -/
def State.preemptHere (s : State) (n : Nat) : Bool :=
  let t := s.thr n
  !s.replaying && t.preemptDue && !t.sup

/-- A turn of thread n: a pre-emption goes first, then an interrupt (R347), then the instruction. A thread without a task, or whose tenant
may not run (R393), does nothing. -/
noncomputable def State.threadTurn (s : State) (n : Nat) : Out :=
  let s' := { s with cur := n }
  let t := s.thr n
  if t.park = some .doubleFault || t.park = some .debugger || (!isSteward n && (t.task.isNone || !s.tenantRuns (s.tenantOf n))) then .next s'
  else if s.canPreempt n then execPreempt n s'
  else if s.preemptHere n then .next s'
  else if t.irqNow && !t.sup then execInterrupt n s'
  else if t.park.isSome then .next s'
  else s'.issueNext

/-- The event acts on a package that has stopped or has no firmware (R261, R392, R394, R395). -/
def worksStopped : Instr → Bool
  | .packageReset => true
  | .powerLoss _ => true
  | .perstRelease => true
  | .pcieConfigRequest => true
  | .firmwareRecoveryWrite _ => true
  | .debugHalt _ => true
  | .debugRelease _ => true
  | .debugAccess _ => true
  | _ => false

/-- The event is one of the link, which carries a stopped package's RESIGN and HEARTs too (R261, R265). -/
def worksOnLink : Instr → Bool
  | .heartTimer => true
  | .flitResend => true
  | .laneRetrainDone => true
  | .flitDiscard _ => true
  | .ackFlit _ _ => true
  | .heartFlit _ _ => true
  | .logFlit _ _ => true
  | .progFlit _ _ => true
  | .fcrcFlit _ _ _ _ => true
  | .fillReq _ _ _ _ => true
  | .fillFlit _ _ _ _ _ _ => true
  | .peerFlit _ _ => true
  | .resign _ => true
  | .peerLossTimeout => true
  | _ => false

/-- The event is a write by the host, which is kept for a recovery replay (R260, R262). -/
def isHostWrite : Instr → Bool
  | .hostDoorbell _ _ => true
  | .launchRecord _ _ _ _ => true
  | .badlnchClear _ _ => true
  | .hostAnswer _ _ _ => true
  | .hostImageAccess _ _ _ (some _) => true
  | .configMailboxRequest _ => true
  | _ => false

/-- What the package does at present: a stopped one what the debug port and the link do, one without firmware that does not verify what a
reset does, and while the journal is restored only the link and a further error (R260, R261, R392). -/
def State.allows (s : State) (e : Instr) : Bool :=
  if s.onyx.recovery then worksStopped e
  else if s.stopped then worksStopped e || worksOnLink e
  else if s.restoring then worksStopped e || worksOnLink e || (match e with
    | .machineCheck _ => true
    | _ => false)
  else true

/-- A host write takes effect, and is kept with the position of its HOSTIN entry; one that comes in a recovery replay waits for its
end. -/
noncomputable def State.hostWrite (s : State) (e : Instr) : Out :=
  if s.pair.recov then .next s
  else
    match exec e s with
    | .next s' =>
      let pos := if s.replaying then s.nextPos hubSite else s.lwr
      .next (if s'.lwr = s.lwr then s' else { s' with pair := { s'.pair with inputs := s'.pair.inputs ++ [(pos, e)] } })
    | .fault f => .fault f
    | .refused r => .refused r

/-- A recovery replay redoes the host write whose HOSTIN entry comes next at the hub (R260). -/
noncomputable def State.redoWrite (s : State) : Out :=
  if !s.pair.recov then .next s
  else
    match s.pair.inputs.find? fun x => x.1 == s.nextPos hubSite with
    | some x => if (s.nextEntry hubSite).isSome then exec x.2 s else .next s
    | none => .next s

/-- One turn. -/
noncomputable def State.turn (s : State) : Turn → Out
  | .thread n => if s.stopped || s.onyx.recovery then .fault .stopped else if s.restoring then .next s else s.threadTurn n
  | .part n last =>
    if s.stopped || s.onyx.recovery then .fault .stopped
    else if s.restoring then .next s
    else { s with upTo := some last }.threadTurn n
  | .event e => if !e.isEvent || !s.allows e then .next s else if isHostWrite e then s.hostWrite e else exec e s

/-- What the package does of itself at present. -/
noncomputable def State.moves (s : State) : List Move :=
  if s.stopped || s.restoring then s.linkMoves else [State.redoWrite, State.redoStep] ++ s.ownMoves

/-- Where the agenda is empty: the first move that changes the state, else the next thread. -/
noncomputable def State.auto (s : State) : Out :=
  if s.onyx.recovery then .fault .stopped
  else
    match firstMove s s.moves with
    | some o => o
    | none =>
      if s.stopped then .fault .stopped
      else if s.restoring then .next s
      else
        match s.nextThread with
        | some n => s.threadTurn n
        | none => .next s

/-- The steward of a die hears of each access to a tenant's structure that failed in the turn (R399). -/
def State.reportLost (s : State) : State :=
  if s.pkg.areaLost.isEmpty then s
  else
    { s.updBy .hub (fun p => { p with areaLost := [] }) with
      outputs := s.outputs ++ s.pkg.areaLost.map fun x => .steward x.1 0x20 (word x.2) }

/-- An uncorrectable error met in the turn is a machine check (R135, R260). -/
def State.checkErrors (s : State) : State := if s.pkg.checkDue then (s.updBy .hub fun p => { p with checkDue := false }).machineCheck else s

/-- What follows a turn: failures are reported, an uncorrectable error is acted on, a journal that is full is noted (R261), and a takeover
ends once all entries received are forced (R269). -/
def settle : Out → Out
  | .next s => .next { s.reportLost.checkErrors.noteDisarm.settleTakeover with upTo := none }
  | .fault f => .fault f
  | .refused r => .refused r

/-- One tick passes, and the turn at the head of the agenda is made. -/
noncomputable def State.move (s : State) : Out :=
  match s.agenda with
  | [] => settle ((s.advance 1).drawBudgets.auto)
  | a :: r => settle (({ s with agenda := r }.advance 1).drawBudgets.turn a)

end Sys2Proof.Machine
end

