-- ==== Sys2Proof/Machine/Step.lean ====
section
/-! DEFINITION. One step of the machine, and the state in which the next step runs a given instruction (log 6). -/

namespace Sys2Proof.Machine

/-- One step. -/
noncomputable def step (s : State) : Host.Outcome State Fault Refusal := s.move

/-- The bytes of a list of parcels, each with its low byte first. -/
def parcelBytes : List Parcel → List Byte
  | [] => []
  | p :: r => p.extractLsb' 0 8 :: p.extractLsb' 8 8 :: parcelBytes r

/-- The tenant of a placed program: valid, with bench 0 in its map and its tables at 0x1000. -/
def placedTenant : TenantDesc where
  valid := true
  conf := false
  mode := 0
  clown := 0
  l2own := false
  bmap := 1
  l0 := 0x1000
  ttbase := 0
  gtbase := 0
  csbase := 0
  swbase := 0
  ojbase := 0
  imgw := []
  trbase := 0
  trsize := 0
  svq := 0

/-- The task that a placed program is. -/
def placedTask : Task where
  tenant := 0
  slot := 0x7F0000004000
  entry := 0
  job := 0
  gen := 0
  pri := 0
  cls := 0
  dom := 0
  bud := false
  link := 0
  seen := false
  sender := none
  tag := 0
  source := 3

/-- Page tables that map the first 64 KiB of the tenant to the frame at 0x10000, for reading, writing, fetching and both modes. -/
def placedTables : Store Byte :=
  writeMem (writeMem (writeMem (writeMem [] 0x1000 0x2001 8) 0x2000 0x3001 8) 0x3000 0x4001 8) 0x4000 0x100FF 8

/-- Put the bytes of an instruction at the code's first address. -/
def placeBytes : Nat → List Byte → Store Byte → Store Byte
  | _, [], m => m
  | a, b :: r, m => placeBytes (a + 1) r (m.set 0 a b)

/-- `s` with an instruction of the opcode table where the next step fetches: thread 0 runs a task of tenant 0 at address 0, and has
the next turn. -/
def State.withFetchWord (s : State) (nbits w : Nat) : State :=
  let p := s.pkg
  { s with
    stopped := false
    agenda := [.thread 0]
    upTo := none
    restoreTill := 0
    pkg := { p with
      mem := placeBytes 0x10000 (parcelBytes (tableParcels nbits w)) placedTables
      hist := []
      errLines := []
      checkDue := false
      onyx := { p.onyx with recovery := false, lc := 2 }
      descs := p.descs.set none 0 (some placedTenant)
      benches := p.benches.set Bench.init 0 { p.bench 0 with gated := false, tenant := some 0 } }
    threads := s.threads.set Thread.init 0 { s.thr 0 with
      pc := 0, task := some placedTask, park := none, stall := none, irq := none, preemptDue := false, stopDue := false
      cbNeed := false, busy := [], wp0 := 0, wp1 := 0 } }

end Sys2Proof.Machine
end

