-- ==== Sys2Proof/Laws/Encoding.lean ====
section
/-! SUPPORT. Fields of a word built by concatenation, and what `decode` reads from the words of each format. -/

set_option linter.unusedSimpArgs false

namespace Sys2Proof

set_option Elab.async false

/-! ### Fields of a concatenation -/

theorem exHi {a b : Nat} (x : BitVec a) (y : BitVec b) (n l : Nat) (h : b ≤ n) :
    (x ++ y).extractLsb' n l = x.extractLsb' (n - b) l := by
  apply BitVec.eq_of_getLsbD_eq; intro i hi
  rw [BitVec.getLsbD_extractLsb', BitVec.getLsbD_append, if_neg (by omega), BitVec.getLsbD_extractLsb']
  congr 2; omega

theorem exLo {a b : Nat} (x : BitVec a) (y : BitVec b) (n l : Nat) (h : n + l ≤ b) :
    (x ++ y).extractLsb' n l = y.extractLsb' n l := by
  apply BitVec.eq_of_getLsbD_eq; intro i hi
  rw [BitVec.getLsbD_extractLsb', BitVec.getLsbD_append, if_pos (by omega), BitVec.getLsbD_extractLsb']

theorem exSelf {a : Nat} (x : BitVec a) : x.extractLsb' 0 a = x := by
  apply BitVec.eq_of_getLsbD_eq; intro i hi; simp [hi]

theorem gHi {a b : Nat} (x : BitVec a) (y : BitVec b) (n : Nat) (h : b ≤ n) : (x ++ y).getLsbD n = x.getLsbD (n - b) := by
  rw [BitVec.getLsbD_append, if_neg (by omega)]

theorem gLo {a b : Nat} (x : BitVec a) (y : BitVec b) (n : Nat) (h : n < b) : (x ++ y).getLsbD n = y.getLsbD n := by
  rw [BitVec.getLsbD_append, if_pos (by omega)]

theorem gBit (x : Bool) : (bit x).getLsbD 0 = x := by cases x <;> rfl

theorem joinHalves (w : Word32) : w.extractLsb' 16 16 ++ w.extractLsb' 0 16 = w := by
  apply BitVec.eq_of_getLsbD_eq; intro i hi
  rw [BitVec.getLsbD_append]
  split
  · simp_all
  · simp_all; intro; omega

theorem joinWords (w : Word) : w.extractLsb' 32 32 ++ w.extractLsb' 0 32 = w := by
  apply BitVec.eq_of_getLsbD_eq; intro i hi
  rw [BitVec.getLsbD_append]
  split
  · simp_all
  · simp_all; intro; omega

theorem joinLiteral (l : Word32) : literal (l.extractLsb' 0 16) (l.extractLsb' 16 16) = l := joinHalves l

/-! ### From parcels to the two tables -/

/-- What `decode` answers for what a table gives. -/
def Decoded.of : Option Instr → Decoded
  | some i => .instr i
  | none => .illegal

theorem decode_parcel (p : Parcel) (rest : List Parcel) (h : p.getLsbD 15 = false) :
    decode (p :: rest) = Decoded.of (decode16 p) := by
  simp only [decode, h, Decoded.of]; rfl

theorem decode_word (w : Word32) (rest : List Parcel) (h : w.getLsbD 31 = true) (hl : literalWords w = 0) :
    decode (wordParcels w ++ rest) = Decoded.of (decode32 w 0 0) := by
  have h1 : (w.extractLsb' 16 16).getLsbD 15 = true := by simpa using h
  simp only [decode, wordParcels, List.cons_append, h1, joinHalves, hl, Decoded.of]; rfl

theorem decode_lit (w l : Word32) (rest : List Parcel) (h : w.getLsbD 31 = true) (hl : literalWords w = 1) :
    decode (wordParcels w ++ litParcels l ++ rest) = Decoded.of (decode32 w l 0) := by
  have h1 : (w.extractLsb' 16 16).getLsbD 15 = true := by simpa using h
  simp only [decode, wordParcels, litParcels, List.cons_append, List.nil_append, h1, joinHalves, hl, joinLiteral, Decoded.of]; rfl

theorem decode_lit2 (w l m : Word32) (rest : List Parcel) (h : w.getLsbD 31 = true) (hl : literalWords w = 2) :
    decode (wordParcels w ++ litParcels l ++ litParcels m ++ rest) = Decoded.of (decode32 w l m) := by
  have h1 : (w.extractLsb' 16 16).getLsbD 15 = true := by simpa using h
  simp only [decode, wordParcels, litParcels, List.cons_append, List.nil_append, h1, joinHalves, hl, joinLiteral, Decoded.of]; rfl

/-! ### Fields of each format -/

theorem encR_m (m d a b : BitVec 6) (f : BitVec 7) : ((encR m d a b f : Word32).extractLsb' 25 6) = m := by
  show BitVec.extractLsb' (n := 1+6+6+6+6+7) 25 6 (1#1 ++ m ++ d ++ a ++ b ++ f) = _
  simp (disch := decide) only [exHi, exLo, exSelf, gHi, gLo, gBit, Nat.reduceSub]
theorem encR_d (m d a b : BitVec 6) (f : BitVec 7) : ((encR m d a b f : Word32).extractLsb' 19 6) = d := by
  show BitVec.extractLsb' (n := 1+6+6+6+6+7) 19 6 (1#1 ++ m ++ d ++ a ++ b ++ f) = _
  simp (disch := decide) only [exHi, exLo, exSelf, gHi, gLo, gBit, Nat.reduceSub]
theorem encR_a (m d a b : BitVec 6) (f : BitVec 7) : ((encR m d a b f : Word32).extractLsb' 13 6) = a := by
  show BitVec.extractLsb' (n := 1+6+6+6+6+7) 13 6 (1#1 ++ m ++ d ++ a ++ b ++ f) = _
  simp (disch := decide) only [exHi, exLo, exSelf, gHi, gLo, gBit, Nat.reduceSub]
theorem encR_b (m d a b : BitVec 6) (f : BitVec 7) : ((encR m d a b f : Word32).extractLsb' 7 6) = b := by
  show BitVec.extractLsb' (n := 1+6+6+6+6+7) 7 6 (1#1 ++ m ++ d ++ a ++ b ++ f) = _
  simp (disch := decide) only [exHi, exLo, exSelf, gHi, gLo, gBit, Nat.reduceSub]
theorem encR_f (m d a b : BitVec 6) (f : BitVec 7) : ((encR m d a b f : Word32).extractLsb' 0 7) = f := by
  show BitVec.extractLsb' (n := 1+6+6+6+6+7) 0 7 (1#1 ++ m ++ d ++ a ++ b ++ f) = _
  simp (disch := decide) only [exHi, exLo, exSelf, gHi, gLo, gBit, Nat.reduceSub]
theorem encR_31 (m d a b : BitVec 6) (f : BitVec 7) : ((encR m d a b f : Word32).getLsbD 31) = true := by
  show BitVec.getLsbD (w := 1+6+6+6+6+7) (1#1 ++ m ++ d ++ a ++ b ++ f) 31 = _
  simp (disch := decide) only [exHi, exLo, exSelf, gHi, gLo, gBit, Nat.reduceSub]; decide
theorem encI_m (m d a : BitVec 6) (i : BitVec 13) : ((encI m d a i : Word32).extractLsb' 25 6) = m := by
  show BitVec.extractLsb' (n := 1+6+6+6+13) 25 6 (1#1 ++ m ++ d ++ a ++ i) = _
  simp (disch := decide) only [exHi, exLo, exSelf, gHi, gLo, gBit, Nat.reduceSub]
theorem encI_d (m d a : BitVec 6) (i : BitVec 13) : ((encI m d a i : Word32).extractLsb' 19 6) = d := by
  show BitVec.extractLsb' (n := 1+6+6+6+13) 19 6 (1#1 ++ m ++ d ++ a ++ i) = _
  simp (disch := decide) only [exHi, exLo, exSelf, gHi, gLo, gBit, Nat.reduceSub]
theorem encI_a (m d a : BitVec 6) (i : BitVec 13) : ((encI m d a i : Word32).extractLsb' 13 6) = a := by
  show BitVec.extractLsb' (n := 1+6+6+6+13) 13 6 (1#1 ++ m ++ d ++ a ++ i) = _
  simp (disch := decide) only [exHi, exLo, exSelf, gHi, gLo, gBit, Nat.reduceSub]
theorem encI_i (m d a : BitVec 6) (i : BitVec 13) : ((encI m d a i : Word32).extractLsb' 0 13) = i := by
  show BitVec.extractLsb' (n := 1+6+6+6+13) 0 13 (1#1 ++ m ++ d ++ a ++ i) = _
  simp (disch := decide) only [exHi, exLo, exSelf, gHi, gLo, gBit, Nat.reduceSub]
theorem encI_31 (m d a : BitVec 6) (i : BitVec 13) : ((encI m d a i : Word32).getLsbD 31) = true := by
  show BitVec.getLsbD (w := 1+6+6+6+13) (1#1 ++ m ++ d ++ a ++ i) 31 = _
  simp (disch := decide) only [exHi, exLo, exSelf, gHi, gLo, gBit, Nat.reduceSub]; decide
theorem encI_10 (m d a : BitVec 6) (i : BitVec 13) : ((encI m d a i : Word32).extractLsb' 0 10) = i.extractLsb' 0 10 := by
  show BitVec.extractLsb' (n := 1+6+6+6+13) 0 10 (1#1 ++ m ++ d ++ a ++ i) = _
  simp (disch := decide) only [exHi, exLo, exSelf, gHi, gLo, gBit, Nat.reduceSub]
theorem encI_8 (m d a : BitVec 6) (i : BitVec 13) : ((encI m d a i : Word32).extractLsb' 0 8) = i.extractLsb' 0 8 := by
  show BitVec.extractLsb' (n := 1+6+6+6+13) 0 8 (1#1 ++ m ++ d ++ a ++ i) = _
  simp (disch := decide) only [exHi, exLo, exSelf, gHi, gLo, gBit, Nat.reduceSub]
theorem encI_b8 (m d a : BitVec 6) (i : BitVec 13) : ((encI m d a i : Word32).getLsbD 8) = i.getLsbD 8 := by
  show BitVec.getLsbD (w := 1+6+6+6+13) (1#1 ++ m ++ d ++ a ++ i) 8 = _
  simp (disch := decide) only [exHi, exLo, exSelf, gHi, gLo, gBit, Nat.reduceSub]
theorem encM_m (m d b : BitVec 6) (s : BitVec 3) (w : BitVec 4) (o : BitVec 6) : ((encM m d b s w o : Word32).extractLsb' 25 6) = m := by
  show BitVec.extractLsb' (n := 1+6+6+6+3+4+6) 25 6 (1#1 ++ m ++ d ++ b ++ s ++ w ++ o) = _
  simp (disch := decide) only [exHi, exLo, exSelf, gHi, gLo, gBit, Nat.reduceSub]
theorem encM_d (m d b : BitVec 6) (s : BitVec 3) (w : BitVec 4) (o : BitVec 6) : ((encM m d b s w o : Word32).extractLsb' 19 6) = d := by
  show BitVec.extractLsb' (n := 1+6+6+6+3+4+6) 19 6 (1#1 ++ m ++ d ++ b ++ s ++ w ++ o) = _
  simp (disch := decide) only [exHi, exLo, exSelf, gHi, gLo, gBit, Nat.reduceSub]
theorem encM_d5 (m d b : BitVec 6) (s : BitVec 3) (w : BitVec 4) (o : BitVec 6) : ((encM m d b s w o : Word32).extractLsb' 19 5) = d.extractLsb' 0 5 := by
  show BitVec.extractLsb' (n := 1+6+6+6+3+4+6) 19 5 (1#1 ++ m ++ d ++ b ++ s ++ w ++ o) = _
  simp (disch := decide) only [exHi, exLo, exSelf, gHi, gLo, gBit, Nat.reduceSub]
theorem encM_d24 (m d b : BitVec 6) (s : BitVec 3) (w : BitVec 4) (o : BitVec 6) : ((encM m d b s w o : Word32).getLsbD 24) = d.getLsbD 5 := by
  show BitVec.getLsbD (w := 1+6+6+6+3+4+6) (1#1 ++ m ++ d ++ b ++ s ++ w ++ o) 24 = _
  simp (disch := decide) only [exHi, exLo, exSelf, gHi, gLo, gBit, Nat.reduceSub]
theorem encM_b (m d b : BitVec 6) (s : BitVec 3) (w : BitVec 4) (o : BitVec 6) : ((encM m d b s w o : Word32).extractLsb' 13 6) = b := by
  show BitVec.extractLsb' (n := 1+6+6+6+3+4+6) 13 6 (1#1 ++ m ++ d ++ b ++ s ++ w ++ o) = _
  simp (disch := decide) only [exHi, exLo, exSelf, gHi, gLo, gBit, Nat.reduceSub]
theorem encM_s12 (m d b : BitVec 6) (s : BitVec 3) (w : BitVec 4) (o : BitVec 6) : ((encM m d b s w o : Word32).getLsbD 12) = s.getLsbD 2 := by
  show BitVec.getLsbD (w := 1+6+6+6+3+4+6) (1#1 ++ m ++ d ++ b ++ s ++ w ++ o) 12 = _
  simp (disch := decide) only [exHi, exLo, exSelf, gHi, gLo, gBit, Nat.reduceSub]
theorem encM_s10 (m d b : BitVec 6) (s : BitVec 3) (w : BitVec 4) (o : BitVec 6) : ((encM m d b s w o : Word32).extractLsb' 10 2) = s.extractLsb' 0 2 := by
  show BitVec.extractLsb' (n := 1+6+6+6+3+4+6) 10 2 (1#1 ++ m ++ d ++ b ++ s ++ w ++ o) = _
  simp (disch := decide) only [exHi, exLo, exSelf, gHi, gLo, gBit, Nat.reduceSub]
theorem encM_s11 (m d b : BitVec 6) (s : BitVec 3) (w : BitVec 4) (o : BitVec 6) : ((encM m d b s w o : Word32).extractLsb' 11 2) = s.extractLsb' 1 2 := by
  show BitVec.extractLsb' (n := 1+6+6+6+3+4+6) 11 2 (1#1 ++ m ++ d ++ b ++ s ++ w ++ o) = _
  simp (disch := decide) only [exHi, exLo, exSelf, gHi, gLo, gBit, Nat.reduceSub]
theorem encM_sb (m d b : BitVec 6) (s : BitVec 3) (w : BitVec 4) (o : BitVec 6) : ((encM m d b s w o : Word32).getLsbD 10) = s.getLsbD 0 := by
  show BitVec.getLsbD (w := 1+6+6+6+3+4+6) (1#1 ++ m ++ d ++ b ++ s ++ w ++ o) 10 = _
  simp (disch := decide) only [exHi, exLo, exSelf, gHi, gLo, gBit, Nat.reduceSub]
theorem encM_w (m d b : BitVec 6) (s : BitVec 3) (w : BitVec 4) (o : BitVec 6) : ((encM m d b s w o : Word32).extractLsb' 6 4) = w := by
  show BitVec.extractLsb' (n := 1+6+6+6+3+4+6) 6 4 (1#1 ++ m ++ d ++ b ++ s ++ w ++ o) = _
  simp (disch := decide) only [exHi, exLo, exSelf, gHi, gLo, gBit, Nat.reduceSub]
theorem encM_o (m d b : BitVec 6) (s : BitVec 3) (w : BitVec 4) (o : BitVec 6) : ((encM m d b s w o : Word32).extractLsb' 0 6) = o := by
  show BitVec.extractLsb' (n := 1+6+6+6+3+4+6) 0 6 (1#1 ++ m ++ d ++ b ++ s ++ w ++ o) = _
  simp (disch := decide) only [exHi, exLo, exSelf, gHi, gLo, gBit, Nat.reduceSub]
theorem encM_o4 (m d b : BitVec 6) (s : BitVec 3) (w : BitVec 4) (o : BitVec 6) : ((encM m d b s w o : Word32).extractLsb' 0 4) = o.extractLsb' 0 4 := by
  show BitVec.extractLsb' (n := 1+6+6+6+3+4+6) 0 4 (1#1 ++ m ++ d ++ b ++ s ++ w ++ o) = _
  simp (disch := decide) only [exHi, exLo, exSelf, gHi, gLo, gBit, Nat.reduceSub]
theorem encM_ob4 (m d b : BitVec 6) (s : BitVec 3) (w : BitVec 4) (o : BitVec 6) : ((encM m d b s w o : Word32).getLsbD 4) = o.getLsbD 4 := by
  show BitVec.getLsbD (w := 1+6+6+6+3+4+6) (1#1 ++ m ++ d ++ b ++ s ++ w ++ o) 4 = _
  simp (disch := decide) only [exHi, exLo, exSelf, gHi, gLo, gBit, Nat.reduceSub]
theorem encM_ob5 (m d b : BitVec 6) (s : BitVec 3) (w : BitVec 4) (o : BitVec 6) : ((encM m d b s w o : Word32).getLsbD 5) = o.getLsbD 5 := by
  show BitVec.getLsbD (w := 1+6+6+6+3+4+6) (1#1 ++ m ++ d ++ b ++ s ++ w ++ o) 5 = _
  simp (disch := decide) only [exHi, exLo, exSelf, gHi, gLo, gBit, Nat.reduceSub]
theorem encM_31 (m d b : BitVec 6) (s : BitVec 3) (w : BitVec 4) (o : BitVec 6) : ((encM m d b s w o : Word32).getLsbD 31) = true := by
  show BitVec.getLsbD (w := 1+6+6+6+3+4+6) (1#1 ++ m ++ d ++ b ++ s ++ w ++ o) 31 = _
  simp (disch := decide) only [exHi, exLo, exSelf, gHi, gLo, gBit, Nat.reduceSub]; decide
theorem encMov_m (m d : BitVec 6) (i : BitVec 19) : ((1#1 ++ m ++ d ++ i : Word32).extractLsb' 25 6) = m := by
  show BitVec.extractLsb' (n := 1+6+6+19) 25 6 (1#1 ++ m ++ d ++ i) = _
  simp (disch := decide) only [exHi, exLo, exSelf, gHi, gLo, gBit, Nat.reduceSub]
theorem encMov_d (m d : BitVec 6) (i : BitVec 19) : ((1#1 ++ m ++ d ++ i : Word32).extractLsb' 19 6) = d := by
  show BitVec.extractLsb' (n := 1+6+6+19) 19 6 (1#1 ++ m ++ d ++ i) = _
  simp (disch := decide) only [exHi, exLo, exSelf, gHi, gLo, gBit, Nat.reduceSub]
theorem encMov_i (m d : BitVec 6) (i : BitVec 19) : ((1#1 ++ m ++ d ++ i : Word32).extractLsb' 0 19) = i := by
  show BitVec.extractLsb' (n := 1+6+6+19) 0 19 (1#1 ++ m ++ d ++ i) = _
  simp (disch := decide) only [exHi, exLo, exSelf, gHi, gLo, gBit, Nat.reduceSub]
theorem encMov_31 (m d : BitVec 6) (i : BitVec 19) : ((1#1 ++ m ++ d ++ i : Word32).getLsbD 31) = true := by
  show BitVec.getLsbD (w := 1+6+6+19) (1#1 ++ m ++ d ++ i) 31 = _
  simp (disch := decide) only [exHi, exLo, exSelf, gHi, gLo, gBit, Nat.reduceSub]; decide
theorem encBr_m (m d : BitVec 6) (c : BitVec 3) (o : BitVec 16) : ((1#1 ++ m ++ d ++ c ++ o : Word32).extractLsb' 25 6) = m := by
  show BitVec.extractLsb' (n := 1+6+6+3+16) 25 6 (1#1 ++ m ++ d ++ c ++ o) = _
  simp (disch := decide) only [exHi, exLo, exSelf, gHi, gLo, gBit, Nat.reduceSub]
theorem encBr_d (m d : BitVec 6) (c : BitVec 3) (o : BitVec 16) : ((1#1 ++ m ++ d ++ c ++ o : Word32).extractLsb' 19 6) = d := by
  show BitVec.extractLsb' (n := 1+6+6+3+16) 19 6 (1#1 ++ m ++ d ++ c ++ o) = _
  simp (disch := decide) only [exHi, exLo, exSelf, gHi, gLo, gBit, Nat.reduceSub]
theorem encBr_c (m d : BitVec 6) (c : BitVec 3) (o : BitVec 16) : ((1#1 ++ m ++ d ++ c ++ o : Word32).extractLsb' 16 3) = c := by
  show BitVec.extractLsb' (n := 1+6+6+3+16) 16 3 (1#1 ++ m ++ d ++ c ++ o) = _
  simp (disch := decide) only [exHi, exLo, exSelf, gHi, gLo, gBit, Nat.reduceSub]
theorem encBr_o (m d : BitVec 6) (c : BitVec 3) (o : BitVec 16) : ((1#1 ++ m ++ d ++ c ++ o : Word32).extractLsb' 0 16) = o := by
  show BitVec.extractLsb' (n := 1+6+6+3+16) 0 16 (1#1 ++ m ++ d ++ c ++ o) = _
  simp (disch := decide) only [exHi, exLo, exSelf, gHi, gLo, gBit, Nat.reduceSub]
theorem encBr_31 (m d : BitVec 6) (c : BitVec 3) (o : BitVec 16) : ((1#1 ++ m ++ d ++ c ++ o : Word32).getLsbD 31) = true := by
  show BitVec.getLsbD (w := 1+6+6+3+16) (1#1 ++ m ++ d ++ c ++ o) 31 = _
  simp (disch := decide) only [exHi, exLo, exSelf, gHi, gLo, gBit, Nat.reduceSub]; decide
theorem encJ_m (m : BitVec 6) (o : BitVec 25) : ((1#1 ++ m ++ o : Word32).extractLsb' 25 6) = m := by
  show BitVec.extractLsb' (n := 1+6+25) 25 6 (1#1 ++ m ++ o) = _
  simp (disch := decide) only [exHi, exLo, exSelf, gHi, gLo, gBit, Nat.reduceSub]
theorem encJ_o (m : BitVec 6) (o : BitVec 25) : ((1#1 ++ m ++ o : Word32).extractLsb' 0 25) = o := by
  show BitVec.extractLsb' (n := 1+6+25) 0 25 (1#1 ++ m ++ o) = _
  simp (disch := decide) only [exHi, exLo, exSelf, gHi, gLo, gBit, Nat.reduceSub]
theorem encJ_31 (m : BitVec 6) (o : BitVec 25) : ((1#1 ++ m ++ o : Word32).getLsbD 31) = true := by
  show BitVec.getLsbD (w := 1+6+25) (1#1 ++ m ++ o) 31 = _
  simp (disch := decide) only [exHi, exLo, exSelf, gHi, gLo, gBit, Nat.reduceSub]; decide
theorem encX_m (m d : BitVec 6) (x c : BitVec 3) (i : BitVec 13) : ((1#1 ++ m ++ d ++ x ++ c ++ i : Word32).extractLsb' 25 6) = m := by
  show BitVec.extractLsb' (n := 1+6+6+3+3+13) 25 6 (1#1 ++ m ++ d ++ x ++ c ++ i) = _
  simp (disch := decide) only [exHi, exLo, exSelf, gHi, gLo, gBit, Nat.reduceSub]
theorem encX_d (m d : BitVec 6) (x c : BitVec 3) (i : BitVec 13) : ((1#1 ++ m ++ d ++ x ++ c ++ i : Word32).extractLsb' 19 6) = d := by
  show BitVec.extractLsb' (n := 1+6+6+3+3+13) 19 6 (1#1 ++ m ++ d ++ x ++ c ++ i) = _
  simp (disch := decide) only [exHi, exLo, exSelf, gHi, gLo, gBit, Nat.reduceSub]
theorem encX_x (m d : BitVec 6) (x c : BitVec 3) (i : BitVec 13) : ((1#1 ++ m ++ d ++ x ++ c ++ i : Word32).extractLsb' 16 3) = x := by
  show BitVec.extractLsb' (n := 1+6+6+3+3+13) 16 3 (1#1 ++ m ++ d ++ x ++ c ++ i) = _
  simp (disch := decide) only [exHi, exLo, exSelf, gHi, gLo, gBit, Nat.reduceSub]
theorem encX_c (m d : BitVec 6) (x c : BitVec 3) (i : BitVec 13) : ((1#1 ++ m ++ d ++ x ++ c ++ i : Word32).extractLsb' 13 3) = c := by
  show BitVec.extractLsb' (n := 1+6+6+3+3+13) 13 3 (1#1 ++ m ++ d ++ x ++ c ++ i) = _
  simp (disch := decide) only [exHi, exLo, exSelf, gHi, gLo, gBit, Nat.reduceSub]
theorem encX_i (m d : BitVec 6) (x c : BitVec 3) (i : BitVec 13) : ((1#1 ++ m ++ d ++ x ++ c ++ i : Word32).extractLsb' 0 13) = i := by
  show BitVec.extractLsb' (n := 1+6+6+3+3+13) 0 13 (1#1 ++ m ++ d ++ x ++ c ++ i) = _
  simp (disch := decide) only [exHi, exLo, exSelf, gHi, gLo, gBit, Nat.reduceSub]
theorem encX_31 (m d : BitVec 6) (x c : BitVec 3) (i : BitVec 13) : ((1#1 ++ m ++ d ++ x ++ c ++ i : Word32).getLsbD 31) = true := by
  show BitVec.getLsbD (w := 1+6+6+3+3+13) (1#1 ++ m ++ d ++ x ++ c ++ i) 31 = _
  simp (disch := decide) only [exHi, exLo, exSelf, gHi, gLo, gBit, Nat.reduceSub]; decide
theorem encVi_m (m : BitVec 6) (d : BitVec 5) (i : BitVec 20) : ((1#1 ++ m ++ d ++ i : Word32).extractLsb' 25 6) = m := by
  show BitVec.extractLsb' (n := 1+6+5+20) 25 6 (1#1 ++ m ++ d ++ i) = _
  simp (disch := decide) only [exHi, exLo, exSelf, gHi, gLo, gBit, Nat.reduceSub]
theorem encVi_d (m : BitVec 6) (d : BitVec 5) (i : BitVec 20) : ((1#1 ++ m ++ d ++ i : Word32).extractLsb' 20 5) = d := by
  show BitVec.extractLsb' (n := 1+6+5+20) 20 5 (1#1 ++ m ++ d ++ i) = _
  simp (disch := decide) only [exHi, exLo, exSelf, gHi, gLo, gBit, Nat.reduceSub]
theorem encVi_i (m : BitVec 6) (d : BitVec 5) (i : BitVec 20) : ((1#1 ++ m ++ d ++ i : Word32).extractLsb' 0 20) = i := by
  show BitVec.extractLsb' (n := 1+6+5+20) 0 20 (1#1 ++ m ++ d ++ i) = _
  simp (disch := decide) only [exHi, exLo, exSelf, gHi, gLo, gBit, Nat.reduceSub]
theorem encVi_31 (m : BitVec 6) (d : BitVec 5) (i : BitVec 20) : ((1#1 ++ m ++ d ++ i : Word32).getLsbD 31) = true := by
  show BitVec.getLsbD (w := 1+6+5+20) (1#1 ++ m ++ d ++ i) 31 = _
  simp (disch := decide) only [exHi, exLo, exSelf, gHi, gLo, gBit, Nat.reduceSub]; decide
theorem encVw_m (m : BitVec 6) (d a b : BitVec 5) (k : BitVec 3) (c : BitVec 2) (f : BitVec 5) : ((1#1 ++ m ++ d ++ a ++ b ++ k ++ c ++ f : Word32).extractLsb' 25 6) = m := by
  show BitVec.extractLsb' (n := 1+6+5+5+5+3+2+5) 25 6 (1#1 ++ m ++ d ++ a ++ b ++ k ++ c ++ f) = _
  simp (disch := decide) only [exHi, exLo, exSelf, gHi, gLo, gBit, Nat.reduceSub]
theorem encVw_d (m : BitVec 6) (d a b : BitVec 5) (k : BitVec 3) (c : BitVec 2) (f : BitVec 5) : ((1#1 ++ m ++ d ++ a ++ b ++ k ++ c ++ f : Word32).extractLsb' 20 5) = d := by
  show BitVec.extractLsb' (n := 1+6+5+5+5+3+2+5) 20 5 (1#1 ++ m ++ d ++ a ++ b ++ k ++ c ++ f) = _
  simp (disch := decide) only [exHi, exLo, exSelf, gHi, gLo, gBit, Nat.reduceSub]
theorem encVw_a (m : BitVec 6) (d a b : BitVec 5) (k : BitVec 3) (c : BitVec 2) (f : BitVec 5) : ((1#1 ++ m ++ d ++ a ++ b ++ k ++ c ++ f : Word32).extractLsb' 15 5) = a := by
  show BitVec.extractLsb' (n := 1+6+5+5+5+3+2+5) 15 5 (1#1 ++ m ++ d ++ a ++ b ++ k ++ c ++ f) = _
  simp (disch := decide) only [exHi, exLo, exSelf, gHi, gLo, gBit, Nat.reduceSub]
theorem encVw_b (m : BitVec 6) (d a b : BitVec 5) (k : BitVec 3) (c : BitVec 2) (f : BitVec 5) : ((1#1 ++ m ++ d ++ a ++ b ++ k ++ c ++ f : Word32).extractLsb' 10 5) = b := by
  show BitVec.extractLsb' (n := 1+6+5+5+5+3+2+5) 10 5 (1#1 ++ m ++ d ++ a ++ b ++ k ++ c ++ f) = _
  simp (disch := decide) only [exHi, exLo, exSelf, gHi, gLo, gBit, Nat.reduceSub]
theorem encVw_k (m : BitVec 6) (d a b : BitVec 5) (k : BitVec 3) (c : BitVec 2) (f : BitVec 5) : ((1#1 ++ m ++ d ++ a ++ b ++ k ++ c ++ f : Word32).extractLsb' 7 3) = k := by
  show BitVec.extractLsb' (n := 1+6+5+5+5+3+2+5) 7 3 (1#1 ++ m ++ d ++ a ++ b ++ k ++ c ++ f) = _
  simp (disch := decide) only [exHi, exLo, exSelf, gHi, gLo, gBit, Nat.reduceSub]
theorem encVw_c (m : BitVec 6) (d a b : BitVec 5) (k : BitVec 3) (c : BitVec 2) (f : BitVec 5) : ((1#1 ++ m ++ d ++ a ++ b ++ k ++ c ++ f : Word32).extractLsb' 5 2) = c := by
  show BitVec.extractLsb' (n := 1+6+5+5+5+3+2+5) 5 2 (1#1 ++ m ++ d ++ a ++ b ++ k ++ c ++ f) = _
  simp (disch := decide) only [exHi, exLo, exSelf, gHi, gLo, gBit, Nat.reduceSub]
theorem encVw_f (m : BitVec 6) (d a b : BitVec 5) (k : BitVec 3) (c : BitVec 2) (f : BitVec 5) : ((1#1 ++ m ++ d ++ a ++ b ++ k ++ c ++ f : Word32).extractLsb' 0 5) = f := by
  show BitVec.extractLsb' (n := 1+6+5+5+5+3+2+5) 0 5 (1#1 ++ m ++ d ++ a ++ b ++ k ++ c ++ f) = _
  simp (disch := decide) only [exHi, exLo, exSelf, gHi, gLo, gBit, Nat.reduceSub]
theorem encVw_31 (m : BitVec 6) (d a b : BitVec 5) (k : BitVec 3) (c : BitVec 2) (f : BitVec 5) : ((1#1 ++ m ++ d ++ a ++ b ++ k ++ c ++ f : Word32).getLsbD 31) = true := by
  show BitVec.getLsbD (w := 1+6+5+5+5+3+2+5) (1#1 ++ m ++ d ++ a ++ b ++ k ++ c ++ f) 31 = _
  simp (disch := decide) only [exHi, exLo, exSelf, gHi, gLo, gBit, Nat.reduceSub]; decide
theorem encCq_m (m d : BitVec 6) (x : BitVec 3) (b : BitVec 1) : ((1#1 ++ m ++ d ++ x ++ (0#15 ++ b) : Word32).extractLsb' 25 6) = m := by
  show BitVec.extractLsb' (n := 1+6+6+3+(15+1)) 25 6 (1#1 ++ m ++ d ++ x ++ (0#15 ++ b)) = _
  simp (disch := decide) only [exHi, exLo, exSelf, gHi, gLo, gBit, Nat.reduceSub]
  exact exSelf _
theorem encCq_d (m d : BitVec 6) (x : BitVec 3) (b : BitVec 1) : ((1#1 ++ m ++ d ++ x ++ (0#15 ++ b) : Word32).extractLsb' 19 6) = d := by
  show BitVec.extractLsb' (n := 1+6+6+3+(15+1)) 19 6 (1#1 ++ m ++ d ++ x ++ (0#15 ++ b)) = _
  simp (disch := decide) only [exHi, exLo, exSelf, gHi, gLo, gBit, Nat.reduceSub]
  exact exSelf _
theorem encCq_x (m d : BitVec 6) (x : BitVec 3) (b : BitVec 1) : ((1#1 ++ m ++ d ++ x ++ (0#15 ++ b) : Word32).extractLsb' 16 3) = x := by
  show BitVec.extractLsb' (n := 1+6+6+3+(15+1)) 16 3 (1#1 ++ m ++ d ++ x ++ (0#15 ++ b)) = _
  simp (disch := decide) only [exHi, exLo, exSelf, gHi, gLo, gBit, Nat.reduceSub]
  exact exSelf _
theorem encCq_31 (m d : BitVec 6) (x : BitVec 3) (b : BitVec 1) : ((1#1 ++ m ++ d ++ x ++ (0#15 ++ b) : Word32).getLsbD 31) = true := by
  show BitVec.getLsbD (w := 1+6+6+3+(15+1)) (1#1 ++ m ++ d ++ x ++ (0#15 ++ b)) 31 = _
  simp (disch := decide) only [exHi, exLo, exSelf, gHi, gLo, gBit, Nat.reduceSub]; decide
theorem encCq_z (m d : BitVec 6) (x : BitVec 3) (b : BitVec 1) : ((1#1 ++ m ++ d ++ x ++ (0#15 ++ b) : Word32).extractLsb' 1 15) = 0#15 := by
  show BitVec.extractLsb' (n := 1+6+6+3+(15+1)) 1 15 (1#1 ++ m ++ d ++ x ++ (0#15 ++ b)) = _
  simp (disch := decide) only [exHi, exLo, exSelf, gHi, gLo, gBit, Nat.reduceSub]
theorem encCq_b (m d : BitVec 6) (x : BitVec 3) (b : BitVec 1) : ((1#1 ++ m ++ d ++ x ++ (0#15 ++ b) : Word32).getLsbD 0) = b.getLsbD 0 := by
  show BitVec.getLsbD (w := 1+6+6+3+(15+1)) (1#1 ++ m ++ d ++ x ++ (0#15 ++ b)) 0 = _
  simp (disch := decide) only [exHi, exLo, exSelf, gHi, gLo, gBit, Nat.reduceSub]
theorem encCopy_m (m d : BitVec 6) (x : BitVec 3) (t : Bool) (q : BitVec 2) (r : BitVec 4) (c : BitVec 2) : ((1#1 ++ m ++ d ++ x ++ (0#7 ++ bit t ++ q ++ r ++ c) : Word32).extractLsb' 25 6) = m := by
  show BitVec.extractLsb' (n := 1+6+6+3+(7+1+2+4+2)) 25 6 (1#1 ++ m ++ d ++ x ++ (0#7 ++ bit t ++ q ++ r ++ c)) = _
  simp (disch := decide) only [exHi, exLo, exSelf, gHi, gLo, gBit, Nat.reduceSub]
  exact exSelf _
theorem encCopy_d (m d : BitVec 6) (x : BitVec 3) (t : Bool) (q : BitVec 2) (r : BitVec 4) (c : BitVec 2) : ((1#1 ++ m ++ d ++ x ++ (0#7 ++ bit t ++ q ++ r ++ c) : Word32).extractLsb' 19 6) = d := by
  show BitVec.extractLsb' (n := 1+6+6+3+(7+1+2+4+2)) 19 6 (1#1 ++ m ++ d ++ x ++ (0#7 ++ bit t ++ q ++ r ++ c)) = _
  simp (disch := decide) only [exHi, exLo, exSelf, gHi, gLo, gBit, Nat.reduceSub]
  exact exSelf _
theorem encCopy_x (m d : BitVec 6) (x : BitVec 3) (t : Bool) (q : BitVec 2) (r : BitVec 4) (c : BitVec 2) : ((1#1 ++ m ++ d ++ x ++ (0#7 ++ bit t ++ q ++ r ++ c) : Word32).extractLsb' 16 3) = x := by
  show BitVec.extractLsb' (n := 1+6+6+3+(7+1+2+4+2)) 16 3 (1#1 ++ m ++ d ++ x ++ (0#7 ++ bit t ++ q ++ r ++ c)) = _
  simp (disch := decide) only [exHi, exLo, exSelf, gHi, gLo, gBit, Nat.reduceSub]
  exact exSelf _
theorem encCopy_31 (m d : BitVec 6) (x : BitVec 3) (t : Bool) (q : BitVec 2) (r : BitVec 4) (c : BitVec 2) : ((1#1 ++ m ++ d ++ x ++ (0#7 ++ bit t ++ q ++ r ++ c) : Word32).getLsbD 31) = true := by
  show BitVec.getLsbD (w := 1+6+6+3+(7+1+2+4+2)) (1#1 ++ m ++ d ++ x ++ (0#7 ++ bit t ++ q ++ r ++ c)) 31 = _
  simp (disch := decide) only [exHi, exLo, exSelf, gHi, gLo, gBit, Nat.reduceSub]; decide
theorem encCopy_z (m d : BitVec 6) (x : BitVec 3) (t : Bool) (q : BitVec 2) (r : BitVec 4) (c : BitVec 2) : ((1#1 ++ m ++ d ++ x ++ (0#7 ++ bit t ++ q ++ r ++ c) : Word32).extractLsb' 9 7) = 0#7 := by
  show BitVec.extractLsb' (n := 1+6+6+3+(7+1+2+4+2)) 9 7 (1#1 ++ m ++ d ++ x ++ (0#7 ++ bit t ++ q ++ r ++ c)) = _
  simp (disch := decide) only [exHi, exLo, exSelf, gHi, gLo, gBit, Nat.reduceSub]
theorem encCopy_t (m d : BitVec 6) (x : BitVec 3) (t : Bool) (q : BitVec 2) (r : BitVec 4) (c : BitVec 2) : ((1#1 ++ m ++ d ++ x ++ (0#7 ++ bit t ++ q ++ r ++ c) : Word32).getLsbD 8) = t := by
  show BitVec.getLsbD (w := 1+6+6+3+(7+1+2+4+2)) (1#1 ++ m ++ d ++ x ++ (0#7 ++ bit t ++ q ++ r ++ c)) 8 = _
  simp (disch := decide) only [exHi, exLo, exSelf, gHi, gLo, gBit, Nat.reduceSub]
theorem encCopy_q (m d : BitVec 6) (x : BitVec 3) (t : Bool) (q : BitVec 2) (r : BitVec 4) (c : BitVec 2) : ((1#1 ++ m ++ d ++ x ++ (0#7 ++ bit t ++ q ++ r ++ c) : Word32).extractLsb' 6 2) = q := by
  show BitVec.extractLsb' (n := 1+6+6+3+(7+1+2+4+2)) 6 2 (1#1 ++ m ++ d ++ x ++ (0#7 ++ bit t ++ q ++ r ++ c)) = _
  simp (disch := decide) only [exHi, exLo, exSelf, gHi, gLo, gBit, Nat.reduceSub]
theorem encCopy_r (m d : BitVec 6) (x : BitVec 3) (t : Bool) (q : BitVec 2) (r : BitVec 4) (c : BitVec 2) : ((1#1 ++ m ++ d ++ x ++ (0#7 ++ bit t ++ q ++ r ++ c) : Word32).extractLsb' 2 4) = r := by
  show BitVec.extractLsb' (n := 1+6+6+3+(7+1+2+4+2)) 2 4 (1#1 ++ m ++ d ++ x ++ (0#7 ++ bit t ++ q ++ r ++ c)) = _
  simp (disch := decide) only [exHi, exLo, exSelf, gHi, gLo, gBit, Nat.reduceSub]
theorem encCopy_c (m d : BitVec 6) (x : BitVec 3) (t : Bool) (q : BitVec 2) (r : BitVec 4) (c : BitVec 2) : ((1#1 ++ m ++ d ++ x ++ (0#7 ++ bit t ++ q ++ r ++ c) : Word32).extractLsb' 0 2) = c := by
  show BitVec.extractLsb' (n := 1+6+6+3+(7+1+2+4+2)) 0 2 (1#1 ++ m ++ d ++ x ++ (0#7 ++ bit t ++ q ++ r ++ c)) = _
  simp (disch := decide) only [exHi, exLo, exSelf, gHi, gLo, gBit, Nat.reduceSub]
theorem encBwl_m (m d : BitVec 6) (x : BitVec 3) (g : BitVec 6) (q : BitVec 2) (s : BitVec 3) (t : Bool) : ((1#1 ++ m ++ d ++ x ++ (g ++ q ++ s ++ bit t ++ 0#4) : Word32).extractLsb' 25 6) = m := by
  show BitVec.extractLsb' (n := 1+6+6+3+(6+2+3+1+4)) 25 6 (1#1 ++ m ++ d ++ x ++ (g ++ q ++ s ++ bit t ++ 0#4)) = _
  simp (disch := decide) only [exHi, exLo, exSelf, gHi, gLo, gBit, Nat.reduceSub]
  exact exSelf _
theorem encBwl_d (m d : BitVec 6) (x : BitVec 3) (g : BitVec 6) (q : BitVec 2) (s : BitVec 3) (t : Bool) : ((1#1 ++ m ++ d ++ x ++ (g ++ q ++ s ++ bit t ++ 0#4) : Word32).extractLsb' 19 6) = d := by
  show BitVec.extractLsb' (n := 1+6+6+3+(6+2+3+1+4)) 19 6 (1#1 ++ m ++ d ++ x ++ (g ++ q ++ s ++ bit t ++ 0#4)) = _
  simp (disch := decide) only [exHi, exLo, exSelf, gHi, gLo, gBit, Nat.reduceSub]
  exact exSelf _
theorem encBwl_x (m d : BitVec 6) (x : BitVec 3) (g : BitVec 6) (q : BitVec 2) (s : BitVec 3) (t : Bool) : ((1#1 ++ m ++ d ++ x ++ (g ++ q ++ s ++ bit t ++ 0#4) : Word32).extractLsb' 16 3) = x := by
  show BitVec.extractLsb' (n := 1+6+6+3+(6+2+3+1+4)) 16 3 (1#1 ++ m ++ d ++ x ++ (g ++ q ++ s ++ bit t ++ 0#4)) = _
  simp (disch := decide) only [exHi, exLo, exSelf, gHi, gLo, gBit, Nat.reduceSub]
  exact exSelf _
theorem encBwl_31 (m d : BitVec 6) (x : BitVec 3) (g : BitVec 6) (q : BitVec 2) (s : BitVec 3) (t : Bool) : ((1#1 ++ m ++ d ++ x ++ (g ++ q ++ s ++ bit t ++ 0#4) : Word32).getLsbD 31) = true := by
  show BitVec.getLsbD (w := 1+6+6+3+(6+2+3+1+4)) (1#1 ++ m ++ d ++ x ++ (g ++ q ++ s ++ bit t ++ 0#4)) 31 = _
  simp (disch := decide) only [exHi, exLo, exSelf, gHi, gLo, gBit, Nat.reduceSub]; decide
theorem encBwl_g (m d : BitVec 6) (x : BitVec 3) (g : BitVec 6) (q : BitVec 2) (s : BitVec 3) (t : Bool) : ((1#1 ++ m ++ d ++ x ++ (g ++ q ++ s ++ bit t ++ 0#4) : Word32).extractLsb' 10 6) = g := by
  show BitVec.extractLsb' (n := 1+6+6+3+(6+2+3+1+4)) 10 6 (1#1 ++ m ++ d ++ x ++ (g ++ q ++ s ++ bit t ++ 0#4)) = _
  simp (disch := decide) only [exHi, exLo, exSelf, gHi, gLo, gBit, Nat.reduceSub]
theorem encBwl_q (m d : BitVec 6) (x : BitVec 3) (g : BitVec 6) (q : BitVec 2) (s : BitVec 3) (t : Bool) : ((1#1 ++ m ++ d ++ x ++ (g ++ q ++ s ++ bit t ++ 0#4) : Word32).extractLsb' 8 2) = q := by
  show BitVec.extractLsb' (n := 1+6+6+3+(6+2+3+1+4)) 8 2 (1#1 ++ m ++ d ++ x ++ (g ++ q ++ s ++ bit t ++ 0#4)) = _
  simp (disch := decide) only [exHi, exLo, exSelf, gHi, gLo, gBit, Nat.reduceSub]
theorem encBwl_s (m d : BitVec 6) (x : BitVec 3) (g : BitVec 6) (q : BitVec 2) (s : BitVec 3) (t : Bool) : ((1#1 ++ m ++ d ++ x ++ (g ++ q ++ s ++ bit t ++ 0#4) : Word32).extractLsb' 5 3) = s := by
  show BitVec.extractLsb' (n := 1+6+6+3+(6+2+3+1+4)) 5 3 (1#1 ++ m ++ d ++ x ++ (g ++ q ++ s ++ bit t ++ 0#4)) = _
  simp (disch := decide) only [exHi, exLo, exSelf, gHi, gLo, gBit, Nat.reduceSub]
theorem encBwl_t (m d : BitVec 6) (x : BitVec 3) (g : BitVec 6) (q : BitVec 2) (s : BitVec 3) (t : Bool) : ((1#1 ++ m ++ d ++ x ++ (g ++ q ++ s ++ bit t ++ 0#4) : Word32).getLsbD 4) = t := by
  show BitVec.getLsbD (w := 1+6+6+3+(6+2+3+1+4)) (1#1 ++ m ++ d ++ x ++ (g ++ q ++ s ++ bit t ++ 0#4)) 4 = _
  simp (disch := decide) only [exHi, exLo, exSelf, gHi, gLo, gBit, Nat.reduceSub]
theorem encBwl_z (m d : BitVec 6) (x : BitVec 3) (g : BitVec 6) (q : BitVec 2) (s : BitVec 3) (t : Bool) : ((1#1 ++ m ++ d ++ x ++ (g ++ q ++ s ++ bit t ++ 0#4) : Word32).extractLsb' 0 4) = 0#4 := by
  show BitVec.extractLsb' (n := 1+6+6+3+(6+2+3+1+4)) 0 4 (1#1 ++ m ++ d ++ x ++ (g ++ q ++ s ++ bit t ++ 0#4)) = _
  simp (disch := decide) only [exHi, exLo, exSelf, gHi, gLo, gBit, Nat.reduceSub]
theorem encBmm_m (m d : BitVec 6) (x : BitVec 3) (g : BitVec 6) (q : BitVec 2) (s : BitVec 3) (n : BitVec 2) (t : Bool) : ((1#1 ++ m ++ d ++ x ++ (g ++ q ++ s ++ n ++ bit t ++ 0#2) : Word32).extractLsb' 25 6) = m := by
  show BitVec.extractLsb' (n := 1+6+6+3+(6+2+3+2+1+2)) 25 6 (1#1 ++ m ++ d ++ x ++ (g ++ q ++ s ++ n ++ bit t ++ 0#2)) = _
  simp (disch := decide) only [exHi, exLo, exSelf, gHi, gLo, gBit, Nat.reduceSub]
  exact exSelf _
theorem encBmm_d (m d : BitVec 6) (x : BitVec 3) (g : BitVec 6) (q : BitVec 2) (s : BitVec 3) (n : BitVec 2) (t : Bool) : ((1#1 ++ m ++ d ++ x ++ (g ++ q ++ s ++ n ++ bit t ++ 0#2) : Word32).extractLsb' 19 6) = d := by
  show BitVec.extractLsb' (n := 1+6+6+3+(6+2+3+2+1+2)) 19 6 (1#1 ++ m ++ d ++ x ++ (g ++ q ++ s ++ n ++ bit t ++ 0#2)) = _
  simp (disch := decide) only [exHi, exLo, exSelf, gHi, gLo, gBit, Nat.reduceSub]
  exact exSelf _
theorem encBmm_x (m d : BitVec 6) (x : BitVec 3) (g : BitVec 6) (q : BitVec 2) (s : BitVec 3) (n : BitVec 2) (t : Bool) : ((1#1 ++ m ++ d ++ x ++ (g ++ q ++ s ++ n ++ bit t ++ 0#2) : Word32).extractLsb' 16 3) = x := by
  show BitVec.extractLsb' (n := 1+6+6+3+(6+2+3+2+1+2)) 16 3 (1#1 ++ m ++ d ++ x ++ (g ++ q ++ s ++ n ++ bit t ++ 0#2)) = _
  simp (disch := decide) only [exHi, exLo, exSelf, gHi, gLo, gBit, Nat.reduceSub]
  exact exSelf _
theorem encBmm_31 (m d : BitVec 6) (x : BitVec 3) (g : BitVec 6) (q : BitVec 2) (s : BitVec 3) (n : BitVec 2) (t : Bool) : ((1#1 ++ m ++ d ++ x ++ (g ++ q ++ s ++ n ++ bit t ++ 0#2) : Word32).getLsbD 31) = true := by
  show BitVec.getLsbD (w := 1+6+6+3+(6+2+3+2+1+2)) (1#1 ++ m ++ d ++ x ++ (g ++ q ++ s ++ n ++ bit t ++ 0#2)) 31 = _
  simp (disch := decide) only [exHi, exLo, exSelf, gHi, gLo, gBit, Nat.reduceSub]; decide
theorem encBmm_g (m d : BitVec 6) (x : BitVec 3) (g : BitVec 6) (q : BitVec 2) (s : BitVec 3) (n : BitVec 2) (t : Bool) : ((1#1 ++ m ++ d ++ x ++ (g ++ q ++ s ++ n ++ bit t ++ 0#2) : Word32).extractLsb' 10 6) = g := by
  show BitVec.extractLsb' (n := 1+6+6+3+(6+2+3+2+1+2)) 10 6 (1#1 ++ m ++ d ++ x ++ (g ++ q ++ s ++ n ++ bit t ++ 0#2)) = _
  simp (disch := decide) only [exHi, exLo, exSelf, gHi, gLo, gBit, Nat.reduceSub]
theorem encBmm_q (m d : BitVec 6) (x : BitVec 3) (g : BitVec 6) (q : BitVec 2) (s : BitVec 3) (n : BitVec 2) (t : Bool) : ((1#1 ++ m ++ d ++ x ++ (g ++ q ++ s ++ n ++ bit t ++ 0#2) : Word32).extractLsb' 8 2) = q := by
  show BitVec.extractLsb' (n := 1+6+6+3+(6+2+3+2+1+2)) 8 2 (1#1 ++ m ++ d ++ x ++ (g ++ q ++ s ++ n ++ bit t ++ 0#2)) = _
  simp (disch := decide) only [exHi, exLo, exSelf, gHi, gLo, gBit, Nat.reduceSub]
theorem encBmm_s (m d : BitVec 6) (x : BitVec 3) (g : BitVec 6) (q : BitVec 2) (s : BitVec 3) (n : BitVec 2) (t : Bool) : ((1#1 ++ m ++ d ++ x ++ (g ++ q ++ s ++ n ++ bit t ++ 0#2) : Word32).extractLsb' 5 3) = s := by
  show BitVec.extractLsb' (n := 1+6+6+3+(6+2+3+2+1+2)) 5 3 (1#1 ++ m ++ d ++ x ++ (g ++ q ++ s ++ n ++ bit t ++ 0#2)) = _
  simp (disch := decide) only [exHi, exLo, exSelf, gHi, gLo, gBit, Nat.reduceSub]
theorem encBmm_n (m d : BitVec 6) (x : BitVec 3) (g : BitVec 6) (q : BitVec 2) (s : BitVec 3) (n : BitVec 2) (t : Bool) : ((1#1 ++ m ++ d ++ x ++ (g ++ q ++ s ++ n ++ bit t ++ 0#2) : Word32).extractLsb' 3 2) = n := by
  show BitVec.extractLsb' (n := 1+6+6+3+(6+2+3+2+1+2)) 3 2 (1#1 ++ m ++ d ++ x ++ (g ++ q ++ s ++ n ++ bit t ++ 0#2)) = _
  simp (disch := decide) only [exHi, exLo, exSelf, gHi, gLo, gBit, Nat.reduceSub]
theorem encBmm_t (m d : BitVec 6) (x : BitVec 3) (g : BitVec 6) (q : BitVec 2) (s : BitVec 3) (n : BitVec 2) (t : Bool) : ((1#1 ++ m ++ d ++ x ++ (g ++ q ++ s ++ n ++ bit t ++ 0#2) : Word32).getLsbD 2) = t := by
  show BitVec.getLsbD (w := 1+6+6+3+(6+2+3+2+1+2)) (1#1 ++ m ++ d ++ x ++ (g ++ q ++ s ++ n ++ bit t ++ 0#2)) 2 = _
  simp (disch := decide) only [exHi, exLo, exSelf, gHi, gLo, gBit, Nat.reduceSub]
theorem encBmm_z (m d : BitVec 6) (x : BitVec 3) (g : BitVec 6) (q : BitVec 2) (s : BitVec 3) (n : BitVec 2) (t : Bool) : ((1#1 ++ m ++ d ++ x ++ (g ++ q ++ s ++ n ++ bit t ++ 0#2) : Word32).extractLsb' 0 2) = 0#2 := by
  show BitVec.extractLsb' (n := 1+6+6+3+(6+2+3+2+1+2)) 0 2 (1#1 ++ m ++ d ++ x ++ (g ++ q ++ s ++ n ++ bit t ++ 0#2)) = _
  simp (disch := decide) only [exHi, exLo, exSelf, gHi, gLo, gBit, Nat.reduceSub]
theorem encBdr_m (m d : BitVec 6) (x : BitVec 3) (g : BitVec 6) (q : BitVec 2) (c r : Bool) (k : BitVec 1) (n : BitVec 2) (o t : Bool) : ((1#1 ++ m ++ d ++ x ++ (g ++ q ++ bit c ++ bit r ++ k ++ n ++ bit o ++ bit t ++ 0#1) : Word32).extractLsb' 25 6) = m := by
  show BitVec.extractLsb' (n := 1+6+6+3+(6+2+1+1+1+2+1+1+1)) 25 6 (1#1 ++ m ++ d ++ x ++ (g ++ q ++ bit c ++ bit r ++ k ++ n ++ bit o ++ bit t ++ 0#1)) = _
  simp (disch := decide) only [exHi, exLo, exSelf, gHi, gLo, gBit, Nat.reduceSub]
  exact exSelf _
theorem encBdr_d (m d : BitVec 6) (x : BitVec 3) (g : BitVec 6) (q : BitVec 2) (c r : Bool) (k : BitVec 1) (n : BitVec 2) (o t : Bool) : ((1#1 ++ m ++ d ++ x ++ (g ++ q ++ bit c ++ bit r ++ k ++ n ++ bit o ++ bit t ++ 0#1) : Word32).extractLsb' 19 6) = d := by
  show BitVec.extractLsb' (n := 1+6+6+3+(6+2+1+1+1+2+1+1+1)) 19 6 (1#1 ++ m ++ d ++ x ++ (g ++ q ++ bit c ++ bit r ++ k ++ n ++ bit o ++ bit t ++ 0#1)) = _
  simp (disch := decide) only [exHi, exLo, exSelf, gHi, gLo, gBit, Nat.reduceSub]
  exact exSelf _
theorem encBdr_x (m d : BitVec 6) (x : BitVec 3) (g : BitVec 6) (q : BitVec 2) (c r : Bool) (k : BitVec 1) (n : BitVec 2) (o t : Bool) : ((1#1 ++ m ++ d ++ x ++ (g ++ q ++ bit c ++ bit r ++ k ++ n ++ bit o ++ bit t ++ 0#1) : Word32).extractLsb' 16 3) = x := by
  show BitVec.extractLsb' (n := 1+6+6+3+(6+2+1+1+1+2+1+1+1)) 16 3 (1#1 ++ m ++ d ++ x ++ (g ++ q ++ bit c ++ bit r ++ k ++ n ++ bit o ++ bit t ++ 0#1)) = _
  simp (disch := decide) only [exHi, exLo, exSelf, gHi, gLo, gBit, Nat.reduceSub]
  exact exSelf _
theorem encBdr_31 (m d : BitVec 6) (x : BitVec 3) (g : BitVec 6) (q : BitVec 2) (c r : Bool) (k : BitVec 1) (n : BitVec 2) (o t : Bool) : ((1#1 ++ m ++ d ++ x ++ (g ++ q ++ bit c ++ bit r ++ k ++ n ++ bit o ++ bit t ++ 0#1) : Word32).getLsbD 31) = true := by
  show BitVec.getLsbD (w := 1+6+6+3+(6+2+1+1+1+2+1+1+1)) (1#1 ++ m ++ d ++ x ++ (g ++ q ++ bit c ++ bit r ++ k ++ n ++ bit o ++ bit t ++ 0#1)) 31 = _
  simp (disch := decide) only [exHi, exLo, exSelf, gHi, gLo, gBit, Nat.reduceSub]; decide
theorem encBdr_g (m d : BitVec 6) (x : BitVec 3) (g : BitVec 6) (q : BitVec 2) (c r : Bool) (k : BitVec 1) (n : BitVec 2) (o t : Bool) : ((1#1 ++ m ++ d ++ x ++ (g ++ q ++ bit c ++ bit r ++ k ++ n ++ bit o ++ bit t ++ 0#1) : Word32).extractLsb' 10 6) = g := by
  show BitVec.extractLsb' (n := 1+6+6+3+(6+2+1+1+1+2+1+1+1)) 10 6 (1#1 ++ m ++ d ++ x ++ (g ++ q ++ bit c ++ bit r ++ k ++ n ++ bit o ++ bit t ++ 0#1)) = _
  simp (disch := decide) only [exHi, exLo, exSelf, gHi, gLo, gBit, Nat.reduceSub]
theorem encBdr_q (m d : BitVec 6) (x : BitVec 3) (g : BitVec 6) (q : BitVec 2) (c r : Bool) (k : BitVec 1) (n : BitVec 2) (o t : Bool) : ((1#1 ++ m ++ d ++ x ++ (g ++ q ++ bit c ++ bit r ++ k ++ n ++ bit o ++ bit t ++ 0#1) : Word32).extractLsb' 8 2) = q := by
  show BitVec.extractLsb' (n := 1+6+6+3+(6+2+1+1+1+2+1+1+1)) 8 2 (1#1 ++ m ++ d ++ x ++ (g ++ q ++ bit c ++ bit r ++ k ++ n ++ bit o ++ bit t ++ 0#1)) = _
  simp (disch := decide) only [exHi, exLo, exSelf, gHi, gLo, gBit, Nat.reduceSub]
theorem encBdr_c (m d : BitVec 6) (x : BitVec 3) (g : BitVec 6) (q : BitVec 2) (c r : Bool) (k : BitVec 1) (n : BitVec 2) (o t : Bool) : ((1#1 ++ m ++ d ++ x ++ (g ++ q ++ bit c ++ bit r ++ k ++ n ++ bit o ++ bit t ++ 0#1) : Word32).getLsbD 7) = c := by
  show BitVec.getLsbD (w := 1+6+6+3+(6+2+1+1+1+2+1+1+1)) (1#1 ++ m ++ d ++ x ++ (g ++ q ++ bit c ++ bit r ++ k ++ n ++ bit o ++ bit t ++ 0#1)) 7 = _
  simp (disch := decide) only [exHi, exLo, exSelf, gHi, gLo, gBit, Nat.reduceSub]
theorem encBdr_r (m d : BitVec 6) (x : BitVec 3) (g : BitVec 6) (q : BitVec 2) (c r : Bool) (k : BitVec 1) (n : BitVec 2) (o t : Bool) : ((1#1 ++ m ++ d ++ x ++ (g ++ q ++ bit c ++ bit r ++ k ++ n ++ bit o ++ bit t ++ 0#1) : Word32).getLsbD 6) = r := by
  show BitVec.getLsbD (w := 1+6+6+3+(6+2+1+1+1+2+1+1+1)) (1#1 ++ m ++ d ++ x ++ (g ++ q ++ bit c ++ bit r ++ k ++ n ++ bit o ++ bit t ++ 0#1)) 6 = _
  simp (disch := decide) only [exHi, exLo, exSelf, gHi, gLo, gBit, Nat.reduceSub]
theorem encBdr_k (m d : BitVec 6) (x : BitVec 3) (g : BitVec 6) (q : BitVec 2) (c r : Bool) (k : BitVec 1) (n : BitVec 2) (o t : Bool) : ((1#1 ++ m ++ d ++ x ++ (g ++ q ++ bit c ++ bit r ++ k ++ n ++ bit o ++ bit t ++ 0#1) : Word32).getLsbD 5) = k.getLsbD 0 := by
  show BitVec.getLsbD (w := 1+6+6+3+(6+2+1+1+1+2+1+1+1)) (1#1 ++ m ++ d ++ x ++ (g ++ q ++ bit c ++ bit r ++ k ++ n ++ bit o ++ bit t ++ 0#1)) 5 = _
  simp (disch := decide) only [exHi, exLo, exSelf, gHi, gLo, gBit, Nat.reduceSub]
theorem encBdr_n (m d : BitVec 6) (x : BitVec 3) (g : BitVec 6) (q : BitVec 2) (c r : Bool) (k : BitVec 1) (n : BitVec 2) (o t : Bool) : ((1#1 ++ m ++ d ++ x ++ (g ++ q ++ bit c ++ bit r ++ k ++ n ++ bit o ++ bit t ++ 0#1) : Word32).extractLsb' 3 2) = n := by
  show BitVec.extractLsb' (n := 1+6+6+3+(6+2+1+1+1+2+1+1+1)) 3 2 (1#1 ++ m ++ d ++ x ++ (g ++ q ++ bit c ++ bit r ++ k ++ n ++ bit o ++ bit t ++ 0#1)) = _
  simp (disch := decide) only [exHi, exLo, exSelf, gHi, gLo, gBit, Nat.reduceSub]
theorem encBdr_o (m d : BitVec 6) (x : BitVec 3) (g : BitVec 6) (q : BitVec 2) (c r : Bool) (k : BitVec 1) (n : BitVec 2) (o t : Bool) : ((1#1 ++ m ++ d ++ x ++ (g ++ q ++ bit c ++ bit r ++ k ++ n ++ bit o ++ bit t ++ 0#1) : Word32).getLsbD 2) = o := by
  show BitVec.getLsbD (w := 1+6+6+3+(6+2+1+1+1+2+1+1+1)) (1#1 ++ m ++ d ++ x ++ (g ++ q ++ bit c ++ bit r ++ k ++ n ++ bit o ++ bit t ++ 0#1)) 2 = _
  simp (disch := decide) only [exHi, exLo, exSelf, gHi, gLo, gBit, Nat.reduceSub]
theorem encBdr_t (m d : BitVec 6) (x : BitVec 3) (g : BitVec 6) (q : BitVec 2) (c r : Bool) (k : BitVec 1) (n : BitVec 2) (o t : Bool) : ((1#1 ++ m ++ d ++ x ++ (g ++ q ++ bit c ++ bit r ++ k ++ n ++ bit o ++ bit t ++ 0#1) : Word32).getLsbD 1) = t := by
  show BitVec.getLsbD (w := 1+6+6+3+(6+2+1+1+1+2+1+1+1)) (1#1 ++ m ++ d ++ x ++ (g ++ q ++ bit c ++ bit r ++ k ++ n ++ bit o ++ bit t ++ 0#1)) 1 = _
  simp (disch := decide) only [exHi, exLo, exSelf, gHi, gLo, gBit, Nat.reduceSub]
theorem encBdr_z (m d : BitVec 6) (x : BitVec 3) (g : BitVec 6) (q : BitVec 2) (c r : Bool) (k : BitVec 1) (n : BitVec 2) (o t : Bool) : ((1#1 ++ m ++ d ++ x ++ (g ++ q ++ bit c ++ bit r ++ k ++ n ++ bit o ++ bit t ++ 0#1) : Word32).getLsbD 0) = false := by
  show BitVec.getLsbD (w := 1+6+6+3+(6+2+1+1+1+2+1+1+1)) (1#1 ++ m ++ d ++ x ++ (g ++ q ++ bit c ++ bit r ++ k ++ n ++ bit o ++ bit t ++ 0#1)) 0 = _
  simp (disch := decide) only [exHi, exLo, exSelf, gHi, gLo, gBit, Nat.reduceSub]; decide
theorem p443_15 (c : BitVec 4) (d a : BitVec 4) (o : BitVec 3) : ((0#1 ++ c ++ (d ++ a ++ o : BitVec 11) : Parcel).getLsbD 15) = false := by
  show BitVec.getLsbD (w := 1+4+(4+4+3)) (0#1 ++ c ++ (d ++ a ++ o)) 15 = _
  simp (disch := decide) only [exHi, exLo, exSelf, gHi, gLo, gBit, Nat.reduceSub]; decide
theorem p443_op (c : BitVec 4) (d a : BitVec 4) (o : BitVec 3) : ((0#1 ++ c ++ (d ++ a ++ o : BitVec 11) : Parcel).extractLsb' 11 4) = c := by
  show BitVec.extractLsb' (n := 1+4+(4+4+3)) 11 4 (0#1 ++ c ++ (d ++ a ++ o)) = _
  simp (disch := decide) only [exHi, exLo, exSelf, gHi, gLo, gBit, Nat.reduceSub]
  exact exSelf _
theorem p443_d (c : BitVec 4) (d a : BitVec 4) (o : BitVec 3) : ((0#1 ++ c ++ (d ++ a ++ o : BitVec 11) : Parcel).extractLsb' 7 4) = d := by
  show BitVec.extractLsb' (n := 1+4+(4+4+3)) 7 4 (0#1 ++ c ++ (d ++ a ++ o)) = _
  simp (disch := decide) only [exHi, exLo, exSelf, gHi, gLo, gBit, Nat.reduceSub]
theorem p443_a (c : BitVec 4) (d a : BitVec 4) (o : BitVec 3) : ((0#1 ++ c ++ (d ++ a ++ o : BitVec 11) : Parcel).extractLsb' 3 4) = a := by
  show BitVec.extractLsb' (n := 1+4+(4+4+3)) 3 4 (0#1 ++ c ++ (d ++ a ++ o)) = _
  simp (disch := decide) only [exHi, exLo, exSelf, gHi, gLo, gBit, Nat.reduceSub]
theorem p443_o (c : BitVec 4) (d a : BitVec 4) (o : BitVec 3) : ((0#1 ++ c ++ (d ++ a ++ o : BitVec 11) : Parcel).extractLsb' 0 3) = o := by
  show BitVec.extractLsb' (n := 1+4+(4+4+3)) 0 3 (0#1 ++ c ++ (d ++ a ++ o)) = _
  simp (disch := decide) only [exHi, exLo, exSelf, gHi, gLo, gBit, Nat.reduceSub]
theorem p47_15 (c : BitVec 4) (d : BitVec 4) (i : BitVec 7) : ((0#1 ++ c ++ (d ++ i : BitVec 11) : Parcel).getLsbD 15) = false := by
  show BitVec.getLsbD (w := 1+4+(4+7)) (0#1 ++ c ++ (d ++ i)) 15 = _
  simp (disch := decide) only [exHi, exLo, exSelf, gHi, gLo, gBit, Nat.reduceSub]; decide
theorem p47_op (c : BitVec 4) (d : BitVec 4) (i : BitVec 7) : ((0#1 ++ c ++ (d ++ i : BitVec 11) : Parcel).extractLsb' 11 4) = c := by
  show BitVec.extractLsb' (n := 1+4+(4+7)) 11 4 (0#1 ++ c ++ (d ++ i)) = _
  simp (disch := decide) only [exHi, exLo, exSelf, gHi, gLo, gBit, Nat.reduceSub]
  exact exSelf _
theorem p47_d (c : BitVec 4) (d : BitVec 4) (i : BitVec 7) : ((0#1 ++ c ++ (d ++ i : BitVec 11) : Parcel).extractLsb' 7 4) = d := by
  show BitVec.extractLsb' (n := 1+4+(4+7)) 7 4 (0#1 ++ c ++ (d ++ i)) = _
  simp (disch := decide) only [exHi, exLo, exSelf, gHi, gLo, gBit, Nat.reduceSub]
theorem p47_i (c : BitVec 4) (d : BitVec 4) (i : BitVec 7) : ((0#1 ++ c ++ (d ++ i : BitVec 11) : Parcel).extractLsb' 0 7) = i := by
  show BitVec.extractLsb' (n := 1+4+(4+7)) 0 7 (0#1 ++ c ++ (d ++ i)) = _
  simp (disch := decide) only [exHi, exLo, exSelf, gHi, gLo, gBit, Nat.reduceSub]
theorem p47_i6 (c : BitVec 4) (d : BitVec 4) (i : BitVec 7) : ((0#1 ++ c ++ (d ++ i : BitVec 11) : Parcel).extractLsb' 0 6) = i.extractLsb' 0 6 := by
  show BitVec.extractLsb' (n := 1+4+(4+7)) 0 6 (0#1 ++ c ++ (d ++ i)) = _
  simp (disch := decide) only [exHi, exLo, exSelf, gHi, gLo, gBit, Nat.reduceSub]
theorem p47_b6 (c : BitVec 4) (d : BitVec 4) (i : BitVec 7) : ((0#1 ++ c ++ (d ++ i : BitVec 11) : Parcel).getLsbD 6) = i.getLsbD 6 := by
  show BitVec.getLsbD (w := 1+4+(4+7)) (0#1 ++ c ++ (d ++ i)) 6 = _
  simp (disch := decide) only [exHi, exLo, exSelf, gHi, gLo, gBit, Nat.reduceSub]
theorem p11_15 (c : BitVec 4) (o : BitVec 11) : ((0#1 ++ c ++ (o : BitVec 11) : Parcel).getLsbD 15) = false := by
  show BitVec.getLsbD (w := 1+4+(11)) (0#1 ++ c ++ (o)) 15 = _
  simp (disch := decide) only [exHi, exLo, exSelf, gHi, gLo, gBit, Nat.reduceSub]; decide
theorem p11_op (c : BitVec 4) (o : BitVec 11) : ((0#1 ++ c ++ (o : BitVec 11) : Parcel).extractLsb' 11 4) = c := by
  show BitVec.extractLsb' (n := 1+4+(11)) 11 4 (0#1 ++ c ++ (o)) = _
  simp (disch := decide) only [exHi, exLo, exSelf, gHi, gLo, gBit, Nat.reduceSub]
theorem p11_o (c : BitVec 4) (o : BitVec 11) : ((0#1 ++ c ++ (o : BitVec 11) : Parcel).extractLsb' 0 11) = o := by
  show BitVec.extractLsb' (n := 1+4+(11)) 0 11 (0#1 ++ c ++ (o)) = _
  simp (disch := decide) only [exHi, exLo, exSelf, gHi, gLo, gBit, Nat.reduceSub]
theorem p425_15 (c : BitVec 4) (d : BitVec 4) (s : BitVec 2) (n : BitVec 5) : ((0#1 ++ c ++ (d ++ s ++ n : BitVec 11) : Parcel).getLsbD 15) = false := by
  show BitVec.getLsbD (w := 1+4+(4+2+5)) (0#1 ++ c ++ (d ++ s ++ n)) 15 = _
  simp (disch := decide) only [exHi, exLo, exSelf, gHi, gLo, gBit, Nat.reduceSub]; decide
theorem p425_op (c : BitVec 4) (d : BitVec 4) (s : BitVec 2) (n : BitVec 5) : ((0#1 ++ c ++ (d ++ s ++ n : BitVec 11) : Parcel).extractLsb' 11 4) = c := by
  show BitVec.extractLsb' (n := 1+4+(4+2+5)) 11 4 (0#1 ++ c ++ (d ++ s ++ n)) = _
  simp (disch := decide) only [exHi, exLo, exSelf, gHi, gLo, gBit, Nat.reduceSub]
  exact exSelf _
theorem p425_d (c : BitVec 4) (d : BitVec 4) (s : BitVec 2) (n : BitVec 5) : ((0#1 ++ c ++ (d ++ s ++ n : BitVec 11) : Parcel).extractLsb' 7 4) = d := by
  show BitVec.extractLsb' (n := 1+4+(4+2+5)) 7 4 (0#1 ++ c ++ (d ++ s ++ n)) = _
  simp (disch := decide) only [exHi, exLo, exSelf, gHi, gLo, gBit, Nat.reduceSub]
theorem p425_s (c : BitVec 4) (d : BitVec 4) (s : BitVec 2) (n : BitVec 5) : ((0#1 ++ c ++ (d ++ s ++ n : BitVec 11) : Parcel).extractLsb' 5 2) = s := by
  show BitVec.extractLsb' (n := 1+4+(4+2+5)) 5 2 (0#1 ++ c ++ (d ++ s ++ n)) = _
  simp (disch := decide) only [exHi, exLo, exSelf, gHi, gLo, gBit, Nat.reduceSub]
theorem p425_n (c : BitVec 4) (d : BitVec 4) (s : BitVec 2) (n : BitVec 5) : ((0#1 ++ c ++ (d ++ s ++ n : BitVec 11) : Parcel).extractLsb' 0 5) = n := by
  show BitVec.extractLsb' (n := 1+4+(4+2+5)) 0 5 (0#1 ++ c ++ (d ++ s ++ n)) = _
  simp (disch := decide) only [exHi, exLo, exSelf, gHi, gLo, gBit, Nat.reduceSub]
theorem p461_15 (c : BitVec 4) (m : BitVec 4) (n : BitVec 6) : ((0#1 ++ c ++ (m ++ n ++ 0#1 : BitVec 11) : Parcel).getLsbD 15) = false := by
  show BitVec.getLsbD (w := 1+4+(4+6+1)) (0#1 ++ c ++ (m ++ n ++ 0#1)) 15 = _
  simp (disch := decide) only [exHi, exLo, exSelf, gHi, gLo, gBit, Nat.reduceSub]; decide
theorem p461_op (c : BitVec 4) (m : BitVec 4) (n : BitVec 6) : ((0#1 ++ c ++ (m ++ n ++ 0#1 : BitVec 11) : Parcel).extractLsb' 11 4) = c := by
  show BitVec.extractLsb' (n := 1+4+(4+6+1)) 11 4 (0#1 ++ c ++ (m ++ n ++ 0#1)) = _
  simp (disch := decide) only [exHi, exLo, exSelf, gHi, gLo, gBit, Nat.reduceSub]
  exact exSelf _
theorem p461_m (c : BitVec 4) (m : BitVec 4) (n : BitVec 6) : ((0#1 ++ c ++ (m ++ n ++ 0#1 : BitVec 11) : Parcel).extractLsb' 7 4) = m := by
  show BitVec.extractLsb' (n := 1+4+(4+6+1)) 7 4 (0#1 ++ c ++ (m ++ n ++ 0#1)) = _
  simp (disch := decide) only [exHi, exLo, exSelf, gHi, gLo, gBit, Nat.reduceSub]
theorem p461_n (c : BitVec 4) (m : BitVec 4) (n : BitVec 6) : ((0#1 ++ c ++ (m ++ n ++ 0#1 : BitVec 11) : Parcel).extractLsb' 1 6) = n := by
  show BitVec.extractLsb' (n := 1+4+(4+6+1)) 1 6 (0#1 ++ c ++ (m ++ n ++ 0#1)) = _
  simp (disch := decide) only [exHi, exLo, exSelf, gHi, gLo, gBit, Nat.reduceSub]
theorem p461_z (c : BitVec 4) (m : BitVec 4) (n : BitVec 6) : ((0#1 ++ c ++ (m ++ n ++ 0#1 : BitVec 11) : Parcel).getLsbD 0) = false := by
  show BitVec.getLsbD (w := 1+4+(4+6+1)) (0#1 ++ c ++ (m ++ n ++ 0#1)) 0 = _
  simp (disch := decide) only [exHi, exLo, exSelf, gHi, gLo, gBit, Nat.reduceSub]; decide
theorem pfmt_15 (c : BitVec 4) (a b : BitVec 3) (x s : Bool) (p : BitVec 2) : ((0#1 ++ c ++ (a ++ b ++ bit x ++ bit s ++ p ++ 0#1 : BitVec 11) : Parcel).getLsbD 15) = false := by
  show BitVec.getLsbD (w := 1+4+(3+3+1+1+2+1)) (0#1 ++ c ++ (a ++ b ++ bit x ++ bit s ++ p ++ 0#1)) 15 = _
  simp (disch := decide) only [exHi, exLo, exSelf, gHi, gLo, gBit, Nat.reduceSub]; decide
theorem pfmt_op (c : BitVec 4) (a b : BitVec 3) (x s : Bool) (p : BitVec 2) : ((0#1 ++ c ++ (a ++ b ++ bit x ++ bit s ++ p ++ 0#1 : BitVec 11) : Parcel).extractLsb' 11 4) = c := by
  show BitVec.extractLsb' (n := 1+4+(3+3+1+1+2+1)) 11 4 (0#1 ++ c ++ (a ++ b ++ bit x ++ bit s ++ p ++ 0#1)) = _
  simp (disch := decide) only [exHi, exLo, exSelf, gHi, gLo, gBit, Nat.reduceSub]
  exact exSelf _
theorem pfmt_a (c : BitVec 4) (a b : BitVec 3) (x s : Bool) (p : BitVec 2) : ((0#1 ++ c ++ (a ++ b ++ bit x ++ bit s ++ p ++ 0#1 : BitVec 11) : Parcel).extractLsb' 8 3) = a := by
  show BitVec.extractLsb' (n := 1+4+(3+3+1+1+2+1)) 8 3 (0#1 ++ c ++ (a ++ b ++ bit x ++ bit s ++ p ++ 0#1)) = _
  simp (disch := decide) only [exHi, exLo, exSelf, gHi, gLo, gBit, Nat.reduceSub]
theorem pfmt_b (c : BitVec 4) (a b : BitVec 3) (x s : Bool) (p : BitVec 2) : ((0#1 ++ c ++ (a ++ b ++ bit x ++ bit s ++ p ++ 0#1 : BitVec 11) : Parcel).extractLsb' 5 3) = b := by
  show BitVec.extractLsb' (n := 1+4+(3+3+1+1+2+1)) 5 3 (0#1 ++ c ++ (a ++ b ++ bit x ++ bit s ++ p ++ 0#1)) = _
  simp (disch := decide) only [exHi, exLo, exSelf, gHi, gLo, gBit, Nat.reduceSub]
theorem pfmt_x (c : BitVec 4) (a b : BitVec 3) (x s : Bool) (p : BitVec 2) : ((0#1 ++ c ++ (a ++ b ++ bit x ++ bit s ++ p ++ 0#1 : BitVec 11) : Parcel).getLsbD 4) = x := by
  show BitVec.getLsbD (w := 1+4+(3+3+1+1+2+1)) (0#1 ++ c ++ (a ++ b ++ bit x ++ bit s ++ p ++ 0#1)) 4 = _
  simp (disch := decide) only [exHi, exLo, exSelf, gHi, gLo, gBit, Nat.reduceSub]
theorem pfmt_s (c : BitVec 4) (a b : BitVec 3) (x s : Bool) (p : BitVec 2) : ((0#1 ++ c ++ (a ++ b ++ bit x ++ bit s ++ p ++ 0#1 : BitVec 11) : Parcel).getLsbD 3) = s := by
  show BitVec.getLsbD (w := 1+4+(3+3+1+1+2+1)) (0#1 ++ c ++ (a ++ b ++ bit x ++ bit s ++ p ++ 0#1)) 3 = _
  simp (disch := decide) only [exHi, exLo, exSelf, gHi, gLo, gBit, Nat.reduceSub]
theorem pfmt_p (c : BitVec 4) (a b : BitVec 3) (x s : Bool) (p : BitVec 2) : ((0#1 ++ c ++ (a ++ b ++ bit x ++ bit s ++ p ++ 0#1 : BitVec 11) : Parcel).extractLsb' 1 2) = p := by
  show BitVec.extractLsb' (n := 1+4+(3+3+1+1+2+1)) 1 2 (0#1 ++ c ++ (a ++ b ++ bit x ++ bit s ++ p ++ 0#1)) = _
  simp (disch := decide) only [exHi, exLo, exSelf, gHi, gLo, gBit, Nat.reduceSub]
theorem pfmt_z (c : BitVec 4) (a b : BitVec 3) (x s : Bool) (p : BitVec 2) : ((0#1 ++ c ++ (a ++ b ++ bit x ++ bit s ++ p ++ 0#1 : BitVec 11) : Parcel).getLsbD 0) = false := by
  show BitVec.getLsbD (w := 1+4+(3+3+1+1+2+1)) (0#1 ++ c ++ (a ++ b ++ bit x ++ bit s ++ p ++ 0#1)) 0 = _
  simp (disch := decide) only [exHi, exLo, exSelf, gHi, gLo, gBit, Nat.reduceSub]; decide

/-! ### Each major of formats R and V -/

theorem decR_00 (d a b : BitVec 6) (f : BitVec 7) (rest : List Parcel) :
    decode (wordParcels (encR 0x0#6 d a b f) ++ rest) = Decoded.of (decode00 d a b f) := by
  refine (decode_word _ rest (encR_31 ..) ?_).trans ?_
  · simp only [literalWords, encR_m]; rfl
  · simp only [decode32, encR_m, encR_d, encR_a, encR_b, encR_f]; rfl

theorem decR_01 (d a b : BitVec 6) (f : BitVec 7) (rest : List Parcel) :
    decode (wordParcels (encR 0x1#6 d a b f) ++ rest) = Decoded.of (decode01 d a b f) := by
  refine (decode_word _ rest (encR_31 ..) ?_).trans ?_
  · simp only [literalWords, encR_m]; rfl
  · simp only [decode32, encR_m, encR_d, encR_a, encR_b, encR_f]; rfl

theorem decR_02 (d a b : BitVec 6) (f : BitVec 7) (rest : List Parcel) :
    decode (wordParcels (encR 0x2#6 d a b f) ++ rest) = Decoded.of (decode02 d a b f) := by
  refine (decode_word _ rest (encR_31 ..) ?_).trans ?_
  · simp only [literalWords, encR_m]; rfl
  · simp only [decode32, encR_m, encR_d, encR_a, encR_b, encR_f]; rfl

theorem decR_03 (d a b : BitVec 6) (f : BitVec 7) (rest : List Parcel) :
    decode (wordParcels (encR 0x3#6 d a b f) ++ rest) = Decoded.of (decode03 d a b f) := by
  refine (decode_word _ rest (encR_31 ..) ?_).trans ?_
  · simp only [literalWords, encR_m]; rfl
  · simp only [decode32, encR_m, encR_d, encR_a, encR_b, encR_f]; rfl

theorem decR_0D (d a b : BitVec 6) (f : BitVec 7) (rest : List Parcel) :
    decode (wordParcels (encR 0xD#6 d a b f) ++ rest) = Decoded.of (decode0D d a b f) := by
  refine (decode_word _ rest (encR_31 ..) ?_).trans ?_
  · simp only [literalWords, encR_m]; rfl
  · simp only [decode32, encR_m, encR_d, encR_a, encR_b, encR_f]; rfl

theorem decR_10 (d a b : BitVec 6) (f : BitVec 7) (rest : List Parcel) :
    decode (wordParcels (encR 0x10#6 d a b f) ++ rest) = Decoded.of (decode10 d a b f) := by
  refine (decode_word _ rest (encR_31 ..) ?_).trans ?_
  · simp only [literalWords, encR_m]; rfl
  · simp only [decode32, encR_m, encR_d, encR_a, encR_b, encR_f]; rfl

theorem decR_24 (d a b : BitVec 6) (f : BitVec 7) (rest : List Parcel) :
    decode (wordParcels (encR 0x24#6 d a b f) ++ rest) = Decoded.of (decode24 d a b f) := by
  refine (decode_word _ rest (encR_31 ..) ?_).trans ?_
  · simp only [literalWords, encR_m]; rfl
  · simp only [decode32, encR_m, encR_d, encR_a, encR_b, encR_f]; rfl

theorem decR_26 (d a b : BitVec 6) (f : BitVec 7) (rest : List Parcel) :
    decode (wordParcels (encR 0x26#6 d a b f) ++ rest) = Decoded.of (decode26 d a b f) := by
  refine (decode_word _ rest (encR_31 ..) ?_).trans ?_
  · simp only [literalWords, encR_m]; rfl
  · simp only [decode32, encR_m, encR_d, encR_a, encR_b, encR_f]; rfl

theorem decR_27 (d a b : BitVec 6) (f : BitVec 7) (rest : List Parcel) :
    decode (wordParcels (encR 0x27#6 d a b f) ++ rest) = Decoded.of (decode27 d a b f) := by
  refine (decode_word _ rest (encR_31 ..) ?_).trans ?_
  · simp only [literalWords, encR_m]; rfl
  · simp only [decode32, encR_m, encR_d, encR_a, encR_b, encR_f]; rfl

theorem decR_28 (d a b : BitVec 6) (f : BitVec 7) (rest : List Parcel) :
    decode (wordParcels (encR 0x28#6 d a b f) ++ rest) = Decoded.of (decode28 d a b f) := by
  refine (decode_word _ rest (encR_31 ..) ?_).trans ?_
  · simp only [literalWords, encR_m]; rfl
  · simp only [decode32, encR_m, encR_d, encR_a, encR_b, encR_f]; rfl

theorem decR_29 (d a b : BitVec 6) (f : BitVec 7) (rest : List Parcel) :
    decode (wordParcels (encR 0x29#6 d a b f) ++ rest) = Decoded.of (decode29 d a b f) := by
  refine (decode_word _ rest (encR_31 ..) ?_).trans ?_
  · simp only [literalWords, encR_m]; rfl
  · simp only [decode32, encR_m, encR_d, encR_a, encR_b, encR_f]; rfl

theorem decR_2A (d a b : BitVec 6) (f : BitVec 7) (rest : List Parcel) :
    decode (wordParcels (encR 0x2A#6 d a b f) ++ rest) = Decoded.of (decode2A d a b f) := by
  refine (decode_word _ rest (encR_31 ..) ?_).trans ?_
  · simp only [literalWords, encR_m]; rfl
  · simp only [decode32, encR_m, encR_d, encR_a, encR_b, encR_f]; rfl

theorem decR_2B (d a b : BitVec 6) (f : BitVec 7) (rest : List Parcel) :
    decode (wordParcels (encR 0x2B#6 d a b f) ++ rest) = Decoded.of (decode2B d a b f) := by
  refine (decode_word _ rest (encR_31 ..) ?_).trans ?_
  · simp only [literalWords, encR_m]; rfl
  · simp only [decode32, encR_m, encR_d, encR_a, encR_b, encR_f]; rfl

theorem decR_2C (d a b : BitVec 6) (f : BitVec 7) (rest : List Parcel) :
    decode (wordParcels (encR 0x2C#6 d a b f) ++ rest) = Decoded.of (decode2C d a b f) := by
  refine (decode_word _ rest (encR_31 ..) ?_).trans ?_
  · simp only [literalWords, encR_m]; rfl
  · simp only [decode32, encR_m, encR_d, encR_a, encR_b, encR_f]; rfl

theorem decR_2D (d a b : BitVec 6) (f : BitVec 7) (rest : List Parcel) :
    decode (wordParcels (encR 0x2D#6 d a b f) ++ rest) = Decoded.of (decode2D d a b f) := by
  refine (decode_word _ rest (encR_31 ..) ?_).trans ?_
  · simp only [literalWords, encR_m]; rfl
  · simp only [decode32, encR_m, encR_d, encR_a, encR_b, encR_f]; rfl

theorem decR_2E (d a b : BitVec 6) (f : BitVec 7) (rest : List Parcel) :
    decode (wordParcels (encR 0x2E#6 d a b f) ++ rest) = Decoded.of (decode2E d a b f) := by
  refine (decode_word _ rest (encR_31 ..) ?_).trans ?_
  · simp only [literalWords, encR_m]; rfl
  · simp only [decode32, encR_m, encR_d, encR_a, encR_b, encR_f]; rfl

theorem decR_2F (d a b : BitVec 6) (f : BitVec 7) (rest : List Parcel) :
    decode (wordParcels (encR 0x2F#6 d a b f) ++ rest) = Decoded.of (decode2F d a b f) := by
  refine (decode_word _ rest (encR_31 ..) ?_).trans ?_
  · simp only [literalWords, encR_m]; rfl
  · simp only [decode32, encR_m, encR_d, encR_a, encR_b, encR_f]; rfl

theorem decR_35 (d a b : BitVec 6) (f : BitVec 7) (rest : List Parcel) :
    decode (wordParcels (encR 0x35#6 d a b f) ++ rest) = Decoded.of (decode35 d a b f) := by
  refine (decode_word _ rest (encR_31 ..) ?_).trans ?_
  · simp only [literalWords, encR_m]; rfl
  · simp only [decode32, encR_m, encR_d, encR_a, encR_b, encR_f]; rfl

theorem decR_36 (d a b : BitVec 6) (f : BitVec 7) (rest : List Parcel) :
    decode (wordParcels (encR 0x36#6 d a b f) ++ rest) = Decoded.of (decode36 d a b f) := by
  refine (decode_word _ rest (encR_31 ..) ?_).trans ?_
  · simp only [literalWords, encR_m]; rfl
  · simp only [decode32, encR_m, encR_d, encR_a, encR_b, encR_f]; rfl

theorem decR_37 (d a b : BitVec 6) (f : BitVec 7) (rest : List Parcel) :
    decode (wordParcels (encR 0x37#6 d a b f) ++ rest) = Decoded.of (decode37 d a b f) := by
  refine (decode_word _ rest (encR_31 ..) ?_).trans ?_
  · simp only [literalWords, encR_m]; rfl
  · simp only [decode32, encR_m, encR_d, encR_a, encR_b, encR_f]; rfl

theorem decV_12 (v : VF) (f : BitVec 5) (rest : List Parcel) :
    decode (encV 0x12#6 v f ++ rest) = Decoded.of (decode12 v f) := by
  obtain ⟨d, a, b, k, s⟩ := v
  cases s
  · simp only [encV, VSrc.code, List.append_nil]
    refine (decode_word _ rest (encVw_31 ..) ?_).trans ?_
    · simp only [literalWords, encVw_m, encVw_c]; rfl
    · simp only [decode32, vfields, encVw_m, encVw_d, encVw_a, encVw_b, encVw_k, encVw_c, encVw_f]; rfl
  · simp only [encV, VSrc.code, List.append_nil]
    refine (decode_word _ rest (encVw_31 ..) ?_).trans ?_
    · simp only [literalWords, encVw_m, encVw_c]; rfl
    · simp only [decode32, vfields, encVw_m, encVw_d, encVw_a, encVw_b, encVw_k, encVw_c, encVw_f]; rfl
  · simp only [encV, VSrc.code]
    refine (decode_lit _ _ rest (encVw_31 ..) ?_).trans ?_
    · simp only [literalWords, encVw_m, encVw_c]; rfl
    · simp only [decode32, vfields, encVw_m, encVw_d, encVw_a, encVw_b, encVw_k, encVw_c, encVw_f]; rfl

theorem decV_13 (v : VF) (f : BitVec 5) (rest : List Parcel) :
    decode (encV 0x13#6 v f ++ rest) = Decoded.of (decode13 v f) := by
  obtain ⟨d, a, b, k, s⟩ := v
  cases s
  · simp only [encV, VSrc.code, List.append_nil]
    refine (decode_word _ rest (encVw_31 ..) ?_).trans ?_
    · simp only [literalWords, encVw_m, encVw_c]; rfl
    · simp only [decode32, vfields, encVw_m, encVw_d, encVw_a, encVw_b, encVw_k, encVw_c, encVw_f]; rfl
  · simp only [encV, VSrc.code, List.append_nil]
    refine (decode_word _ rest (encVw_31 ..) ?_).trans ?_
    · simp only [literalWords, encVw_m, encVw_c]; rfl
    · simp only [decode32, vfields, encVw_m, encVw_d, encVw_a, encVw_b, encVw_k, encVw_c, encVw_f]; rfl
  · simp only [encV, VSrc.code]
    refine (decode_lit _ _ rest (encVw_31 ..) ?_).trans ?_
    · simp only [literalWords, encVw_m, encVw_c]; rfl
    · simp only [decode32, vfields, encVw_m, encVw_d, encVw_a, encVw_b, encVw_k, encVw_c, encVw_f]; rfl

theorem decV_14 (v : VF) (f : BitVec 5) (rest : List Parcel) :
    decode (encV 0x14#6 v f ++ rest) = Decoded.of (decode14 v f) := by
  obtain ⟨d, a, b, k, s⟩ := v
  cases s
  · simp only [encV, VSrc.code, List.append_nil]
    refine (decode_word _ rest (encVw_31 ..) ?_).trans ?_
    · simp only [literalWords, encVw_m, encVw_c]; rfl
    · simp only [decode32, vfields, encVw_m, encVw_d, encVw_a, encVw_b, encVw_k, encVw_c, encVw_f]; rfl
  · simp only [encV, VSrc.code, List.append_nil]
    refine (decode_word _ rest (encVw_31 ..) ?_).trans ?_
    · simp only [literalWords, encVw_m, encVw_c]; rfl
    · simp only [decode32, vfields, encVw_m, encVw_d, encVw_a, encVw_b, encVw_k, encVw_c, encVw_f]; rfl
  · simp only [encV, VSrc.code]
    refine (decode_lit _ _ rest (encVw_31 ..) ?_).trans ?_
    · simp only [literalWords, encVw_m, encVw_c]; rfl
    · simp only [decode32, vfields, encVw_m, encVw_d, encVw_a, encVw_b, encVw_k, encVw_c, encVw_f]; rfl

theorem decV_17 (v : VF) (f : BitVec 5) (rest : List Parcel) :
    decode (encV 0x17#6 v f ++ rest) = Decoded.of (decode17 v f) := by
  obtain ⟨d, a, b, k, s⟩ := v
  cases s
  · simp only [encV, VSrc.code, List.append_nil]
    refine (decode_word _ rest (encVw_31 ..) ?_).trans ?_
    · simp only [literalWords, encVw_m, encVw_c]; rfl
    · simp only [decode32, vfields, encVw_m, encVw_d, encVw_a, encVw_b, encVw_k, encVw_c, encVw_f]; rfl
  · simp only [encV, VSrc.code, List.append_nil]
    refine (decode_word _ rest (encVw_31 ..) ?_).trans ?_
    · simp only [literalWords, encVw_m, encVw_c]; rfl
    · simp only [decode32, vfields, encVw_m, encVw_d, encVw_a, encVw_b, encVw_k, encVw_c, encVw_f]; rfl
  · simp only [encV, VSrc.code]
    refine (decode_lit _ _ rest (encVw_31 ..) ?_).trans ?_
    · simp only [literalWords, encVw_m, encVw_c]; rfl
    · simp only [decode32, vfields, encVw_m, encVw_d, encVw_a, encVw_b, encVw_k, encVw_c, encVw_f]; rfl

theorem decV_18 (v : VF) (f : BitVec 5) (rest : List Parcel) :
    decode (encV 0x18#6 v f ++ rest) = Decoded.of (decode18 v f) := by
  obtain ⟨d, a, b, k, s⟩ := v
  cases s
  · simp only [encV, VSrc.code, List.append_nil]
    refine (decode_word _ rest (encVw_31 ..) ?_).trans ?_
    · simp only [literalWords, encVw_m, encVw_c]; rfl
    · simp only [decode32, vfields, encVw_m, encVw_d, encVw_a, encVw_b, encVw_k, encVw_c, encVw_f]; rfl
  · simp only [encV, VSrc.code, List.append_nil]
    refine (decode_word _ rest (encVw_31 ..) ?_).trans ?_
    · simp only [literalWords, encVw_m, encVw_c]; rfl
    · simp only [decode32, vfields, encVw_m, encVw_d, encVw_a, encVw_b, encVw_k, encVw_c, encVw_f]; rfl
  · simp only [encV, VSrc.code]
    refine (decode_lit _ _ rest (encVw_31 ..) ?_).trans ?_
    · simp only [literalWords, encVw_m, encVw_c]; rfl
    · simp only [decode32, vfields, encVw_m, encVw_d, encVw_a, encVw_b, encVw_k, encVw_c, encVw_f]; rfl

theorem decV_19 (v : VF) (f : BitVec 5) (rest : List Parcel) :
    decode (encV 0x19#6 v f ++ rest) = Decoded.of (decode19 v f) := by
  obtain ⟨d, a, b, k, s⟩ := v
  cases s
  · simp only [encV, VSrc.code, List.append_nil]
    refine (decode_word _ rest (encVw_31 ..) ?_).trans ?_
    · simp only [literalWords, encVw_m, encVw_c]; rfl
    · simp only [decode32, vfields, encVw_m, encVw_d, encVw_a, encVw_b, encVw_k, encVw_c, encVw_f]; rfl
  · simp only [encV, VSrc.code, List.append_nil]
    refine (decode_word _ rest (encVw_31 ..) ?_).trans ?_
    · simp only [literalWords, encVw_m, encVw_c]; rfl
    · simp only [decode32, vfields, encVw_m, encVw_d, encVw_a, encVw_b, encVw_k, encVw_c, encVw_f]; rfl
  · simp only [encV, VSrc.code]
    refine (decode_lit _ _ rest (encVw_31 ..) ?_).trans ?_
    · simp only [literalWords, encVw_m, encVw_c]; rfl
    · simp only [decode32, vfields, encVw_m, encVw_d, encVw_a, encVw_b, encVw_k, encVw_c, encVw_f]; rfl

theorem decV_1A (v : VF) (f : BitVec 5) (rest : List Parcel) :
    decode (encV 0x1A#6 v f ++ rest) = Decoded.of (decode1A v f) := by
  obtain ⟨d, a, b, k, s⟩ := v
  cases s
  · simp only [encV, VSrc.code, List.append_nil]
    refine (decode_word _ rest (encVw_31 ..) ?_).trans ?_
    · simp only [literalWords, encVw_m, encVw_c]; rfl
    · simp only [decode32, vfields, encVw_m, encVw_d, encVw_a, encVw_b, encVw_k, encVw_c, encVw_f]; rfl
  · simp only [encV, VSrc.code, List.append_nil]
    refine (decode_word _ rest (encVw_31 ..) ?_).trans ?_
    · simp only [literalWords, encVw_m, encVw_c]; rfl
    · simp only [decode32, vfields, encVw_m, encVw_d, encVw_a, encVw_b, encVw_k, encVw_c, encVw_f]; rfl
  · simp only [encV, VSrc.code]
    refine (decode_lit _ _ rest (encVw_31 ..) ?_).trans ?_
    · simp only [literalWords, encVw_m, encVw_c]; rfl
    · simp only [decode32, vfields, encVw_m, encVw_d, encVw_a, encVw_b, encVw_k, encVw_c, encVw_f]; rfl

theorem decV_1B (v : VF) (f : BitVec 5) (rest : List Parcel) :
    decode (encV 0x1B#6 v f ++ rest) = Decoded.of (decode1B v f) := by
  obtain ⟨d, a, b, k, s⟩ := v
  cases s
  · simp only [encV, VSrc.code, List.append_nil]
    refine (decode_word _ rest (encVw_31 ..) ?_).trans ?_
    · simp only [literalWords, encVw_m, encVw_c]; rfl
    · simp only [decode32, vfields, encVw_m, encVw_d, encVw_a, encVw_b, encVw_k, encVw_c, encVw_f]; rfl
  · simp only [encV, VSrc.code, List.append_nil]
    refine (decode_word _ rest (encVw_31 ..) ?_).trans ?_
    · simp only [literalWords, encVw_m, encVw_c]; rfl
    · simp only [decode32, vfields, encVw_m, encVw_d, encVw_a, encVw_b, encVw_k, encVw_c, encVw_f]; rfl
  · simp only [encV, VSrc.code]
    refine (decode_lit _ _ rest (encVw_31 ..) ?_).trans ?_
    · simp only [literalWords, encVw_m, encVw_c]; rfl
    · simp only [decode32, vfields, encVw_m, encVw_d, encVw_a, encVw_b, encVw_k, encVw_c, encVw_f]; rfl

theorem decV_1C (v : VF) (f : BitVec 5) (rest : List Parcel) :
    decode (encV 0x1C#6 v f ++ rest) = Decoded.of (decode1C v f) := by
  obtain ⟨d, a, b, k, s⟩ := v
  cases s
  · simp only [encV, VSrc.code, List.append_nil]
    refine (decode_word _ rest (encVw_31 ..) ?_).trans ?_
    · simp only [literalWords, encVw_m, encVw_c]; rfl
    · simp only [decode32, vfields, encVw_m, encVw_d, encVw_a, encVw_b, encVw_k, encVw_c, encVw_f]; rfl
  · simp only [encV, VSrc.code, List.append_nil]
    refine (decode_word _ rest (encVw_31 ..) ?_).trans ?_
    · simp only [literalWords, encVw_m, encVw_c]; rfl
    · simp only [decode32, vfields, encVw_m, encVw_d, encVw_a, encVw_b, encVw_k, encVw_c, encVw_f]; rfl
  · simp only [encV, VSrc.code]
    refine (decode_lit _ _ rest (encVw_31 ..) ?_).trans ?_
    · simp only [literalWords, encVw_m, encVw_c]; rfl
    · simp only [decode32, vfields, encVw_m, encVw_d, encVw_a, encVw_b, encVw_k, encVw_c, encVw_f]; rfl

theorem decV_1D (v : VF) (f : BitVec 5) (rest : List Parcel) :
    decode (encV 0x1D#6 v f ++ rest) = Decoded.of (decode1D v f) := by
  obtain ⟨d, a, b, k, s⟩ := v
  cases s
  · simp only [encV, VSrc.code, List.append_nil]
    refine (decode_word _ rest (encVw_31 ..) ?_).trans ?_
    · simp only [literalWords, encVw_m, encVw_c]; rfl
    · simp only [decode32, vfields, encVw_m, encVw_d, encVw_a, encVw_b, encVw_k, encVw_c, encVw_f]; rfl
  · simp only [encV, VSrc.code, List.append_nil]
    refine (decode_word _ rest (encVw_31 ..) ?_).trans ?_
    · simp only [literalWords, encVw_m, encVw_c]; rfl
    · simp only [decode32, vfields, encVw_m, encVw_d, encVw_a, encVw_b, encVw_k, encVw_c, encVw_f]; rfl
  · simp only [encV, VSrc.code]
    refine (decode_lit _ _ rest (encVw_31 ..) ?_).trans ?_
    · simp only [literalWords, encVw_m, encVw_c]; rfl
    · simp only [decode32, vfields, encVw_m, encVw_d, encVw_a, encVw_b, encVw_k, encVw_c, encVw_f]; rfl

theorem decV_23 (v : VF) (f : BitVec 5) (rest : List Parcel) :
    decode (encV 0x23#6 v f ++ rest) = Decoded.of ((if f.getLsbD 4 then some (.vscatter v (f.extractLsb' 0 4)) else checked (.vgather v (f.extractLsb' 0 4)))) := by
  obtain ⟨d, a, b, k, s⟩ := v
  cases s
  · simp only [encV, VSrc.code, List.append_nil]
    refine (decode_word _ rest (encVw_31 ..) ?_).trans ?_
    · simp only [literalWords, encVw_m, encVw_c]; rfl
    · simp only [decode32, vfields, encVw_m, encVw_d, encVw_a, encVw_b, encVw_k, encVw_c, encVw_f]; rfl
  · simp only [encV, VSrc.code, List.append_nil]
    refine (decode_word _ rest (encVw_31 ..) ?_).trans ?_
    · simp only [literalWords, encVw_m, encVw_c]; rfl
    · simp only [decode32, vfields, encVw_m, encVw_d, encVw_a, encVw_b, encVw_k, encVw_c, encVw_f]; rfl
  · simp only [encV, VSrc.code]
    refine (decode_lit _ _ rest (encVw_31 ..) ?_).trans ?_
    · simp only [literalWords, encVw_m, encVw_c]; rfl
    · simp only [decode32, vfields, encVw_m, encVw_d, encVw_a, encVw_b, encVw_k, encVw_c, encVw_f]; rfl

end Sys2Proof
end

