-- ==== Sys2Proof/Laws/PerInstr.lean ====
section
/-! SUPPORT. The round trip of each instruction: `decode` reads it back from its own parcels, whatever follows them. -/

set_option linter.unusedSimpArgs false

namespace Sys2Proof.Laws.RoundTrip

set_option Elab.async false

/-- A well-formed instruction that is no event decodes from its own parcels to itself, with every field at every value it admits. -/
def Statement (i : Instr) : Prop :=
  WellFormed i → i.isEvent = false → ∀ rest, decode (encode i ++ rest) = .instr i

/-- A checked instruction is one where it is well-formed. -/
theorem checked_wf {i : Instr} (h : WellFormed i) : Decoded.of (checked i) = .instr i := by
  unfold checked; rw [if_pos h]; rfl

theorem bv2 {P : BitVec 2 → Prop} (h0 : P 0#2) (h1 : P 1#2) (h2 : P 2#2) (h3 : P 3#2) (c : BitVec 2) : P c := by
  have : ∀ c : BitVec 2, c = 0#2 ∨ c = 1#2 ∨ c = 2#2 ∨ c = 3#2 := by decide
  rcases this c with h | h | h | h <;> rw [h] <;> assumption

theorem bv3 {P : BitVec 3 → Prop} (h0 : P 0#3) (h1 : P 1#3) (h2 : P 2#3) (h3 : P 3#3) (h4 : P 4#3) (h5 : P 5#3) (h6 : P 6#3)
    (h7 : P 7#3) (c : BitVec 3) : P c := by
  have : ∀ c : BitVec 3, c = 0#3 ∨ c = 1#3 ∨ c = 2#3 ∨ c = 3#3 ∨ c = 4#3 ∨ c = 5#3 ∨ c = 6#3 ∨ c = 7#3 := by decide
  rcases this c with h | h | h | h | h | h | h | h <;> rw [h] <;> assumption

/-- A control register number is below 1024, so no escape of R37. -/
theorem topNe (k : BitVec 3) (n : BitVec 10) (e : BitVec 13) (he : k ≠ e.extractLsb' 10 3) : ((k ++ n : BitVec 13) == e) = false := by
  rw [beq_eq_false_iff_ne]
  rintro rfl
  exact he (by rw [exHi _ _ _ _ (by decide)]; exact (exSelf k).symm)

theorem topNe4 (z : Bool) (n : BitVec 8) (e : BitVec 13) (he : 0#4 ≠ e.extractLsb' 9 4) :
    ((0#4 ++ bit z ++ n : BitVec 13) == e) = false := by
  rw [beq_eq_false_iff_ne]
  rintro rfl
  refine he ?_
  show _ = BitVec.extractLsb' (n := 4+1+8) 9 4 (0#4 ++ bit z ++ n)
  simp (disch := decide) only [exLo, exHi, exSelf, Nat.reduceSub]


theorem mov16 (d : BitVec 4) (a : BitVec 4) : Statement (.mov16 d a) := by
  intro h _ rest
  refine (decode_parcel _ rest (p443_15 ..)).trans ?_
  simp only [decode16, p443_op, p443_d, p443_a, p443_o]
  rfl

theorem addi16 (d : BitVec 4) (i : BitVec 7) : Statement (.addi16 d i) := by
  intro h _ rest
  refine (decode_parcel _ rest (p47_15 ..)).trans ?_
  simp only [decode16, p47_op, p47_d, p47_i]
  rfl

theorem add16 (d : BitVec 4) (a : BitVec 4) : Statement (.add16 d a) := by
  intro h _ rest
  refine (decode_parcel _ rest (p443_15 ..)).trans ?_
  simp only [decode16, p443_op, p443_d, p443_a, p443_o]
  rfl

theorem ldD16 (d : BitVec 4) (a : BitVec 4) (o : BitVec 3) : Statement (.ldD16 d a o) := by
  intro h _ rest
  refine (decode_parcel _ rest (p443_15 ..)).trans ?_
  simp only [decode16, p443_op, p443_d, p443_a, p443_o]
  rfl

theorem stD16 (d : BitVec 4) (a : BitVec 4) (o : BitVec 3) : Statement (.stD16 d a o) := by
  intro h _ rest
  refine (decode_parcel _ rest (p443_15 ..)).trans ?_
  simp only [decode16, p443_op, p443_d, p443_a, p443_o]
  rfl

theorem bz16 (a : BitVec 4) (o : BitVec 7) : Statement (.bz16 a o) := by
  intro h _ rest
  refine (decode_parcel _ rest (p47_15 ..)).trans ?_
  simp only [decode16, p47_op, p47_d, p47_i]
  rfl

theorem bnz16 (a : BitVec 4) (o : BitVec 7) : Statement (.bnz16 a o) := by
  intro h _ rest
  refine (decode_parcel _ rest (p47_15 ..)).trans ?_
  simp only [decode16, p47_op, p47_d, p47_i]
  rfl

theorem j16 (o : BitVec 11) : Statement (.j16 o) := by
  intro h _ rest
  refine (decode_parcel _ rest (p11_15 ..)).trans ?_
  simp only [decode16, p11_op, p11_o]
  rfl

theorem shl16 (d : BitVec 4) (n : BitVec 5) : Statement (.shl16 d n) := by
  intro h _ rest
  refine (decode_parcel _ rest (p425_15 ..)).trans ?_
  simp only [decode16, p425_op, p425_d, p425_s, p425_n]
  rfl

theorem shr16 (d : BitVec 4) (n : BitVec 5) : Statement (.shr16 d n) := by
  intro h _ rest
  refine (decode_parcel _ rest (p425_15 ..)).trans ?_
  simp only [decode16, p425_op, p425_d, p425_s, p425_n]
  rfl

theorem sar16 (d : BitVec 4) (n : BitVec 5) : Statement (.sar16 d n) := by
  intro h _ rest
  refine (decode_parcel _ rest (p425_15 ..)).trans ?_
  simp only [decode16, p425_op, p425_d, p425_s, p425_n]
  rfl

theorem ror16 (d : BitVec 4) (n : BitVec 5) : Statement (.ror16 d n) := by
  intro h _ rest
  refine (decode_parcel _ rest (p425_15 ..)).trans ?_
  simp only [decode16, p425_op, p425_d, p425_s, p425_n]
  rfl

theorem cmp16 (d : BitVec 4) (a : BitVec 4) (cc : BitVec 3) : Statement (.cmp16 d a cc) := by
  intro h _ rest
  refine (decode_parcel _ rest (p443_15 ..)).trans ?_
  simp only [decode16, p443_op, p443_d, p443_a, p443_o]
  exact congrArg Decoded.of (if_pos (of_decide_eq_true h))

theorem wait16 (m : BitVec 4) (n : BitVec 6) : Statement (.wait16 m n) := by
  intro h _ rest
  refine (decode_parcel _ rest (p461_15 ..)).trans ?_
  simp only [decode16, p461_op, p461_m, p461_n, p461_z]
  rfl

theorem jr16 (a : BitVec 4) : Statement (.jr16 a) := by
  intro h _ rest
  refine (decode_parcel _ rest (p47_15 ..)).trans ?_
  simp only [decode16, p47_op, p47_d, p47_i6, p47_b6]
  rfl

theorem callr16 (a : BitVec 4) : Statement (.callr16 a) := by
  intro h _ rest
  refine (decode_parcel _ rest (p47_15 ..)).trans ?_
  simp only [decode16, p47_op, p47_d, p47_i6, p47_b6]
  rfl

theorem nop  : Statement (.nop) := by
  exact fun _ _ _ => rfl

theorem fmt (a : BitVec 3) (b : BitVec 3) (acc : Bool) (sat : Bool) (pl : BitVec 2) : Statement (.fmt a b acc sat pl) := by
  intro h _ rest
  refine (decode_parcel _ rest (pfmt_15 ..)).trans ?_
  simp only [decode16, pfmt_op, pfmt_a, pfmt_b, pfmt_x, pfmt_s, pfmt_p, pfmt_z]
  have h' := Bool.and_eq_true_iff.mp h
  simp only [h'.1, h'.2]
  rfl

theorem add (d : BitVec 6) (a : BitVec 6) (b : BitVec 6) : Statement (.add d a b) := by
  intro h _ rest
  refine (decR_00 ..).trans ?_
  rfl

theorem sub (d : BitVec 6) (a : BitVec 6) (b : BitVec 6) : Statement (.sub d a b) := by
  intro h _ rest
  refine (decR_00 ..).trans ?_
  rfl

theorem and (d : BitVec 6) (a : BitVec 6) (b : BitVec 6) : Statement (.and d a b) := by
  intro h _ rest
  refine (decR_00 ..).trans ?_
  rfl

theorem or (d : BitVec 6) (a : BitVec 6) (b : BitVec 6) : Statement (.or d a b) := by
  intro h _ rest
  refine (decR_00 ..).trans ?_
  rfl

theorem xor (d : BitVec 6) (a : BitVec 6) (b : BitVec 6) : Statement (.xor d a b) := by
  intro h _ rest
  refine (decR_00 ..).trans ?_
  rfl

theorem andn (d : BitVec 6) (a : BitVec 6) (b : BitVec 6) : Statement (.andn d a b) := by
  intro h _ rest
  refine (decR_00 ..).trans ?_
  rfl

theorem orn (d : BitVec 6) (a : BitVec 6) (b : BitVec 6) : Statement (.orn d a b) := by
  intro h _ rest
  refine (decR_00 ..).trans ?_
  rfl

theorem xnor (d : BitVec 6) (a : BitVec 6) (b : BitVec 6) : Statement (.xnor d a b) := by
  intro h _ rest
  refine (decR_00 ..).trans ?_
  rfl

theorem shl (d : BitVec 6) (a : BitVec 6) (b : BitVec 6) : Statement (.shl d a b) := by
  intro h _ rest
  refine (decR_00 ..).trans ?_
  rfl

theorem shr (d : BitVec 6) (a : BitVec 6) (b : BitVec 6) : Statement (.shr d a b) := by
  intro h _ rest
  refine (decR_00 ..).trans ?_
  rfl

theorem sar (d : BitVec 6) (a : BitVec 6) (b : BitVec 6) : Statement (.sar d a b) := by
  intro h _ rest
  refine (decR_00 ..).trans ?_
  rfl

theorem ror (d : BitVec 6) (a : BitVec 6) (b : BitVec 6) : Statement (.ror d a b) := by
  intro h _ rest
  refine (decR_00 ..).trans ?_
  rfl

theorem shli (d : BitVec 6) (a : BitVec 6) (n : BitVec 6) : Statement (.shli d a n) := by
  intro h _ rest
  refine (decR_00 ..).trans ?_
  rfl

theorem shri (d : BitVec 6) (a : BitVec 6) (n : BitVec 6) : Statement (.shri d a n) := by
  intro h _ rest
  refine (decR_00 ..).trans ?_
  rfl

theorem sari (d : BitVec 6) (a : BitVec 6) (n : BitVec 6) : Statement (.sari d a n) := by
  intro h _ rest
  refine (decR_00 ..).trans ?_
  rfl

theorem rori (d : BitVec 6) (a : BitVec 6) (n : BitVec 6) : Statement (.rori d a n) := by
  intro h _ rest
  refine (decR_00 ..).trans ?_
  rfl

theorem addW (d : BitVec 6) (a : BitVec 6) (b : BitVec 6) : Statement (.addW d a b) := by
  intro h _ rest
  refine (decR_00 ..).trans ?_
  rfl

theorem subW (d : BitVec 6) (a : BitVec 6) (b : BitVec 6) : Statement (.subW d a b) := by
  intro h _ rest
  refine (decR_00 ..).trans ?_
  rfl

theorem shlW (d : BitVec 6) (a : BitVec 6) (b : BitVec 6) : Statement (.shlW d a b) := by
  intro h _ rest
  refine (decR_00 ..).trans ?_
  rfl

theorem shrW (d : BitVec 6) (a : BitVec 6) (b : BitVec 6) : Statement (.shrW d a b) := by
  intro h _ rest
  refine (decR_00 ..).trans ?_
  rfl

theorem sarW (d : BitVec 6) (a : BitVec 6) (b : BitVec 6) : Statement (.sarW d a b) := by
  intro h _ rest
  refine (decR_00 ..).trans ?_
  rfl

theorem rorW (d : BitVec 6) (a : BitVec 6) (b : BitVec 6) : Statement (.rorW d a b) := by
  intro h _ rest
  refine (decR_00 ..).trans ?_
  rfl

theorem addS (d : BitVec 6) (a : BitVec 6) (b : BitVec 6) : Statement (.addS d a b) := by
  intro h _ rest
  refine (decR_00 ..).trans ?_
  rfl

theorem subS (d : BitVec 6) (a : BitVec 6) (b : BitVec 6) : Statement (.subS d a b) := by
  intro h _ rest
  refine (decR_00 ..).trans ?_
  rfl

theorem addUs (d : BitVec 6) (a : BitVec 6) (b : BitVec 6) : Statement (.addUs d a b) := by
  intro h _ rest
  refine (decR_00 ..).trans ?_
  rfl

theorem subUs (d : BitVec 6) (a : BitVec 6) (b : BitVec 6) : Statement (.subUs d a b) := by
  intro h _ rest
  refine (decR_00 ..).trans ?_
  rfl

theorem lea2 (d : BitVec 6) (a : BitVec 6) (b : BitVec 6) : Statement (.lea2 d a b) := by
  intro h _ rest
  refine (decR_00 ..).trans ?_
  rfl

theorem lea4 (d : BitVec 6) (a : BitVec 6) (b : BitVec 6) : Statement (.lea4 d a b) := by
  intro h _ rest
  refine (decR_00 ..).trans ?_
  rfl

theorem lea8 (d : BitVec 6) (a : BitVec 6) (b : BitVec 6) : Statement (.lea8 d a b) := by
  intro h _ rest
  refine (decR_00 ..).trans ?_
  rfl

theorem lea16 (d : BitVec 6) (a : BitVec 6) (b : BitVec 6) : Statement (.lea16 d a b) := by
  intro h _ rest
  refine (decR_00 ..).trans ?_
  rfl

theorem lea64 (d : BitVec 6) (a : BitVec 6) (b : BitVec 6) : Statement (.lea64 d a b) := by
  intro h _ rest
  refine (decR_00 ..).trans ?_
  rfl

theorem mul (d : BitVec 6) (a : BitVec 6) (b : BitVec 6) : Statement (.mul d a b) := by
  intro h _ rest
  refine (decR_01 ..).trans ?_
  rfl

theorem mulh (d : BitVec 6) (a : BitVec 6) (b : BitVec 6) : Statement (.mulh d a b) := by
  intro h _ rest
  refine (decR_01 ..).trans ?_
  rfl

theorem mulhu (d : BitVec 6) (a : BitVec 6) (b : BitVec 6) : Statement (.mulhu d a b) := by
  intro h _ rest
  refine (decR_01 ..).trans ?_
  rfl

theorem mulhsu (d : BitVec 6) (a : BitVec 6) (b : BitVec 6) : Statement (.mulhsu d a b) := by
  intro h _ rest
  refine (decR_01 ..).trans ?_
  rfl

theorem mulW (d : BitVec 6) (a : BitVec 6) (b : BitVec 6) : Statement (.mulW d a b) := by
  intro h _ rest
  refine (decR_01 ..).trans ?_
  rfl

theorem mulS (d : BitVec 6) (a : BitVec 6) (b : BitVec 6) : Statement (.mulS d a b) := by
  intro h _ rest
  refine (decR_01 ..).trans ?_
  rfl

theorem div (d : BitVec 6) (a : BitVec 6) (b : BitVec 6) : Statement (.div d a b) := by
  intro h _ rest
  refine (decR_01 ..).trans ?_
  rfl

theorem divu (d : BitVec 6) (a : BitVec 6) (b : BitVec 6) : Statement (.divu d a b) := by
  intro h _ rest
  refine (decR_01 ..).trans ?_
  rfl

theorem rem (d : BitVec 6) (a : BitVec 6) (b : BitVec 6) : Statement (.rem d a b) := by
  intro h _ rest
  refine (decR_01 ..).trans ?_
  rfl

theorem remu (d : BitVec 6) (a : BitVec 6) (b : BitVec 6) : Statement (.remu d a b) := by
  intro h _ rest
  refine (decR_01 ..).trans ?_
  rfl

theorem divW (d : BitVec 6) (a : BitVec 6) (b : BitVec 6) : Statement (.divW d a b) := by
  intro h _ rest
  refine (decR_01 ..).trans ?_
  rfl

theorem divuW (d : BitVec 6) (a : BitVec 6) (b : BitVec 6) : Statement (.divuW d a b) := by
  intro h _ rest
  refine (decR_01 ..).trans ?_
  rfl

theorem remW (d : BitVec 6) (a : BitVec 6) (b : BitVec 6) : Statement (.remW d a b) := by
  intro h _ rest
  refine (decR_01 ..).trans ?_
  rfl

theorem remuW (d : BitVec 6) (a : BitVec 6) (b : BitVec 6) : Statement (.remuW d a b) := by
  intro h _ rest
  refine (decR_01 ..).trans ?_
  rfl

theorem cmp (d : BitVec 6) (a : BitVec 6) (b : BitVec 6) (cc : BitVec 3) : Statement (.cmp d a b cc) := by
  intro h _ rest
  refine (decR_02 ..).trans ?_
  revert h
  exact bv3 (P := fun cc => WellFormed (.cmp d a b cc) → Decoded.of (decode02 d a b (0#4 ++ cc)) = .instr (.cmp d a b cc)) (fun h => checked_wf h) (fun h => checked_wf h) (fun h => checked_wf h) (fun h => checked_wf h) (fun h => checked_wf h) (fun h => checked_wf h) (fun h => checked_wf h) (fun h => checked_wf h) cc

theorem min (d : BitVec 6) (a : BitVec 6) (b : BitVec 6) : Statement (.min d a b) := by
  intro h _ rest
  refine (decR_02 ..).trans ?_
  rfl

theorem max (d : BitVec 6) (a : BitVec 6) (b : BitVec 6) : Statement (.max d a b) := by
  intro h _ rest
  refine (decR_02 ..).trans ?_
  rfl

theorem minu (d : BitVec 6) (a : BitVec 6) (b : BitVec 6) : Statement (.minu d a b) := by
  intro h _ rest
  refine (decR_02 ..).trans ?_
  rfl

theorem maxu (d : BitVec 6) (a : BitVec 6) (b : BitVec 6) : Statement (.maxu d a b) := by
  intro h _ rest
  refine (decR_02 ..).trans ?_
  rfl

theorem movz (d : BitVec 6) (a : BitVec 6) (b : BitVec 6) : Statement (.movz d a b) := by
  intro h _ rest
  refine (decR_02 ..).trans ?_
  rfl

theorem movnz (d : BitVec 6) (a : BitVec 6) (b : BitVec 6) : Statement (.movnz d a b) := by
  intro h _ rest
  refine (decR_02 ..).trans ?_
  rfl

theorem clz (d : BitVec 6) (a : BitVec 6) (b : BitVec 6) : Statement (.clz d a b) := by
  intro h _ rest
  refine (decR_03 ..).trans ?_
  rfl

theorem ctz (d : BitVec 6) (a : BitVec 6) (b : BitVec 6) : Statement (.ctz d a b) := by
  intro h _ rest
  refine (decR_03 ..).trans ?_
  rfl

theorem popc (d : BitVec 6) (a : BitVec 6) (b : BitVec 6) : Statement (.popc d a b) := by
  intro h _ rest
  refine (decR_03 ..).trans ?_
  rfl

theorem rev8 (d : BitVec 6) (a : BitVec 6) (b : BitVec 6) : Statement (.rev8 d a b) := by
  intro h _ rest
  refine (decR_03 ..).trans ?_
  rfl

theorem rev8W (d : BitVec 6) (a : BitVec 6) (b : BitVec 6) : Statement (.rev8W d a b) := by
  intro h _ rest
  refine (decR_03 ..).trans ?_
  rfl

theorem bfx (d : BitVec 6) (a : BitVec 6) (b : BitVec 6) : Statement (.bfx d a b) := by
  intro h _ rest
  refine (decR_03 ..).trans ?_
  rfl

theorem bfxs (d : BitVec 6) (a : BitVec 6) (b : BitVec 6) : Statement (.bfxs d a b) := by
  intro h _ rest
  refine (decR_03 ..).trans ?_
  rfl

theorem bfi (d : BitVec 6) (a : BitVec 6) (b : BitVec 6) : Statement (.bfi d a b) := by
  intro h _ rest
  refine (decR_03 ..).trans ?_
  rfl

theorem addi (d : BitVec 6) (a : BitVec 6) (i : BitVec 13) : Statement (.addi d a i) := by
  intro h _ rest
  have h0 : (i == 0x1000#13) = false := by
    have := (Bool.and_eq_true_iff.mp h).1; simpa using this
  have h1 : (i == 0x1001#13) = false := by
    have := (Bool.and_eq_true_iff.mp h).2; simpa using this
  refine (decode_word _ rest (encI_31 ..) ?_).trans ?_
  · simp only [literalWords, encI_m, encI_i, h0, h1]; rfl
  · simp only [decode32, encI_m, encI_d, encI_a, encI_i, encI_10, encI_8, encI_b8]
    show Decoded.of (some (decodeImm i 0 0 (.addi d a) (.addiLit32 d a) (.addiLit64 d a))) = _
    rw [decodeImm, if_neg (by simpa using h0), if_neg (by simpa using h1)]; rfl

theorem addiLit32 (d : BitVec 6) (a : BitVec 6) (l : Word32) : Statement (.addiLit32 d a l) := by
  intro _ _ rest
  refine (decode_lit _ l rest (encI_31 ..) ?_).trans ?_
  · simp only [literalWords, encI_m, encI_i]; rfl
  · simp only [decode32, encI_m, encI_d, encI_a, encI_i, encI_10, encI_8, encI_b8]; rfl

theorem addiLit64 (d : BitVec 6) (a : BitVec 6) (l : Word) : Statement (.addiLit64 d a l) := by
  intro _ _ rest
  refine (decode_lit2 _ _ _ rest (encI_31 ..) ?_).trans ?_
  · simp only [literalWords, encI_m, encI_i]; rfl
  · simp only [decode32, encI_m, encI_d, encI_a, encI_i, encI_10, encI_8, encI_b8]
    show Decoded.of (some (.addiLit64 d a (l.extractLsb' 32 32 ++ l.extractLsb' 0 32))) = _
    rw [joinWords]; rfl

theorem andi (d : BitVec 6) (a : BitVec 6) (i : BitVec 13) : Statement (.andi d a i) := by
  intro h _ rest
  have h0 : (i == 0x1000#13) = false := by
    have := (Bool.and_eq_true_iff.mp h).1; simpa using this
  have h1 : (i == 0x1001#13) = false := by
    have := (Bool.and_eq_true_iff.mp h).2; simpa using this
  refine (decode_word _ rest (encI_31 ..) ?_).trans ?_
  · simp only [literalWords, encI_m, encI_i, h0, h1]; rfl
  · simp only [decode32, encI_m, encI_d, encI_a, encI_i, encI_10, encI_8, encI_b8]
    show Decoded.of (some (decodeImm i 0 0 (.andi d a) (.andiLit32 d a) (.andiLit64 d a))) = _
    rw [decodeImm, if_neg (by simpa using h0), if_neg (by simpa using h1)]; rfl

theorem andiLit32 (d : BitVec 6) (a : BitVec 6) (l : Word32) : Statement (.andiLit32 d a l) := by
  intro _ _ rest
  refine (decode_lit _ l rest (encI_31 ..) ?_).trans ?_
  · simp only [literalWords, encI_m, encI_i]; rfl
  · simp only [decode32, encI_m, encI_d, encI_a, encI_i, encI_10, encI_8, encI_b8]; rfl

theorem andiLit64 (d : BitVec 6) (a : BitVec 6) (l : Word) : Statement (.andiLit64 d a l) := by
  intro _ _ rest
  refine (decode_lit2 _ _ _ rest (encI_31 ..) ?_).trans ?_
  · simp only [literalWords, encI_m, encI_i]; rfl
  · simp only [decode32, encI_m, encI_d, encI_a, encI_i, encI_10, encI_8, encI_b8]
    show Decoded.of (some (.andiLit64 d a (l.extractLsb' 32 32 ++ l.extractLsb' 0 32))) = _
    rw [joinWords]; rfl

theorem ori (d : BitVec 6) (a : BitVec 6) (i : BitVec 13) : Statement (.ori d a i) := by
  intro h _ rest
  have h0 : (i == 0x1000#13) = false := by
    have := (Bool.and_eq_true_iff.mp h).1; simpa using this
  have h1 : (i == 0x1001#13) = false := by
    have := (Bool.and_eq_true_iff.mp h).2; simpa using this
  refine (decode_word _ rest (encI_31 ..) ?_).trans ?_
  · simp only [literalWords, encI_m, encI_i, h0, h1]; rfl
  · simp only [decode32, encI_m, encI_d, encI_a, encI_i, encI_10, encI_8, encI_b8]
    show Decoded.of (some (decodeImm i 0 0 (.ori d a) (.oriLit32 d a) (.oriLit64 d a))) = _
    rw [decodeImm, if_neg (by simpa using h0), if_neg (by simpa using h1)]; rfl

theorem oriLit32 (d : BitVec 6) (a : BitVec 6) (l : Word32) : Statement (.oriLit32 d a l) := by
  intro _ _ rest
  refine (decode_lit _ l rest (encI_31 ..) ?_).trans ?_
  · simp only [literalWords, encI_m, encI_i]; rfl
  · simp only [decode32, encI_m, encI_d, encI_a, encI_i, encI_10, encI_8, encI_b8]; rfl

theorem oriLit64 (d : BitVec 6) (a : BitVec 6) (l : Word) : Statement (.oriLit64 d a l) := by
  intro _ _ rest
  refine (decode_lit2 _ _ _ rest (encI_31 ..) ?_).trans ?_
  · simp only [literalWords, encI_m, encI_i]; rfl
  · simp only [decode32, encI_m, encI_d, encI_a, encI_i, encI_10, encI_8, encI_b8]
    show Decoded.of (some (.oriLit64 d a (l.extractLsb' 32 32 ++ l.extractLsb' 0 32))) = _
    rw [joinWords]; rfl

theorem xori (d : BitVec 6) (a : BitVec 6) (i : BitVec 13) : Statement (.xori d a i) := by
  intro h _ rest
  have h0 : (i == 0x1000#13) = false := by
    have := (Bool.and_eq_true_iff.mp h).1; simpa using this
  have h1 : (i == 0x1001#13) = false := by
    have := (Bool.and_eq_true_iff.mp h).2; simpa using this
  refine (decode_word _ rest (encI_31 ..) ?_).trans ?_
  · simp only [literalWords, encI_m, encI_i, h0, h1]; rfl
  · simp only [decode32, encI_m, encI_d, encI_a, encI_i, encI_10, encI_8, encI_b8]
    show Decoded.of (some (decodeImm i 0 0 (.xori d a) (.xoriLit32 d a) (.xoriLit64 d a))) = _
    rw [decodeImm, if_neg (by simpa using h0), if_neg (by simpa using h1)]; rfl

theorem xoriLit32 (d : BitVec 6) (a : BitVec 6) (l : Word32) : Statement (.xoriLit32 d a l) := by
  intro _ _ rest
  refine (decode_lit _ l rest (encI_31 ..) ?_).trans ?_
  · simp only [literalWords, encI_m, encI_i]; rfl
  · simp only [decode32, encI_m, encI_d, encI_a, encI_i, encI_10, encI_8, encI_b8]; rfl

theorem xoriLit64 (d : BitVec 6) (a : BitVec 6) (l : Word) : Statement (.xoriLit64 d a l) := by
  intro _ _ rest
  refine (decode_lit2 _ _ _ rest (encI_31 ..) ?_).trans ?_
  · simp only [literalWords, encI_m, encI_i]; rfl
  · simp only [decode32, encI_m, encI_d, encI_a, encI_i, encI_10, encI_8, encI_b8]
    show Decoded.of (some (.xoriLit64 d a (l.extractLsb' 32 32 ++ l.extractLsb' 0 32))) = _
    rw [joinWords]; rfl

theorem ldcb (d : BitVec 6) (a : BitVec 6) (z : Bool) (n : BitVec 8) : Statement (.ldcb d a z n) := by
  intro _ _ rest
  have h0 : ((0#4 ++ bit z ++ n : BitVec 13) == 0x1000#13) = false := topNe4 _ _ _ (by decide)
  have h1 : ((0#4 ++ bit z ++ n : BitVec 13) == 0x1001#13) = false := topNe4 _ _ _ (by decide)
  refine (decode_word _ rest (encI_31 ..) ?_).trans ?_
  · simp only [literalWords, encI_m, encI_i, h0, h1]; rfl
  · simp only [decode32, encI_m, encI_d, encI_a, encI_i, encI_10, encI_8, encI_b8]
    have e1 : BitVec.extractLsb' (n := 4+1+8) 9 4 (0#4 ++ bit z ++ n) = 0#4 := by
      simp (disch := decide) only [exLo, exHi, exSelf, Nat.reduceSub]
    have e2 : BitVec.getLsbD (w := 4+1+8) (0#4 ++ bit z ++ n) 8 = z := by
      simp (disch := decide) only [gLo, gHi, gBit, Nat.reduceSub]
    have e3 : BitVec.extractLsb' (n := 4+1+8) 0 8 (0#4 ++ bit z ++ n) = n := by
      simp (disch := decide) only [exLo, exHi, exSelf, Nat.reduceSub]
    show Decoded.of (if BitVec.extractLsb' (n := 4+1+8) 9 4 (0#4 ++ bit z ++ n) = 0#4 then
      some (.ldcb d a (BitVec.getLsbD (w := 4+1+8) (0#4 ++ bit z ++ n) 8) (BitVec.extractLsb' (n := 4+1+8) 0 8 (0#4 ++ bit z ++ n))) else none) = _
    rw [e1, e2, e3]; rfl

theorem movi (d : BitVec 6) (i : BitVec 19) : Statement (.movi d i) := by
  intro h _ rest
  refine (decode_word _ rest (encMov_31 ..) ?_).trans ?_
  · simp only [literalWords, encMov_m]; rfl
  · simp only [decode32, encMov_m, encMov_d, encMov_i]; rfl

theorem bz (a : BitVec 6) (o : BitVec 16) : Statement (.bz a o) := by
  intro h _ rest
  refine (decode_word _ rest (encBr_31 ..) ?_).trans ?_
  · simp only [literalWords, encBr_m]; rfl
  · simp only [decode32, encBr_m, encBr_d, encBr_c, encBr_o]; rfl

theorem bnz (a : BitVec 6) (o : BitVec 16) : Statement (.bnz a o) := by
  intro h _ rest
  refine (decode_word _ rest (encBr_31 ..) ?_).trans ?_
  · simp only [literalWords, encBr_m]; rfl
  · simp only [decode32, encBr_m, encBr_d, encBr_c, encBr_o]; rfl

theorem bltz (a : BitVec 6) (o : BitVec 16) : Statement (.bltz a o) := by
  intro h _ rest
  refine (decode_word _ rest (encBr_31 ..) ?_).trans ?_
  · simp only [literalWords, encBr_m]; rfl
  · simp only [decode32, encBr_m, encBr_d, encBr_c, encBr_o]; rfl

theorem bgez (a : BitVec 6) (o : BitVec 16) : Statement (.bgez a o) := by
  intro h _ rest
  refine (decode_word _ rest (encBr_31 ..) ?_).trans ?_
  · simp only [literalWords, encBr_m]; rfl
  · simp only [decode32, encBr_m, encBr_d, encBr_c, encBr_o]; rfl

theorem blez (a : BitVec 6) (o : BitVec 16) : Statement (.blez a o) := by
  intro h _ rest
  refine (decode_word _ rest (encBr_31 ..) ?_).trans ?_
  · simp only [literalWords, encBr_m]; rfl
  · simp only [decode32, encBr_m, encBr_d, encBr_c, encBr_o]; rfl

theorem bgtz (a : BitVec 6) (o : BitVec 16) : Statement (.bgtz a o) := by
  intro h _ rest
  refine (decode_word _ rest (encBr_31 ..) ?_).trans ?_
  · simp only [literalWords, encBr_m]; rfl
  · simp only [decode32, encBr_m, encBr_d, encBr_c, encBr_o]; rfl

theorem br (a : BitVec 6) (o : BitVec 16) : Statement (.br a o) := by
  intro h _ rest
  refine (decode_word _ rest (encBr_31 ..) ?_).trans ?_
  · simp only [literalWords, encBr_m]; rfl
  · simp only [decode32, encBr_m, encBr_d, encBr_c, encBr_o]; rfl

theorem j (o : BitVec 25) : Statement (.j o) := by
  intro h _ rest
  refine (decode_word _ rest (encJ_31 ..) ?_).trans ?_
  · simp only [literalWords, encJ_m]; rfl
  · simp only [decode32, encJ_m, encJ_o]; rfl

theorem call (o : BitVec 25) : Statement (.call o) := by
  intro h _ rest
  refine (decode_word _ rest (encJ_31 ..) ?_).trans ?_
  · simp only [literalWords, encJ_m]; rfl
  · simp only [decode32, encJ_m, encJ_o]; rfl

theorem jr (d : BitVec 6) (a : BitVec 6) (b : BitVec 6) : Statement (.jr d a b) := by
  intro h _ rest
  refine (decR_0D ..).trans ?_
  rfl

theorem callr (d : BitVec 6) (a : BitVec 6) (b : BitVec 6) : Statement (.callr d a b) := by
  intro h _ rest
  refine (decR_0D ..).trans ?_
  rfl

theorem getpc (d : BitVec 6) (a : BitVec 6) (b : BitVec 6) : Statement (.getpc d a b) := by
  intro h _ rest
  refine (decR_0D ..).trans ?_
  rfl

theorem rdctl (d : BitVec 6) (a : BitVec 6) (n : BitVec 10) : Statement (.rdctl d a n) := by
  intro _ _ rest
  have h0 : ((0#3 ++ n : BitVec 13) == 0x1000#13) = false := topNe _ _ _ (by decide)
  have h1 : ((0#3 ++ n : BitVec 13) == 0x1001#13) = false := topNe _ _ _ (by decide)
  refine (decode_word _ rest (encI_31 ..) ?_).trans ?_
  · simp only [literalWords, encI_m, encI_i, h0, h1]; rfl
  · simp (disch := decide) only [decode32, encI_m, encI_d, encI_a, encI_i, encI_10, encI_8, encI_b8, exLo, exHi, exSelf]; rfl

theorem wrctl (d : BitVec 6) (a : BitVec 6) (n : BitVec 10) : Statement (.wrctl d a n) := by
  intro _ _ rest
  have h0 : ((0#3 ++ n : BitVec 13) == 0x1000#13) = false := topNe _ _ _ (by decide)
  have h1 : ((0#3 ++ n : BitVec 13) == 0x1001#13) = false := topNe _ _ _ (by decide)
  refine (decode_word _ rest (encI_31 ..) ?_).trans ?_
  · simp only [literalWords, encI_m, encI_i, h0, h1]; rfl
  · simp (disch := decide) only [decode32, encI_m, encI_d, encI_a, encI_i, encI_10, encI_8, encI_b8, exLo, exHi, exSelf]; rfl

theorem setctl (d : BitVec 6) (a : BitVec 6) (n : BitVec 10) : Statement (.setctl d a n) := by
  intro _ _ rest
  have h0 : ((1#3 ++ n : BitVec 13) == 0x1000#13) = false := topNe _ _ _ (by decide)
  have h1 : ((1#3 ++ n : BitVec 13) == 0x1001#13) = false := topNe _ _ _ (by decide)
  refine (decode_word _ rest (encI_31 ..) ?_).trans ?_
  · simp only [literalWords, encI_m, encI_i, h0, h1]; rfl
  · simp (disch := decide) only [decode32, encI_m, encI_d, encI_a, encI_i, encI_10, encI_8, encI_b8, exLo, exHi, exSelf]; rfl

theorem clrctl (d : BitVec 6) (a : BitVec 6) (n : BitVec 10) : Statement (.clrctl d a n) := by
  intro _ _ rest
  have h0 : ((2#3 ++ n : BitVec 13) == 0x1000#13) = false := topNe _ _ _ (by decide)
  have h1 : ((2#3 ++ n : BitVec 13) == 0x1001#13) = false := topNe _ _ _ (by decide)
  refine (decode_word _ rest (encI_31 ..) ?_).trans ?_
  · simp only [literalWords, encI_m, encI_i, h0, h1]; rfl
  · simp (disch := decide) only [decode32, encI_m, encI_d, encI_a, encI_i, encI_10, encI_8, encI_b8, exLo, exHi, exSelf]; rfl

theorem wait (d : BitVec 6) (a : BitVec 6) (b : BitVec 6) (ot : BitVec 6) : Statement (.wait d a b ot) := by
  intro h _ rest
  refine (decR_10 ..).trans ?_
  simp (disch := decide) only [decode10, gHi, exLo, exSelf]
  rfl

theorem trapi (d : BitVec 6) (a : BitVec 6) (b : BitVec 6) : Statement (.trapi d a b) := by
  intro h _ rest
  refine (decR_10 ..).trans ?_
  rfl

theorem brk (d : BitVec 6) (a : BitVec 6) (b : BitVec 6) : Statement (.brk d a b) := by
  intro h _ rest
  refine (decR_10 ..).trans ?_
  rfl

theorem tret (d : BitVec 6) (a : BitVec 6) (b : BitVec 6) : Statement (.tret d a b) := by
  intro h _ rest
  refine (decR_10 ..).trans ?_
  rfl

theorem ifence (d : BitVec 6) (a : BitVec 6) (b : BitVec 6) : Statement (.ifence d a b) := by
  intro h _ rest
  refine (decR_10 ..).trans ?_
  rfl

theorem idle (d : BitVec 6) (a : BitVec 6) (b : BitVec 6) : Statement (.idle d a b) := by
  intro h _ rest
  refine (decR_10 ..).trans ?_
  rfl

theorem movx (d : BitVec 6) (x : BitVec 3) (i : BitVec 13) : Statement (.movx d x i) := by
  intro h _ rest
  refine (decode_word _ rest (encX_31 ..) ?_).trans ?_
  · simp only [literalWords, encX_m]; rfl
  · simp only [decode32, encX_m, encX_d, encX_x, encX_c, encX_i]; rfl

theorem movg (d : BitVec 6) (x : BitVec 3) (i : BitVec 13) : Statement (.movg d x i) := by
  intro h _ rest
  refine (decode_word _ rest (encX_31 ..) ?_).trans ?_
  · simp only [literalWords, encX_m]; rfl
  · simp only [decode32, encX_m, encX_d, encX_x, encX_c, encX_i]; rfl

theorem ldx (d : BitVec 6) (x : BitVec 3) (i : BitVec 13) : Statement (.ldx d x i) := by
  intro h _ rest
  refine (decode_word _ rest (encX_31 ..) ?_).trans ?_
  · simp only [literalWords, encX_m]; rfl
  · simp only [decode32, encX_m, encX_d, encX_x, encX_c, encX_i]; rfl

theorem addx (d : BitVec 6) (x : BitVec 3) (i : BitVec 13) : Statement (.addx d x i) := by
  intro h _ rest
  refine (decode_word _ rest (encX_31 ..) ?_).trans ?_
  · simp only [literalWords, encX_m]; rfl
  · simp only [decode32, encX_m, encX_d, encX_x, encX_c, encX_i]; rfl

theorem fadd (f : VF) : Statement (.fadd f) := by
  intro h _ rest
  refine (decV_12 ..).trans ?_
  rfl

theorem fsub (f : VF) : Statement (.fsub f) := by
  intro h _ rest
  refine (decV_12 ..).trans ?_
  rfl

theorem fmul (f : VF) : Statement (.fmul f) := by
  intro h _ rest
  refine (decV_12 ..).trans ?_
  rfl

theorem fdiv (f : VF) : Statement (.fdiv f) := by
  intro h _ rest
  refine (decV_12 ..).trans ?_
  rfl

theorem fsqrt (f : VF) : Statement (.fsqrt f) := by
  intro h _ rest
  refine (decV_12 ..).trans ?_
  rfl

theorem fmin (f : VF) : Statement (.fmin f) := by
  intro h _ rest
  refine (decV_12 ..).trans ?_
  rfl

theorem fmax (f : VF) : Statement (.fmax f) := by
  intro h _ rest
  refine (decV_12 ..).trans ?_
  rfl

theorem fabs (f : VF) : Statement (.fabs f) := by
  intro h _ rest
  refine (decV_12 ..).trans ?_
  rfl

theorem fneg (f : VF) : Statement (.fneg f) := by
  intro h _ rest
  refine (decV_12 ..).trans ?_
  rfl

theorem fsgn (f : VF) : Statement (.fsgn f) := by
  intro h _ rest
  refine (decV_12 ..).trans ?_
  rfl

theorem fround (f : VF) : Statement (.fround f) := by
  intro h _ rest
  refine (decV_12 ..).trans ?_
  rfl

theorem fmac (f : VF) : Statement (.fmac f) := by
  intro h _ rest
  refine (decV_13 ..).trans ?_
  rfl

theorem fmsc (f : VF) : Statement (.fmsc f) := by
  intro h _ rest
  refine (decV_13 ..).trans ?_
  rfl

theorem fnmac (f : VF) : Statement (.fnmac f) := by
  intro h _ rest
  refine (decV_13 ..).trans ?_
  rfl

theorem fnmsc (f : VF) : Statement (.fnmsc f) := by
  intro h _ rest
  refine (decV_13 ..).trans ?_
  rfl

theorem fmah (f : VF) : Statement (.fmah f) := by
  intro h _ rest
  refine (decV_13 ..).trans ?_
  obtain ⟨d, a, b, k, s⟩ := f
  cases s
  · rfl
  · rfl
  · exact absurd (show false = true from h) (by decide)

theorem fmahLit (d : BitVec 5) (a : BitVec 5) (b : BitVec 5) (k : BitVec 3) (l : Word32) : Statement (.fmahLit d a b k l) := by
  intro h _ rest
  refine (decV_13 ..).trans ?_
  rfl

theorem fmsh (f : VF) : Statement (.fmsh f) := by
  intro h _ rest
  refine (decV_13 ..).trans ?_
  rfl

theorem fnmah (f : VF) : Statement (.fnmah f) := by
  intro h _ rest
  refine (decV_13 ..).trans ?_
  rfl

theorem fnmsh (f : VF) : Statement (.fnmsh f) := by
  intro h _ rest
  refine (decV_13 ..).trans ?_
  rfl

theorem fadd16 (f : VF) (bf : Bool) : Statement (.fadd16 f bf) := by
  intro h _ rest
  refine (decV_14 ..).trans ?_
  cases bf <;> rfl

theorem fsub16 (f : VF) (bf : Bool) : Statement (.fsub16 f bf) := by
  intro h _ rest
  refine (decV_14 ..).trans ?_
  cases bf <;> rfl

theorem fmul16 (f : VF) (bf : Bool) : Statement (.fmul16 f bf) := by
  intro h _ rest
  refine (decV_14 ..).trans ?_
  cases bf <;> rfl

theorem fmin16 (f : VF) (bf : Bool) : Statement (.fmin16 f bf) := by
  intro h _ rest
  refine (decV_14 ..).trans ?_
  cases bf <;> rfl

theorem fmax16 (f : VF) (bf : Bool) : Statement (.fmax16 f bf) := by
  intro h _ rest
  refine (decV_14 ..).trans ?_
  cases bf <;> rfl

theorem fmac16 (f : VF) (bf : Bool) : Statement (.fmac16 f bf) := by
  intro h _ rest
  refine (decV_14 ..).trans ?_
  cases bf <;> rfl

theorem fnmac16 (f : VF) (bf : Bool) : Statement (.fnmac16 f bf) := by
  intro h _ rest
  refine (decV_14 ..).trans ?_
  cases bf <;> rfl

theorem fmah16 (f : VF) (bf : Bool) : Statement (.fmah16 f bf) := by
  intro h _ rest
  refine (decV_14 ..).trans ?_
  cases bf <;> rfl

theorem vmovImm (d : BitVec 5) (i : BitVec 20) : Statement (.vmovImm d i) := by
  intro h _ rest
  refine (decode_word _ rest (encVi_31 ..) ?_).trans ?_
  · simp only [literalWords, encVi_m]; rfl
  · simp only [decode32, encVi_m, encVi_d, encVi_i]; rfl

theorem fmahImm (d : BitVec 5) (i : BitVec 20) : Statement (.fmahImm d i) := by
  intro h _ rest
  refine (decode_word _ rest (encVi_31 ..) ?_).trans ?_
  · simp only [literalWords, encVi_m]; rfl
  · simp only [decode32, encVi_m, encVi_d, encVi_i]; rfl

theorem fcmp (f : VF) (c : BitVec 3) : Statement (.fcmp f c) := by
  intro h _ rest
  refine (decV_17 ..).trans ?_
  revert h
  exact bv3 (P := fun c => WellFormed (.fcmp f c) → Decoded.of (decode17 f (0#2 ++ c)) = .instr (.fcmp f c)) (fun h => checked_wf h) (fun h => checked_wf h) (fun h => checked_wf h) (fun h => checked_wf h) (fun h => checked_wf h) (fun h => checked_wf h) (fun h => checked_wf h) (fun h => checked_wf h) c

theorem icmp (f : VF) (c : BitVec 3) : Statement (.icmp f c) := by
  intro h _ rest
  refine (decV_17 ..).trans ?_
  revert h
  exact bv3 (P := fun c => WellFormed (.icmp f c) → Decoded.of (decode17 f (1#2 ++ c)) = .instr (.icmp f c)) (fun h => checked_wf h) (fun h => checked_wf h) (fun h => checked_wf h) (fun h => checked_wf h) (fun h => checked_wf h) (fun h => checked_wf h) (fun h => checked_wf h) (fun h => checked_wf h) c

theorem vsel (f : VF) : Statement (.vsel f) := by
  intro h _ rest
  refine (decV_17 ..).trans ?_
  rfl

theorem kand (f : VF) : Statement (.kand f) := by
  intro h _ rest
  refine (decV_17 ..).trans ?_
  exact checked_wf h

theorem kor (f : VF) : Statement (.kor f) := by
  intro h _ rest
  refine (decV_17 ..).trans ?_
  exact checked_wf h

theorem kxor (f : VF) : Statement (.kxor f) := by
  intro h _ rest
  refine (decV_17 ..).trans ?_
  exact checked_wf h

theorem kandn (f : VF) : Statement (.kandn f) := by
  intro h _ rest
  refine (decV_17 ..).trans ?_
  exact checked_wf h

theorem knot (f : VF) : Statement (.knot f) := by
  intro h _ rest
  refine (decV_17 ..).trans ?_
  exact checked_wf h

theorem fcvtF16F32 (f : VF) : Statement (.fcvtF16F32 f) := by
  intro h _ rest
  refine (decV_18 ..).trans ?_
  rfl

theorem fcvtBf16F32 (f : VF) : Statement (.fcvtBf16F32 f) := by
  intro h _ rest
  refine (decV_18 ..).trans ?_
  rfl

theorem fcvtF32F16 (f : VF) : Statement (.fcvtF32F16 f) := by
  intro h _ rest
  refine (decV_18 ..).trans ?_
  exact checked_wf h

theorem fcvtF32Bf16 (f : VF) : Statement (.fcvtF32Bf16 f) := by
  intro h _ rest
  refine (decV_18 ..).trans ?_
  exact checked_wf h

theorem fcvtI32F32 (f : VF) : Statement (.fcvtI32F32 f) := by
  intro h _ rest
  refine (decV_18 ..).trans ?_
  rfl

theorem fcvtI32F32Z (f : VF) : Statement (.fcvtI32F32Z f) := by
  intro h _ rest
  refine (decV_18 ..).trans ?_
  rfl

theorem fcvtN32F32 (f : VF) : Statement (.fcvtN32F32 f) := by
  intro h _ rest
  refine (decV_18 ..).trans ?_
  rfl

theorem fcvtN32F32Z (f : VF) : Statement (.fcvtN32F32Z f) := by
  intro h _ rest
  refine (decV_18 ..).trans ?_
  rfl

theorem fcvtF32I32 (f : VF) : Statement (.fcvtF32I32 f) := by
  intro h _ rest
  refine (decV_18 ..).trans ?_
  rfl

theorem fcvtF32N32 (f : VF) : Statement (.fcvtF32N32 f) := by
  intro h _ rest
  refine (decV_18 ..).trans ?_
  rfl

theorem vnarrowI8 (f : VF) : Statement (.vnarrowI8 f) := by
  intro h _ rest
  refine (decV_18 ..).trans ?_
  exact checked_wf h

theorem vnarrowN8 (f : VF) : Statement (.vnarrowN8 f) := by
  intro h _ rest
  refine (decV_18 ..).trans ?_
  exact checked_wf h

theorem vwidenI8 (f : VF) : Statement (.vwidenI8 f) := by
  intro h _ rest
  refine (decV_18 ..).trans ?_
  exact checked_wf h

theorem vwidenN8 (f : VF) : Statement (.vwidenN8 f) := by
  intro h _ rest
  refine (decV_18 ..).trans ?_
  exact checked_wf h

theorem vq4 (f : VF) (q : BitVec 2) : Statement (.vq4 f q) := by
  intro h _ rest
  refine (decV_18 ..).trans ?_
  exact bv2 (P := fun q => Decoded.of (decode18 f (4#3 ++ q)) = .instr (.vq4 f q)) rfl rfl rfl rfl q

theorem vq4a (f : VF) (q : BitVec 2) : Statement (.vq4a f q) := by
  intro h _ rest
  refine (decV_18 ..).trans ?_
  exact bv2 (P := fun q => Decoded.of (decode18 f (5#3 ++ q)) = .instr (.vq4a f q)) rfl rfl rfl rfl q

theorem vdq4 (f : VF) : Statement (.vdq4 f) := by
  intro h _ rest
  refine (decV_18 ..).trans ?_
  exact checked_wf h

theorem vadd (f : VF) : Statement (.vadd f) := by
  intro h _ rest
  refine (decV_19 ..).trans ?_
  rfl

theorem vsub (f : VF) : Statement (.vsub f) := by
  intro h _ rest
  refine (decV_19 ..).trans ?_
  rfl

theorem vmul (f : VF) : Statement (.vmul f) := by
  intro h _ rest
  refine (decV_19 ..).trans ?_
  rfl

theorem vmulh (f : VF) : Statement (.vmulh f) := by
  intro h _ rest
  refine (decV_19 ..).trans ?_
  rfl

theorem vmin (f : VF) : Statement (.vmin f) := by
  intro h _ rest
  refine (decV_19 ..).trans ?_
  rfl

theorem vmax (f : VF) : Statement (.vmax f) := by
  intro h _ rest
  refine (decV_19 ..).trans ?_
  rfl

theorem vminu (f : VF) : Statement (.vminu f) := by
  intro h _ rest
  refine (decV_19 ..).trans ?_
  rfl

theorem vmaxu (f : VF) : Statement (.vmaxu f) := by
  intro h _ rest
  refine (decV_19 ..).trans ?_
  rfl

theorem vand (f : VF) : Statement (.vand f) := by
  intro h _ rest
  refine (decV_19 ..).trans ?_
  rfl

theorem vor (f : VF) : Statement (.vor f) := by
  intro h _ rest
  refine (decV_19 ..).trans ?_
  rfl

theorem vxor (f : VF) : Statement (.vxor f) := by
  intro h _ rest
  refine (decV_19 ..).trans ?_
  rfl

theorem vandn (f : VF) : Statement (.vandn f) := by
  intro h _ rest
  refine (decV_19 ..).trans ?_
  rfl

theorem vshl (f : VF) : Statement (.vshl f) := by
  intro h _ rest
  refine (decV_19 ..).trans ?_
  rfl

theorem vshr (f : VF) : Statement (.vshr f) := by
  intro h _ rest
  refine (decV_19 ..).trans ?_
  rfl

theorem vsar (f : VF) : Statement (.vsar f) := by
  intro h _ rest
  refine (decV_19 ..).trans ?_
  rfl

theorem vabs (f : VF) : Statement (.vabs f) := by
  intro h _ rest
  refine (decV_19 ..).trans ?_
  rfl

theorem vaddI16 (f : VF) : Statement (.vaddI16 f) := by
  intro h _ rest
  refine (decV_19 ..).trans ?_
  rfl

theorem vsubI16 (f : VF) : Statement (.vsubI16 f) := by
  intro h _ rest
  refine (decV_19 ..).trans ?_
  rfl

theorem vdot4Ss (f : VF) : Statement (.vdot4Ss f) := by
  intro h _ rest
  refine (decV_19 ..).trans ?_
  rfl

theorem vdot4Uu (f : VF) : Statement (.vdot4Uu f) := by
  intro h _ rest
  refine (decV_19 ..).trans ?_
  rfl

theorem vdot4Us (f : VF) : Statement (.vdot4Us f) := by
  intro h _ rest
  refine (decV_19 ..).trans ?_
  rfl

theorem vperm (f : VF) : Statement (.vperm f) := by
  intro h _ rest
  refine (decV_1A ..).trans ?_
  rfl

theorem vbcast (f : VF) : Statement (.vbcast f) := by
  intro h _ rest
  refine (decV_1A ..).trans ?_
  exact checked_wf h

theorem vslup (f : VF) : Statement (.vslup f) := by
  intro h _ rest
  refine (decV_1A ..).trans ?_
  exact checked_wf h

theorem vsldn (f : VF) : Statement (.vsldn f) := by
  intro h _ rest
  refine (decV_1A ..).trans ?_
  exact checked_wf h

theorem vrot (f : VF) : Statement (.vrot f) := by
  intro h _ rest
  refine (decV_1A ..).trans ?_
  exact checked_wf h

theorem vrev (f : VF) : Statement (.vrev f) := by
  intro h _ rest
  refine (decV_1A ..).trans ?_
  rfl

theorem vzipLo (f : VF) : Statement (.vzipLo f) := by
  intro h _ rest
  refine (decV_1A ..).trans ?_
  rfl

theorem vzipHi (f : VF) : Statement (.vzipHi f) := by
  intro h _ rest
  refine (decV_1A ..).trans ?_
  rfl

theorem vuzpEv (f : VF) : Statement (.vuzpEv f) := by
  intro h _ rest
  refine (decV_1A ..).trans ?_
  rfl

theorem vuzpOd (f : VF) : Statement (.vuzpOd f) := by
  intro h _ rest
  refine (decV_1A ..).trans ?_
  rfl

theorem fsum (f : VF) : Statement (.fsum f) := by
  intro h _ rest
  refine (decV_1B ..).trans ?_
  rfl

theorem fmaxr (f : VF) : Statement (.fmaxr f) := by
  intro h _ rest
  refine (decV_1B ..).trans ?_
  rfl

theorem fminr (f : VF) : Statement (.fminr f) := by
  intro h _ rest
  refine (decV_1B ..).trans ?_
  rfl

theorem isum (f : VF) : Statement (.isum f) := by
  intro h _ rest
  refine (decV_1B ..).trans ?_
  rfl

theorem imaxr (f : VF) : Statement (.imaxr f) := by
  intro h _ rest
  refine (decV_1B ..).trans ?_
  rfl

theorem iminr (f : VF) : Statement (.iminr f) := by
  intro h _ rest
  refine (decV_1B ..).trans ?_
  rfl

theorem imaxur (f : VF) : Statement (.imaxur f) := by
  intro h _ rest
  refine (decV_1B ..).trans ?_
  rfl

theorem iminur (f : VF) : Statement (.iminur f) := by
  intro h _ rest
  refine (decV_1B ..).trans ?_
  rfl

theorem frcp (f : VF) : Statement (.frcp f) := by
  intro h _ rest
  refine (decV_1C ..).trans ?_
  rfl

theorem frsqrt (f : VF) : Statement (.frsqrt f) := by
  intro h _ rest
  refine (decV_1C ..).trans ?_
  rfl

theorem vmov (f : VF) : Statement (.vmov f) := by
  intro h _ rest
  refine (decV_1D ..).trans ?_
  obtain ⟨d, a, b, k, s⟩ := f
  cases s
  · rfl
  · rfl
  · exact absurd (show false = true from h) (by decide)

theorem vmovLit (d : BitVec 5) (a : BitVec 5) (b : BitVec 5) (k : BitVec 3) (l : Word32) : Statement (.vmovLit d a b k l) := by
  intro h _ rest
  refine (decV_1D ..).trans ?_
  rfl

theorem vbcg (f : VF) : Statement (.vbcg f) := by
  intro h _ rest
  refine (decV_1D ..).trans ?_
  rfl

theorem vins (f : VF) : Statement (.vins f) := by
  intro h _ rest
  refine (decV_1D ..).trans ?_
  exact checked_wf h

theorem vext (f : VF) : Statement (.vext f) := by
  intro h _ rest
  refine (decV_1D ..).trans ?_
  exact checked_wf h

theorem vextu (f : VF) : Statement (.vextu f) := by
  intro h _ rest
  refine (decV_1D ..).trans ?_
  exact checked_wf h

theorem kmovg (f : VF) : Statement (.kmovg f) := by
  intro h _ rest
  refine (decV_1D ..).trans ?_
  exact checked_wf h

theorem kmovk (f : VF) : Statement (.kmovk f) := by
  intro h _ rest
  refine (decV_1D ..).trans ?_
  exact checked_wf h

theorem ld (d : BitVec 6) (b : BitVec 6) (s : BitVec 2) (w : BitVec 4) (o : BitVec 6) : Statement (.ld d b s w o) := by
  intro _ _ rest
  refine (decode_word _ rest (encM_31 ..) ?_).trans ?_
  · simp only [literalWords, encM_m]; rfl
  · simp (disch := decide) only [decode32, decodeM, encM_m, encM_d, encM_d5, encM_d24, encM_b, encM_s12, encM_s10, encM_w, encM_o, gHi, exLo, exSelf]; rfl

theorem ldV (d : BitVec 5) (b : BitVec 6) (w : BitVec 4) (o : BitVec 6) : Statement (.ldV d b w o) := by
  intro _ _ rest
  refine (decode_word _ rest (encM_31 ..) ?_).trans ?_
  · simp only [literalWords, encM_m]; rfl
  · simp (disch := decide) only [decode32, decodeM, encM_m, encM_d, encM_d5, encM_d24, encM_b, encM_s12, encM_s10, encM_w, encM_o, gHi, exLo, exSelf]; rfl

theorem ldu (d : BitVec 6) (b : BitVec 6) (s : BitVec 2) (w : BitVec 4) (o : BitVec 6) : Statement (.ldu d b s w o) := by
  intro _ _ rest
  refine (decode_word _ rest (encM_31 ..) ?_).trans ?_
  · simp only [literalWords, encM_m]; rfl
  · simp (disch := decide) only [decode32, decodeM, encM_m, encM_d, encM_d5, encM_d24, encM_b, encM_s12, encM_s10, encM_w, encM_o, gHi, exLo, exSelf]; rfl

theorem st (d : BitVec 6) (b : BitVec 6) (s : BitVec 2) (w : BitVec 4) (o : BitVec 6) : Statement (.st d b s w o) := by
  intro _ _ rest
  refine (decode_word _ rest (encM_31 ..) ?_).trans ?_
  · simp only [literalWords, encM_m]; rfl
  · simp (disch := decide) only [decode32, decodeM, encM_m, encM_d, encM_d5, encM_d24, encM_b, encM_s12, encM_s10, encM_w, encM_o, gHi, exLo, exSelf]; rfl

theorem stV (d : BitVec 5) (b : BitVec 6) (w : BitVec 4) (o : BitVec 6) : Statement (.stV d b w o) := by
  intro _ _ rest
  refine (decode_word _ rest (encM_31 ..) ?_).trans ?_
  · simp only [literalWords, encM_m]; rfl
  · simp (disch := decide) only [decode32, decodeM, encM_m, encM_d, encM_d5, encM_d24, encM_b, encM_s12, encM_s10, encM_w, encM_o, gHi, exLo, exSelf]; rfl

theorem ldw (d : BitVec 6) (b : BitVec 6) (s : BitVec 2) (w : BitVec 4) (o : BitVec 6) : Statement (.ldw d b s w o) := by
  intro _ _ rest
  refine (decode_word _ rest (encM_31 ..) ?_).trans ?_
  · simp only [literalWords, encM_m]; rfl
  · simp (disch := decide) only [decode32, decodeM, encM_m, encM_d, encM_d5, encM_d24, encM_b, encM_s12, encM_s10, encM_w, encM_o, gHi, exLo, exSelf]; rfl

theorem ldwV (d : BitVec 5) (b : BitVec 6) (w : BitVec 4) (o : BitVec 6) : Statement (.ldwV d b w o) := by
  intro _ _ rest
  refine (decode_word _ rest (encM_31 ..) ?_).trans ?_
  · simp only [literalWords, encM_m]; rfl
  · simp (disch := decide) only [decode32, decodeM, encM_m, encM_d, encM_d5, encM_d24, encM_b, encM_s12, encM_s10, encM_w, encM_o, gHi, exLo, exSelf]; rfl

theorem ldc (d : BitVec 6) (b : BitVec 6) (s : BitVec 2) (w : BitVec 4) (o : BitVec 6) : Statement (.ldc d b s w o) := by
  intro _ _ rest
  refine (decode_word _ rest (encM_31 ..) ?_).trans ?_
  · simp only [literalWords, encM_m]; rfl
  · simp (disch := decide) only [decode32, decodeM, encM_m, encM_d, encM_d5, encM_d24, encM_b, encM_s12, encM_s10, encM_w, encM_o, gHi, exLo, exSelf]; rfl

theorem ldcV (d : BitVec 5) (b : BitVec 6) (w : BitVec 4) (o : BitVec 6) : Statement (.ldcV d b w o) := by
  intro _ _ rest
  refine (decode_word _ rest (encM_31 ..) ?_).trans ?_
  · simp only [literalWords, encM_m]; rfl
  · simp (disch := decide) only [decode32, decodeM, encM_m, encM_d, encM_d5, encM_d24, encM_b, encM_s12, encM_s10, encM_w, encM_o, gHi, exLo, exSelf]; rfl

theorem vgather (f : VF) (n : BitVec 4) : Statement (.vgather f n) := by
  intro h _ rest
  refine (decV_23 ..).trans ?_
  simp (disch := decide) only [gHi, exLo, exSelf]
  exact checked_wf h

theorem vscatter (f : VF) (n : BitVec 4) : Statement (.vscatter f n) := by
  intro h _ rest
  refine (decV_23 ..).trans ?_
  simp (disch := decide) only [gHi, exLo, exSelf]
  rfl

theorem wmerge (d : BitVec 6) (a : BitVec 6) (b : BitVec 6) : Statement (.wmerge d a b) := by
  intro h _ rest
  refine (decR_24 ..).trans ?_
  exact checked_wf h

theorem wmovg (d : BitVec 6) (a : BitVec 6) (b : BitVec 6) : Statement (.wmovg d a b) := by
  intro h _ rest
  refine (decR_24 ..).trans ?_
  exact checked_wf h

theorem wmovw (d : BitVec 6) (a : BitVec 6) (b : BitVec 6) : Statement (.wmovw d a b) := by
  intro h _ rest
  refine (decR_24 ..).trans ?_
  exact checked_wf h

theorem wwait (d : BitVec 6) (a : BitVec 6) (b : BitVec 6) : Statement (.wwait d a b) := by
  intro h _ rest
  refine (decR_24 ..).trans ?_
  exact checked_wf h

theorem wfence (d : BitVec 6) (a : BitVec 6) (b : BitVec 6) : Statement (.wfence d a b) := by
  intro h _ rest
  refine (decR_24 ..).trans ?_
  exact checked_wf h

theorem wtest (d : BitVec 6) (a : BitVec 6) (b : BitVec 6) : Statement (.wtest d a b) := by
  intro h _ rest
  refine (decR_24 ..).trans ?_
  exact checked_wf h

theorem amoSwap (d : BitVec 6) (b : BitVec 6) (dw : Bool) (w : BitVec 4) (win : Bool) : Statement (.amoSwap d b dw w win) := by
  intro h _ rest
  refine (decode_word _ rest (encM_31 ..) ?_).trans ?_
  · simp only [literalWords, encM_m]; rfl
  · simp only [decode32, decode25, encM_m, encM_d, encM_b, encM_s11, encM_sb, encM_w, encM_o4, encM_ob4, encM_ob5]; cases dw <;> cases win <;> rfl

theorem amoCas (d : BitVec 6) (b : BitVec 6) (dw : Bool) (w : BitVec 4) (win : Bool) : Statement (.amoCas d b dw w win) := by
  intro h _ rest
  refine (decode_word _ rest (encM_31 ..) ?_).trans ?_
  · simp only [literalWords, encM_m]; rfl
  · simp only [decode32, decode25, encM_m, encM_d, encM_b, encM_s11, encM_sb, encM_w, encM_o4, encM_ob4, encM_ob5]; cases dw <;> cases win <;> exact checked_wf h

theorem amoAdd (d : BitVec 6) (b : BitVec 6) (dw : Bool) (w : BitVec 4) (win : Bool) : Statement (.amoAdd d b dw w win) := by
  intro h _ rest
  refine (decode_word _ rest (encM_31 ..) ?_).trans ?_
  · simp only [literalWords, encM_m]; rfl
  · simp only [decode32, decode25, encM_m, encM_d, encM_b, encM_s11, encM_sb, encM_w, encM_o4, encM_ob4, encM_ob5]; cases dw <;> cases win <;> rfl

theorem amoAnd (d : BitVec 6) (b : BitVec 6) (dw : Bool) (w : BitVec 4) (win : Bool) : Statement (.amoAnd d b dw w win) := by
  intro h _ rest
  refine (decode_word _ rest (encM_31 ..) ?_).trans ?_
  · simp only [literalWords, encM_m]; rfl
  · simp only [decode32, decode25, encM_m, encM_d, encM_b, encM_s11, encM_sb, encM_w, encM_o4, encM_ob4, encM_ob5]; cases dw <;> cases win <;> rfl

theorem amoOr (d : BitVec 6) (b : BitVec 6) (dw : Bool) (w : BitVec 4) (win : Bool) : Statement (.amoOr d b dw w win) := by
  intro h _ rest
  refine (decode_word _ rest (encM_31 ..) ?_).trans ?_
  · simp only [literalWords, encM_m]; rfl
  · simp only [decode32, decode25, encM_m, encM_d, encM_b, encM_s11, encM_sb, encM_w, encM_o4, encM_ob4, encM_ob5]; cases dw <;> cases win <;> rfl

theorem amoXor (d : BitVec 6) (b : BitVec 6) (dw : Bool) (w : BitVec 4) (win : Bool) : Statement (.amoXor d b dw w win) := by
  intro h _ rest
  refine (decode_word _ rest (encM_31 ..) ?_).trans ?_
  · simp only [literalWords, encM_m]; rfl
  · simp only [decode32, decode25, encM_m, encM_d, encM_b, encM_s11, encM_sb, encM_w, encM_o4, encM_ob4, encM_ob5]; cases dw <;> cases win <;> rfl

theorem amoMin (d : BitVec 6) (b : BitVec 6) (dw : Bool) (w : BitVec 4) (win : Bool) : Statement (.amoMin d b dw w win) := by
  intro h _ rest
  refine (decode_word _ rest (encM_31 ..) ?_).trans ?_
  · simp only [literalWords, encM_m]; rfl
  · simp only [decode32, decode25, encM_m, encM_d, encM_b, encM_s11, encM_sb, encM_w, encM_o4, encM_ob4, encM_ob5]; cases dw <;> cases win <;> rfl

theorem amoMax (d : BitVec 6) (b : BitVec 6) (dw : Bool) (w : BitVec 4) (win : Bool) : Statement (.amoMax d b dw w win) := by
  intro h _ rest
  refine (decode_word _ rest (encM_31 ..) ?_).trans ?_
  · simp only [literalWords, encM_m]; rfl
  · simp only [decode32, decode25, encM_m, encM_d, encM_b, encM_s11, encM_sb, encM_w, encM_o4, encM_ob4, encM_ob5]; cases dw <;> cases win <;> rfl

theorem amoMinu (d : BitVec 6) (b : BitVec 6) (dw : Bool) (w : BitVec 4) (win : Bool) : Statement (.amoMinu d b dw w win) := by
  intro h _ rest
  refine (decode_word _ rest (encM_31 ..) ?_).trans ?_
  · simp only [literalWords, encM_m]; rfl
  · simp only [decode32, decode25, encM_m, encM_d, encM_b, encM_s11, encM_sb, encM_w, encM_o4, encM_ob4, encM_ob5]; cases dw <;> cases win <;> rfl

theorem amoMaxu (d : BitVec 6) (b : BitVec 6) (dw : Bool) (w : BitVec 4) (win : Bool) : Statement (.amoMaxu d b dw w win) := by
  intro h _ rest
  refine (decode_word _ rest (encM_31 ..) ?_).trans ?_
  · simp only [literalWords, encM_m]; rfl
  · simp only [decode32, decode25, encM_m, encM_d, encM_b, encM_s11, encM_sb, encM_w, encM_o4, encM_ob4, encM_ob5]; cases dw <;> cases win <;> rfl

theorem amoFadd (d : BitVec 6) (b : BitVec 6) (w : BitVec 4) (win : Bool) : Statement (.amoFadd d b w win) := by
  intro h _ rest
  refine (decode_word _ rest (encM_31 ..) ?_).trans ?_
  · simp only [literalWords, encM_m]; rfl
  · simp only [decode32, decode25, encM_m, encM_d, encM_b, encM_s11, encM_sb, encM_w, encM_o4, encM_ob4, encM_ob5]; cases win <;> rfl

theorem dtake (d : BitVec 6) (a : BitVec 6) (b : BitVec 6) : Statement (.dtake d a b) := by
  intro h _ rest
  refine (decR_26 ..).trans ?_
  exact checked_wf h

theorem dtakeTry (d : BitVec 6) (a : BitVec 6) (b : BitVec 6) : Statement (.dtakeTry d a b) := by
  intro h _ rest
  refine (decR_26 ..).trans ?_
  exact checked_wf h

theorem dfree (d : BitVec 6) (a : BitVec 6) (b : BitVec 6) : Statement (.dfree d a b) := by
  intro h _ rest
  refine (decR_26 ..).trans ?_
  rfl

theorem dclaim (d : BitVec 6) (a : BitVec 6) (b : BitVec 6) : Statement (.dclaim d a b) := by
  intro h _ rest
  refine (decR_26 ..).trans ?_
  rfl

theorem dclaimTry (d : BitVec 6) (a : BitVec 6) (b : BitVec 6) : Statement (.dclaimTry d a b) := by
  intro h _ rest
  refine (decR_26 ..).trans ?_
  rfl

theorem dpost (d : BitVec 6) (a : BitVec 6) (b : BitVec 6) : Statement (.dpost d a b) := by
  intro h _ rest
  refine (decR_26 ..).trans ?_
  exact checked_wf h

theorem dprobe (d : BitVec 6) (a : BitVec 6) (b : BitVec 6) : Statement (.dprobe d a b) := by
  intro h _ rest
  refine (decR_26 ..).trans ?_
  rfl

theorem rrot (d : BitVec 6) (a : BitVec 6) (b : BitVec 6) : Statement (.rrot d a b) := by
  intro h _ rest
  refine (decR_27 ..).trans ?_
  exact checked_wf h

theorem rrotDn (d : BitVec 6) (a : BitVec 6) (b : BitVec 6) : Statement (.rrotDn d a b) := by
  intro h _ rest
  refine (decR_27 ..).trans ?_
  exact checked_wf h

theorem pfRc (d : BitVec 6) (a : BitVec 6) (b : BitVec 6) : Statement (.pfRc d a b) := by
  intro h _ rest
  refine (decR_27 ..).trans ?_
  rfl

theorem pfL2 (d : BitVec 6) (a : BitVec 6) (b : BitVec 6) : Statement (.pfL2 d a b) := by
  intro h _ rest
  refine (decR_27 ..).trans ?_
  rfl

theorem rcinv (d : BitVec 6) (a : BitVec 6) (b : BitVec 6) : Statement (.rcinv d a b) := by
  intro h _ rest
  refine (decR_27 ..).trans ?_
  rfl

theorem rcinvAll (d : BitVec 6) (a : BitVec 6) (b : BitVec 6) : Statement (.rcinvAll d a b) := by
  intro h _ rest
  refine (decR_27 ..).trans ?_
  rfl

theorem spawn (d : BitVec 6) (a : BitVec 6) (b : BitVec 6) : Statement (.spawn d a b) := by
  intro h _ rest
  refine (decR_28 ..).trans ?_
  rfl

theorem join (d : BitVec 6) (a : BitVec 6) (b : BitVec 6) : Statement (.join d a b) := by
  intro h _ rest
  refine (decR_28 ..).trans ?_
  exact checked_wf h

theorem yield (d : BitVec 6) (a : BitVec 6) (b : BitVec 6) : Statement (.yield d a b) := by
  intro h _ rest
  refine (decR_28 ..).trans ?_
  rfl

theorem exit (d : BitVec 6) (a : BitVec 6) (b : BitVec 6) : Statement (.exit d a b) := by
  intro h _ rest
  refine (decR_28 ..).trans ?_
  rfl

theorem send (d : BitVec 6) (a : BitVec 6) (b : BitVec 6) : Statement (.send d a b) := by
  intro h _ rest
  refine (decR_29 ..).trans ?_
  exact checked_wf h

theorem sendTry (d : BitVec 6) (a : BitVec 6) (b : BitVec 6) : Statement (.sendTry d a b) := by
  intro h _ rest
  refine (decR_29 ..).trans ?_
  exact checked_wf h

theorem recv (d : BitVec 6) (a : BitVec 6) (b : BitVec 6) : Statement (.recv d a b) := by
  intro h _ rest
  refine (decR_29 ..).trans ?_
  rfl

theorem tbset (d : BitVec 6) (a : BitVec 6) (b : BitVec 6) : Statement (.tbset d a b) := by
  intro h _ rest
  refine (decR_2A ..).trans ?_
  rfl

theorem tbclr (d : BitVec 6) (a : BitVec 6) (b : BitVec 6) : Statement (.tbclr d a b) := by
  intro h _ rest
  refine (decR_2A ..).trans ?_
  rfl

theorem tbrd (d : BitVec 6) (a : BitVec 6) (b : BitVec 6) : Statement (.tbrd d a b) := by
  intro h _ rest
  refine (decR_2A ..).trans ?_
  rfl

theorem cancel (d : BitVec 6) (a : BitVec 6) (b : BitVec 6) : Statement (.cancel d a b) := by
  intro h _ rest
  refine (decR_2B ..).trans ?_
  rfl

theorem ccheck (d : BitVec 6) (a : BitVec 6) (b : BitVec 6) : Statement (.ccheck d a b) := by
  intro h _ rest
  refine (decR_2B ..).trans ?_
  rfl

theorem ccheckX (d : BitVec 6) (a : BitVec 6) (b : BitVec 6) : Statement (.ccheckX d a b) := by
  intro h _ rest
  refine (decR_2B ..).trans ?_
  rfl

theorem bbar (d : BitVec 6) (a : BitVec 6) (b : BitVec 6) : Statement (.bbar d a b) := by
  intro h _ rest
  refine (decR_2C ..).trans ?_
  rfl

theorem mbar (d : BitVec 6) (a : BitVec 6) (b : BitVec 6) : Statement (.mbar d a b) := by
  intro h _ rest
  refine (decR_2C ..).trans ?_
  exact checked_wf h

theorem sigb (d : BitVec 6) (a : BitVec 6) (b : BitVec 6) : Statement (.sigb d a b) := by
  intro h _ rest
  refine (decR_2C ..).trans ?_
  rfl

theorem swait (d : BitVec 6) (a : BitVec 6) (b : BitVec 6) : Statement (.swait d a b) := by
  intro h _ rest
  refine (decR_2C ..).trans ?_
  rfl

theorem rgen (d : BitVec 6) (a : BitVec 6) (b : BitVec 6) : Statement (.rgen d a b) := by
  intro h _ rest
  refine (decR_2C ..).trans ?_
  rfl

theorem cwait (d : BitVec 6) (a : BitVec 6) (b : BitVec 6) : Statement (.cwait d a b) := by
  intro h _ rest
  refine (decR_2D ..).trans ?_
  rfl

theorem rdcyc (d : BitVec 6) (a : BitVec 6) (b : BitVec 6) : Statement (.rdcyc d a b) := by
  intro h _ rest
  refine (decR_2D ..).trans ?_
  rfl

theorem hwait (d : BitVec 6) (a : BitVec 6) (b : BitVec 6) : Statement (.hwait d a b) := by
  intro h _ rest
  refine (decR_2D ..).trans ?_
  rfl

theorem rdhor (d : BitVec 6) (a : BitVec 6) (b : BitVec 6) : Statement (.rdhor d a b) := by
  intro h _ rest
  refine (decR_2D ..).trans ?_
  rfl

theorem rdvis (d : BitVec 6) (a : BitVec 6) (b : BitVec 6) : Statement (.rdvis d a b) := by
  intro h _ rest
  refine (decR_2D ..).trans ?_
  rfl

theorem stset (d : BitVec 6) (a : BitVec 6) (b : BitVec 6) : Statement (.stset d a b) := by
  intro h _ rest
  refine (decR_2E ..).trans ?_
  rfl

theorem stchk (d : BitVec 6) (a : BitVec 6) (b : BitVec 6) : Statement (.stchk d a b) := by
  intro h _ rest
  refine (decR_2E ..).trans ?_
  rfl

theorem stchkX (d : BitVec 6) (a : BitVec 6) (b : BitVec 6) : Statement (.stchkX d a b) := by
  intro h _ rest
  refine (decR_2E ..).trans ?_
  rfl

theorem tsmin (d : BitVec 6) (a : BitVec 6) (b : BitVec 6) : Statement (.tsmin d a b) := by
  intro h _ rest
  refine (decR_2E ..).trans ?_
  rfl

theorem tsrd (d : BitVec 6) (a : BitVec 6) (b : BitVec 6) : Statement (.tsrd d a b) := by
  intro h _ rest
  refine (decR_2E ..).trans ?_
  rfl

theorem pub (d : BitVec 6) (a : BitVec 6) (b : BitVec 6) : Statement (.pub d a b) := by
  intro h _ rest
  refine (decR_2F ..).trans ?_
  rfl

theorem cq (d : BitVec 6) (x : BitVec 3) : Statement (.cq d x) := by
  intro h _ rest
  refine (decode_word (1#1 ++ 0x30#6 ++ d ++ x ++ (0#15 ++ 0#1)) rest (encCq_31 ..) ?_).trans ?_
  · simp only [literalWords, encCq_m]; rfl
  · simp only [decode32, decodeE, encCq_m, encCq_d, encCq_x, encCq_z, encCq_b]; exact checked_wf h

theorem cqTry (d : BitVec 6) (x : BitVec 3) : Statement (.cqTry d x) := by
  intro h _ rest
  refine (decode_word (1#1 ++ 0x30#6 ++ d ++ x ++ (0#15 ++ 1#1)) rest (encCq_31 ..) ?_).trans ?_
  · simp only [literalWords, encCq_m]; rfl
  · simp only [decode32, decodeE, encCq_m, encCq_d, encCq_x, encCq_z, encCq_b]; exact checked_wf h

theorem copy (d : BitVec 6) (x : BitVec 3) (det : Bool) (q : BitVec 2) : Statement (.copy d x det q) := by
  intro h _ rest
  refine (decode_word _ rest (encCopy_31 ..) ?_).trans ?_
  · simp only [literalWords, encCopy_m]; rfl
  · simp only [decode32, decodeE, encCopy_m, encCopy_d, encCopy_x, encCopy_z, encCopy_t, encCopy_q, encCopy_r, encCopy_c]; exact checked_wf h

theorem copyRed (d : BitVec 6) (x : BitVec 3) (det : Bool) (q : BitVec 2) (rop : BitVec 4) : Statement (.copyRed d x det q rop) := by
  intro h _ rest
  refine (decode_word _ rest (encCopy_31 ..) ?_).trans ?_
  · simp only [literalWords, encCopy_m]; rfl
  · simp only [decode32, decodeE, encCopy_m, encCopy_d, encCopy_x, encCopy_z, encCopy_t, encCopy_q, encCopy_r, encCopy_c]; exact checked_wf h

theorem copyMc (d : BitVec 6) (x : BitVec 3) (det : Bool) (q : BitVec 2) : Statement (.copyMc d x det q) := by
  intro h _ rest
  refine (decode_word _ rest (encCopy_31 ..) ?_).trans ?_
  · simp only [literalWords, encCopy_m]; rfl
  · simp only [decode32, decodeE, encCopy_m, encCopy_d, encCopy_x, encCopy_z, encCopy_t, encCopy_q, encCopy_r, encCopy_c]; exact checked_wf h

theorem bwl (d : BitVec 6) (x : BitVec 3) (g : BitVec 6) (q : BitVec 2) (slot : BitVec 3) (det : Bool) : Statement (.bwl d x g q slot det) := by
  intro h _ rest
  refine (decode_word _ rest (encBwl_31 ..) ?_).trans ?_
  · simp only [literalWords, encBwl_m]; rfl
  · simp only [decode32, decodeE, encBwl_m, encBwl_d, encBwl_x, encBwl_g, encBwl_q, encBwl_s, encBwl_t, encBwl_z]; exact checked_wf h

theorem bmm (d : BitVec 6) (x : BitVec 3) (g : BitVec 6) (q : BitVec 2) (slot : BitVec 3) (tile : BitVec 2) (det : Bool) : Statement (.bmm d x g q slot tile det) := by
  intro h _ rest
  refine (decode_word _ rest (encBmm_31 ..) ?_).trans ?_
  · simp only [literalWords, encBmm_m]; rfl
  · simp only [decode32, decodeE, encBmm_m, encBmm_d, encBmm_x, encBmm_g, encBmm_q, encBmm_s, encBmm_n, encBmm_t, encBmm_z]; exact checked_wf h

theorem bdr (d : BitVec 6) (x : BitVec 3) (g : BitVec 6) (q : BitVec 2) (clr : Bool) (raw : Bool) (tile : BitVec 2) (mode : Bool) (det : Bool) : Statement (.bdr d x g q clr raw tile mode det) := by
  intro h _ rest
  refine (decode_word _ rest (encBdr_31 ..) ?_).trans ?_
  · simp only [literalWords, encBdr_m]; rfl
  · simp only [decode32, decodeE, encBdr_m, encBdr_d, encBdr_x, encBdr_g, encBdr_q, encBdr_c, encBdr_r, encBdr_k, encBdr_n, encBdr_o, encBdr_t, encBdr_z]; exact checked_wf h

theorem bclr (d : BitVec 6) (x : BitVec 3) (g : BitVec 6) (q : BitVec 2) (clr : Bool) (raw : Bool) (tile : BitVec 2) (mode : Bool) (det : Bool) : Statement (.bclr d x g q clr raw tile mode det) := by
  intro h _ rest
  refine (decode_word _ rest (encBdr_31 ..) ?_).trans ?_
  · simp only [literalWords, encBdr_m]; rfl
  · simp only [decode32, decodeE, encBdr_m, encBdr_d, encBdr_x, encBdr_g, encBdr_q, encBdr_c, encBdr_r, encBdr_k, encBdr_n, encBdr_o, encBdr_t, encBdr_z]; exact checked_wf h

theorem twait (d : BitVec 6) (a : BitVec 6) (b : BitVec 6) : Statement (.twait d a b) := by
  intro h _ rest
  refine (decR_35 ..).trans ?_
  exact checked_wf h

theorem twaitS (d : BitVec 6) (a : BitVec 6) (b : BitVec 6) : Statement (.twaitS d a b) := by
  intro h _ rest
  refine (decR_35 ..).trans ?_
  exact checked_wf h

theorem tpoll (d : BitVec 6) (a : BitVec 6) (b : BitVec 6) : Statement (.tpoll d a b) := by
  intro h _ rest
  refine (decR_35 ..).trans ?_
  rfl

theorem tcancel (d : BitVec 6) (a : BitVec 6) (b : BitVec 6) : Statement (.tcancel d a b) := by
  intro h _ rest
  refine (decR_36 ..).trans ?_
  rfl

theorem tdet (d : BitVec 6) (a : BitVec 6) (b : BitVec 6) : Statement (.tdet d a b) := by
  intro h _ rest
  refine (decR_36 ..).trans ?_
  rfl

theorem tadopt (d : BitVec 6) (a : BitVec 6) (b : BitVec 6) : Statement (.tadopt d a b) := by
  intro h _ rest
  refine (decR_36 ..).trans ?_
  rfl

theorem tpri (d : BitVec 6) (a : BitVec 6) (b : BitVec 6) : Statement (.tpri d a b) := by
  intro h _ rest
  refine (decR_36 ..).trans ?_
  rfl

theorem qfence (d : BitVec 6) (a : BitVec 6) (b : BitVec 6) : Statement (.qfence d a b) := by
  intro h _ rest
  refine (decR_37 ..).trans ?_
  rfl

theorem tfrec (d : BitVec 6) (a : BitVec 6) (n : BitVec 6) : Statement (.tfrec d a n) := by
  intro h _ rest
  refine (decR_37 ..).trans ?_
  exact checked_wf h

theorem accessAtHome : ∀ (a0 : Nat) (b1 : List Nat), Statement (.accessAtHome a0 b1) :=
  fun _ _ _ he => nomatch he

theorem loadReply : ∀ (a0 : Nat), Statement (.loadReply a0) :=
  fun _ _ he => nomatch he

theorem witnessReturn : ∀ (a0 : Nat), Statement (.witnessReturn a0) :=
  fun _ _ he => nomatch he

theorem drawerEnable : ∀ (a0 : Nat) (b1 : Nat), Statement (.drawerEnable a0 b1) :=
  fun _ _ _ he => nomatch he

theorem drawerDisable : ∀ (a0 : Nat) (b1 : Nat), Statement (.drawerDisable a0 b1) :=
  fun _ _ _ he => nomatch he

theorem stampRegionWrite : ∀ (a0 : Nat) (b1 : Nat) (c2 : Nat) (d3 : Word), Statement (.stampRegionWrite a0 b1 c2 d3) :=
  fun _ _ _ _ _ he => nomatch he

theorem commandEnqueue : ∀ (a0 : Nat), Statement (.commandEnqueue a0) :=
  fun _ _ he => nomatch he

theorem copyDescRead : ∀ (a0 : Nat), Statement (.copyDescRead a0) :=
  fun _ _ he => nomatch he

theorem leaveGrant : ∀ (a0 : Nat), Statement (.leaveGrant a0) :=
  fun _ _ he => nomatch he

theorem opStart : ∀ (a0 : Nat) (b1 : Nat), Statement (.opStart a0 b1) :=
  fun _ _ _ he => nomatch he

theorem copyChunk : ∀ (a0 : Nat), Statement (.copyChunk a0) :=
  fun _ _ he => nomatch he

theorem reduceApply : ∀ (a0 : Nat) (b1 : Nat), Statement (.reduceApply a0 b1) :=
  fun _ _ _ he => nomatch he

theorem applyRetry : ∀ (a0 : Nat) (b1 : Nat), Statement (.applyRetry a0 b1) :=
  fun _ _ _ he => nomatch he

theorem chunkClose : ∀ (a0 : Nat), Statement (.chunkClose a0) :=
  fun _ _ he => nomatch he

theorem copyClaimResume : ∀ (a0 : Nat), Statement (.copyClaimResume a0) :=
  fun _ _ he => nomatch he

theorem berylOpComplete : ∀ (a0 : Nat), Statement (.berylOpComplete a0) :=
  fun _ _ he => nomatch he

theorem opEnd : ∀ (a0 : Nat), Statement (.opEnd a0) :=
  fun _ _ he => nomatch he

theorem engineStarved : ∀ (a0 : Nat), Statement (.engineStarved a0) :=
  fun _ _ he => nomatch he

theorem spawnStarved : ∀ (a0 : Nat), Statement (.spawnStarved a0) :=
  fun _ _ he => nomatch he

theorem idleTimeout : ∀ (a0 : Nat), Statement (.idleTimeout a0) :=
  fun _ _ he => nomatch he

theorem interrupt : ∀ (a0 : Nat), Statement (.interrupt a0) :=
  fun _ _ he => nomatch he

theorem hostDoorbell : ∀ (a0 : Nat) (b1 : Nat), Statement (.hostDoorbell a0 b1) :=
  fun _ _ _ he => nomatch he

theorem taskFail : ∀ (a0 : Nat), Statement (.taskFail a0) :=
  fun _ _ he => nomatch he

theorem preempt : ∀ (a0 : Nat), Statement (.preempt a0) :=
  fun _ _ he => nomatch he

theorem threadDispatch : ∀ (a0 : Nat), Statement (.threadDispatch a0) :=
  fun _ _ he => nomatch he

theorem traceSample : ∀ (a0 : Nat), Statement (.traceSample a0) :=
  fun _ _ he => nomatch he

theorem candidateForward : ∀ (a0 : Nat) (b1 : Nat) (c2 : Nat), Statement (.candidateForward a0 b1 c2) :=
  fun _ _ _ _ he => nomatch he

theorem thiefStart : ∀ (a0 : Nat), Statement (.thiefStart a0) :=
  fun _ _ he => nomatch he

theorem stealRequest : ∀ (a0 : Nat), Statement (.stealRequest a0) :=
  fun _ _ he => nomatch he

theorem stealWithdraw : ∀ (a0 : Nat), Statement (.stealWithdraw a0) :=
  fun _ _ he => nomatch he

theorem thiefBackoffEnd : ∀ (a0 : Nat), Statement (.thiefBackoffEnd a0) :=
  fun _ _ he => nomatch he

theorem candidateAgeing : ∀ (a0 : Nat) (b1 : Nat), Statement (.candidateAgeing a0 b1) :=
  fun _ _ _ he => nomatch he

theorem messageArrival : ∀ (a0 : Nat), Statement (.messageArrival a0) :=
  fun _ _ he => nomatch he

theorem cancelBroadcast : ∀ (a0 : Nat) (b1 : Nat) (c2 : Nat), Statement (.cancelBroadcast a0 b1 c2) :=
  fun _ _ _ _ he => nomatch he

theorem signalAdd : ∀ (a0 : Nat), Statement (.signalAdd a0) :=
  fun _ _ he => nomatch he

theorem launchRecord : ∀ (a0 : Nat) (b1 : Nat) (c2 : Nat) (d3 : List Byte), Statement (.launchRecord a0 b1 c2 d3) :=
  fun _ _ _ _ _ he => nomatch he

theorem badlnchClear : ∀ (a0 : Nat) (b1 : Nat), Statement (.badlnchClear a0 b1) :=
  fun _ _ _ he => nomatch he

theorem hostAnswer : ∀ (a0 : Nat) (b1 : Word) (c2 : Word), Statement (.hostAnswer a0 b1 c2) :=
  fun _ _ _ _ he => nomatch he

theorem configMailboxRequest : ∀ (a0 : CfgReq), Statement (.configMailboxRequest a0) :=
  fun _ _ he => nomatch he

theorem hostImageAccess : ∀ (a0 : Nat) (b1 : Nat) (c2 : Nat) (d3 : Option (List Byte)), Statement (.hostImageAccess a0 b1 c2 d3) :=
  fun _ _ _ _ _ he => nomatch he

theorem releaseBufferSend : Statement .releaseBufferSend := fun _ he => nomatch he

theorem pageMapped : ∀ (a0 : Nat), Statement (.pageMapped a0) :=
  fun _ _ he => nomatch he

theorem pageRefused : ∀ (a0 : Nat), Statement (.pageRefused a0) :=
  fun _ _ he => nomatch he

theorem shootdown : ∀ (a0 : Nat) (b1 : Nat) (c2 : Nat), Statement (.shootdown a0 b1 c2) :=
  fun _ _ _ _ he => nomatch he

theorem spareShelfMove : ∀ (a0 : Nat) (b1 : Nat) (c2 : Nat) (d3 : Nat), Statement (.spareShelfMove a0 b1 c2 d3) :=
  fun _ _ _ _ _ he => nomatch he

theorem migrationMove : ∀ (a0 : Nat) (b1 : Nat), Statement (.migrationMove a0 b1) :=
  fun _ _ _ he => nomatch he

theorem settleExpiry : ∀ (a0 : Nat) (b1 : Nat), Statement (.settleExpiry a0 b1) :=
  fun _ _ _ he => nomatch he

theorem epochAdvance : Statement .epochAdvance := fun _ he => nomatch he

theorem visibilityPublish : Statement .visibilityPublish := fun _ he => nomatch he

theorem horizonPublish : ∀ (a0 : Nat), Statement (.horizonPublish a0) :=
  fun _ _ he => nomatch he

theorem cycleStart : ∀ (a0 : Nat), Statement (.cycleStart a0) :=
  fun _ _ he => nomatch he

theorem frameIngress : ∀ (a0 : Frame), Statement (.frameIngress a0) :=
  fun _ _ he => nomatch he

theorem pubCutoff : ∀ (a0 : Nat), Statement (.pubCutoff a0) :=
  fun _ _ he => nomatch he

theorem publishInstant : ∀ (a0 : Nat), Statement (.publishInstant a0) :=
  fun _ _ he => nomatch he

theorem timeCorrection : ∀ (a0 : Int), Statement (.timeCorrection a0) :=
  fun _ _ he => nomatch he

theorem holdoverEntry : Statement .holdoverEntry := fun _ he => nomatch he

theorem classStart : ∀ (a0 : Nat) (b1 : Word), Statement (.classStart a0 b1) :=
  fun _ _ _ he => nomatch he

theorem classStop : ∀ (a0 : Nat), Statement (.classStop a0) :=
  fun _ _ he => nomatch he

theorem budgetExhausted : ∀ (a0 : Nat) (b1 : Nat), Statement (.budgetExhausted a0 b1) :=
  fun _ _ _ he => nomatch he

theorem budgetGraceEnd : ∀ (a0 : Nat), Statement (.budgetGraceEnd a0) :=
  fun _ _ he => nomatch he

theorem recoveryMarkOpen : Statement .recoveryMarkOpen := fun _ he => nomatch he

theorem recoveryMarkClose : Statement .recoveryMarkClose := fun _ he => nomatch he

theorem markHoldTimeout : Statement .markHoldTimeout := fun _ he => nomatch he

theorem machineCheck : ∀ (a0 : Nat), Statement (.machineCheck a0) :=
  fun _ _ he => nomatch he

theorem pairWrite : ∀ (a0 : Word), Statement (.pairWrite a0) :=
  fun _ _ he => nomatch he

theorem logFlit : ∀ (a0 : FlitHdr) (b1 : List LogEntry), Statement (.logFlit a0 b1) :=
  fun _ _ _ he => nomatch he

theorem progFlit : ∀ (a0 : FlitHdr) (b1 : List Nat), Statement (.progFlit a0 b1) :=
  fun _ _ _ he => nomatch he

theorem ackFlit : ∀ (a0 : FlitHdr) (b1 : Word), Statement (.ackFlit a0 b1) :=
  fun _ _ _ he => nomatch he

theorem heartFlit : ∀ (a0 : FlitHdr) (b1 : HeartBody), Statement (.heartFlit a0 b1) :=
  fun _ _ _ he => nomatch he

theorem fillReq : ∀ (a0 : FlitHdr) (b1 : Nat) (c2 : Nat) (d3 : Nat), Statement (.fillReq a0 b1 c2 d3) :=
  fun _ _ _ _ _ he => nomatch he

theorem fillFlit : ∀ (a0 : FlitHdr) (b1 : Nat) (c2 : Nat) (d3 : Nat) (e4 : Nat) (f5 : List Byte), Statement (.fillFlit a0 b1 c2 d3 e4 f5) :=
  fun _ _ _ _ _ _ _ he => nomatch he

theorem fcrcFlit : ∀ (a0 : FlitHdr) (b1 : Nat) (c2 : Word) (d3 : Word32), Statement (.fcrcFlit a0 b1 c2 d3) :=
  fun _ _ _ _ _ he => nomatch he

theorem peerFlit : ∀ (a0 : FlitHdr) (b1 : List Byte), Statement (.peerFlit a0 b1) :=
  fun _ _ _ he => nomatch he

theorem resign : ∀ (a0 : FlitHdr), Statement (.resign a0) :=
  fun _ _ he => nomatch he

theorem standbyAck : Statement .standbyAck := fun _ he => nomatch he

theorem heartTimer : Statement .heartTimer := fun _ he => nomatch he

theorem flitResend : Statement .flitResend := fun _ he => nomatch he

theorem laneRetrainDone : Statement .laneRetrainDone := fun _ he => nomatch he

theorem peerLossTimeout : Statement .peerLossTimeout := fun _ he => nomatch he

theorem lagmaxTimeout : Statement .lagmaxTimeout := fun _ he => nomatch he

theorem tenantSwitch : ∀ (a0 : Nat) (b1 : Option Nat), Statement (.tenantSwitch a0 b1) :=
  fun _ _ _ he => nomatch he

theorem l2LockEnable : ∀ (a0 : Word), Statement (.l2LockEnable a0) :=
  fun _ _ he => nomatch he

theorem l2LockDisable : Statement .l2LockDisable := fun _ he => nomatch he

theorem l2LockDone : Statement .l2LockDone := fun _ he => nomatch he

theorem benchGate : ∀ (a0 : Nat), Statement (.benchGate a0) :=
  fun _ _ he => nomatch he

theorem benchWake : ∀ (a0 : Nat), Statement (.benchWake a0) :=
  fun _ _ he => nomatch he

theorem thermalEmergency : ∀ (a0 : Nat) (b1 : Nat), Statement (.thermalEmergency a0 b1) :=
  fun _ _ _ he => nomatch he

theorem powerCapAdjust : ∀ (a0 : Nat), Statement (.powerCapAdjust a0) :=
  fun _ _ he => nomatch he

theorem packageReset : Statement .packageReset := fun _ he => nomatch he

theorem firmwareRecoveryWrite : ∀ (a0 : List Byte), Statement (.firmwareRecoveryWrite a0) :=
  fun _ _ he => nomatch he

theorem coreReset : ∀ (a0 : Nat), Statement (.coreReset a0) :=
  fun _ _ he => nomatch he

theorem benchReset : ∀ (a0 : Nat), Statement (.benchReset a0) :=
  fun _ _ he => nomatch he

theorem stopJob : ∀ (a0 : Nat), Statement (.stopJob a0) :=
  fun _ _ he => nomatch he

theorem goJob : ∀ (a0 : Nat), Statement (.goJob a0) :=
  fun _ _ he => nomatch he

theorem rdrec : ∀ (a0 : Nat), Statement (.rdrec a0) :=
  fun _ _ he => nomatch he

theorem rdctx : ∀ (a0 : Nat), Statement (.rdctx a0) :=
  fun _ _ he => nomatch he

theorem debugHalt : ∀ (a0 : Nat), Statement (.debugHalt a0) :=
  fun _ _ he => nomatch he

theorem debugRelease : ∀ (a0 : Nat), Statement (.debugRelease a0) :=
  fun _ _ he => nomatch he

theorem debugAccess : ∀ (a0 : DebugReq), Statement (.debugAccess a0) :=
  fun _ _ he => nomatch he

theorem unlock : ∀ (a0 : Nat), Statement (.unlock a0) :=
  fun _ _ he => nomatch he

theorem wipe : ∀ (a0 : Nat), Statement (.wipe a0) :=
  fun _ _ he => nomatch he

theorem openPort : ∀ (a0 : Nat), Statement (.openPort a0) :=
  fun _ _ he => nomatch he

theorem attest : ∀ (a0 : Nat), Statement (.attest a0) :=
  fun _ _ he => nomatch he

theorem keyload : ∀ (a0 : Nat), Statement (.keyload a0) :=
  fun _ _ he => nomatch he

theorem deploy : ∀ (a0 : Nat), Statement (.deploy a0) :=
  fun _ _ he => nomatch he

theorem retire : ∀ (a0 : Nat), Statement (.retire a0) :=
  fun _ _ he => nomatch he

theorem powerLoss : ∀ (a0 : Nat), Statement (.powerLoss a0) :=
  fun _ _ he => nomatch he

theorem qbvGateOpen : ∀ (a0 : Nat), Statement (.qbvGateOpen a0) :=
  fun _ _ he => nomatch he

theorem flitDiscard : ∀ (a0 : FlitHdr), Statement (.flitDiscard a0) :=
  fun _ _ he => nomatch he

theorem stewardNotice : ∀ (a0 : Nat), Statement (.stewardNotice a0) :=
  fun _ _ he => nomatch he

theorem perstRelease : Statement .perstRelease := fun _ he => nomatch he

theorem pcieConfigRequest : Statement .pcieConfigRequest := fun _ he => nomatch he

end Sys2Proof.Laws.RoundTrip
end

