-- ==== Sys2Proof/Safety.lean ====
section
/-! DEFINITION. What counts as a safe run, the invariant of memory, and the words in which the statements say what an instruction
leaves unchanged. -/

namespace Sys2Proof.Machine

/-- A step that neither faults nor is refused. -/
def Safe (s : State) : Prop := ∃ s', step s = .next s'

/-- Every memory the package holds is in canonical form: that of now, and those that the recovery marks save (R259). -/
def Inv (s : State) : Prop :=
  Memory.wf s.pkg.mem ∧ Memory.wf s.saved.mem ∧ ∀ m ∈ s.marks, ∀ p ∈ m.image, Memory.wf p.mem

/-- None of the registers waits for a write: an instruction that uses them can issue (R219). -/
def State.ready (s : State) (rs : List Reg) : Prop := s.me.isBusy rs = false

/-- ctl.tstat after an instruction that raised the flags fl (NV 16, DZ 8, OF 4, UF 2, NX 1), WARN set where w; no prefix is
pending any more (R44, R59). -/
def statAfter (s : State) (fl : Nat) (w : Bool) : Word :=
  ((s.me.tstat ||| BitVec.ofNat 64 (fl % 32 * 4)) &&& ~~~0xFFF00#64) ||| (if w then 0x80#64 else 0)

/-- What an instruction that only computes leaves of its thread: every counter, special and exception register, the constant
bank, the task and its marks. The registers themselves, PC, ctl.tstat, ctl.prog and ctl.vw are blanked. -/
def Thread.aside (t : Thread) : Thread :=
  { t with g := [], v := [], k := [], w := [], x := [], vw := 0, pc := 0, tstat := 0, prog := 0, stall := none }

/-- Nothing outside thread n differs, but the flag summary of a bench (R223), here and in what the open recovery marks save (R259). -/
def SameBut (n : Nat) (s t : State) : Prop :=
  { t with threads := [], pkg := Pkg.reset, marks := [] } = { s with threads := [], pkg := Pkg.reset, marks := [] } ∧
  (∀ m, m ≠ n → t.thr m = s.thr m) ∧
  { t.pkg with benches := [] } = { s.pkg with benches := [] } ∧
  (∀ b, { t.pkg.bench b with bflag := 0 } = { s.pkg.bench b with bflag := 0 })

/-- Nothing outside the running thread differs, but the flag summary of a bench (R223): memory, accesses on their way, other
threads, engines, hub, pair and time are as before. -/
def SameRest (s t : State) : Prop :=
  SameBut s.cur s t

/-- No register of a thread differs but those listed; nor does anything that `Thread.aside` shows. A written vector register
shows in ctl.vw (R353). -/
def KeepsRegs (rs : List Reg) (t0 t : Thread) : Prop :=
  (∀ n, .g n ∉ rs → t.rg n = t0.rg n) ∧ (∀ n, .v n ∉ rs → t.rv n = t0.rv n) ∧ (∀ n, .k n ∉ rs → t.rk n = t0.rk n) ∧
  (∀ n, .w n ∉ rs → t.rw n = t0.rw n) ∧ (∀ n, .x n ∉ rs → t.rx n = t0.rx n) ∧ t.aside = t0.aside ∧
  t.vw = rs.foldl (fun m r => match r with
    | .v n => m ||| 2 ^ n
    | .g _ => m
    | .k _ => m
    | .w _ => m
    | .x _ => m) t0.vw

/-- The running thread completed an instruction that writes only the registers listed: its PC, its status, ctl.prog 0 (R108), and
everything else as before. -/
def Ran (rs : List Reg) (pc st : Word) (s t : State) : Prop :=
  t.cur = s.cur ∧ t.me.pc = pc ∧ t.me.tstat = st ∧ t.me.prog = 0 ∧ t.me.stall = none ∧ KeepsRegs rs s.me t.me ∧ SameRest s t

/-- g[d] reads v, or 0 where d is 0, which ignores writes (R23). -/
def GotG (t : State) (d : Nat) (v : Word) : Prop := t.me.rg d = if d = 0 then 0 else v

/-- k[d] reads v, or all ones where d is 0 (R23). -/
def GotK (t : State) (d : Nat) (v : BitVec 16) : Prop := t.me.rk d = if d = 0 then 0xFFFF else v

/-- w[d] reads v, or the null witness where d is 0 (R23). -/
def GotW (t : State) (d : Nat) (v : Word) : Prop := t.me.rw d = if d = 0 then 0 else v

/-- The instruction completes, writes v to g[d] and nothing else, and moves on by len bytes; WARN where w (R44, R51). -/
def WritesG (i : Instr) (s : State) (d : Nat) (v : Word) (len : Nat) (w : Bool) : Prop :=
  ∃ t, exec i s = .next t ∧ Ran [.g d] (s.me.pc + word len) (statAfter s 0 w) s t ∧ GotG t d v

/-- Trap entry on a thread (R346): `t0` as the trap found it, `t1` at the handler's first instruction. The trap registers hold the
cause, EPC and TVAL; ctl.tsave the status and the progress index; RM, the flags and WARN are kept, PP, PFX and FPTE cleared and S
set; g63 is the handler's stack pointer; every other register, counter and mark is as it was. -/
def Entered (t0 t1 : Thread) (c : Cause) (epc tval : Word) : Prop :=
  t1.cause = word (c.reason * 256 + c.code) ∧ t1.epc = epc ∧ t1.tval = tval ∧
  t1.tsave = word (t0.tstat.toNat % 2 ^ 22 + t0.prog.toNat % 16 * 2 ^ 22) ∧ t1.prog = 0 ∧
  t1.tstat = (t0.tstat &&& ~~~0x2FFF00#64) ||| 0x100000#64 ∧ t1.tsg = t0.rg 63 ∧ t1.rg 63 = t0.tstk ∧ t1.tf = true ∧ t1.pc = t0.tvec ∧
  (∀ n, n ≠ 63 → t1.rg n = t0.rg n) ∧
  { t1 with cause := 0, epc := 0, tval := 0, tsave := 0, prog := 0, tstat := 0, tsg := 0, g := [], tf := false, pc := 0, stall := none } =
    { t0 with cause := 0, epc := 0, tval := 0, tsave := 0, prog := 0, tstat := 0, tsg := 0, g := [], tf := false, pc := 0, stall := none }

/-- A trap of thread n can be taken now: g63 waits for no write and no trap stands (R346). -/
def State.canTrap (s : State) (n : Nat) : Prop := (s.thr n).isBusy [.g 63] = false ∧ (s.thr n).tf = false

/-- The instruction traps with a cause and TVAL, EPC at itself, and nothing else of the machine changes. -/
def Traps (i : Instr) (s : State) (c : Cause) (tval : Word) : Prop :=
  ∃ t, exec i s = .next t ∧ Entered s.me (t.thr s.cur) c s.me.pc tval ∧ SameBut s.cur s t

/-- A floating-point instruction that writes n elements of w bits of v[d], with the flags of each lane in `fl` (R59, R60). While
FPTE does not make them trap, it completes: the flags are raised and each element is its value. Where they trap, FP is entered with
the flags raised, and no destination is written. -/
def FpDone (i : Instr) (s : State) (d w n : Nat) (val : Nat → Nat) (fl : List Nat) (len : Nat) (warn : Bool) : Prop :=
  (s.me.fpTraps fl = false → ∃ t, exec i s = .next t ∧
    Ran [.v d] (s.me.pc + word len) (statAfter s (orFlags fl) warn) s t ∧ ∀ e, e < n → elem w (t.me.rv d) e = val e % 2 ^ w) ∧
  (s.me.fpTraps fl = true → s.canTrap s.cur → ∃ t, exec i s = .next t ∧
    Entered { s.me with tstat := s.me.tstat ||| BitVec.ofNat 64 (orFlags fl % 32 * 4) } (t.thr s.cur) .fp s.me.pc (fpTval fl) ∧
    SameBut s.cur s t)

/-- An instruction that raises no flag completes with n elements of w bits in v[d]. -/
def VecDone (i : Instr) (s : State) (d w n : Nat) (val : Nat → Nat) (len : Nat) (warn : Bool) : Prop :=
  ∃ t, exec i s = .next t ∧ Ran [.v d] (s.me.pc + word len) (statAfter s 0 warn) s t ∧ ∀ e, e < n → elem w (t.me.rv d) e = val e % 2 ^ w

/-! ### Rounding -/

/-- x is (-1)^neg · m/n · 2^e correctly rounded in mode rm into the format (R57, R58, R63), by the order of exact numbers alone: in
units of n · 2^lo. Nearest: no finite value of the format is closer, and of two as close x is the even one; an infinity stands from half a
unit above the largest finite value on. Towards zero, down and up: x is the last value on that side, an infinity only where that side has
no finite one. -/
def Fmt.Rounds (F : Fmt) (rm : Nat) (neg : Bool) (m n : Nat) (e : Int) (x : Nat) : Prop :=
  let low : Int := 1 - F.bias - F.fbits
  let lo := min e low
  let at_ := fun (s : Bool) (r : Nat) (g : Int) => signed s r * 2 ^ (g - lo).toNat
  let v := at_ neg m e
  let top := n * (2 ^ (F.fbits + 2) - 1) * 2 ^ ((F.bias : Int) - F.fbits - 1 - lo).toNat
  let finite := fun (y : Int) => ∃ z s r g, z < 2 ^ (F.ebits + F.fbits + 1) ∧ F.value z = .fin s r g ∧ y = n * at_ s r g
  x < 2 ^ (F.ebits + F.fbits + 1) ∧
  match F.value x with
  | .nan _ => False
  | .inf s => s = neg ∧
      if rm = 0 then top ≤ v.natAbs else rm ≠ 1 ∧ (rm = 2 ↔ neg = true) ∧ ∀ y, finite y → y.natAbs < v.natAbs
  | .fin s r g => s = neg ∧
      let y := n * at_ s r g
      match rm with
      | 0 => v.natAbs < top ∧
          ∀ z, finite z → (y - v).natAbs ≤ (z - v).natAbs ∧ (x % 2 = 1 → z ≠ y → (y - v).natAbs < (z - v).natAbs)
      | 1 => y.natAbs ≤ v.natAbs ∧ ∀ z, finite z → z.natAbs ≤ v.natAbs → z.natAbs ≤ y.natAbs
      | 2 => y ≤ v ∧ ∀ z, finite z → z ≤ v → z ≤ y
      | _ => v ≤ y ∧ ∀ z, finite z → v ≤ z → y ≤ z

/-! ### Fetching and turns -/

/-- The instruction fetch of the running thread finds the parcels ps and leaves the state u. -/
def State.fetches (s : State) (ps : List Parcel) (u : State) : Prop := ∀ k : State → List Parcel → Out, s.fetch k = k u ps

/-- The fetch of the parcel at address a finds p and leaves the state u. -/
def State.fetched (s : State) (a : Word) (p : Parcel) (u : State) : Prop := ∀ k : State → Parcel → Out, s.fetchParcel a k = k u p

/-- What stands around each turn: the agenda's rest, one tick passed (R232), the budgets drawn (R252). -/
def State.turned (s : State) (r : List Turn) : State := ({ s with agenda := r }.advance 1).drawBudgets

/-- The state with thread n the running one. -/
def State.as (s : State) (n : Nat) : State := { s with cur := n }

/-- Nothing holds thread n back from its next instruction: it runs a task or is a steward's, is not parked, has its constant bank,
and no pre-emption or interrupt comes first (R347, R352). -/
def State.free2run (s : State) (n : Nat) : Prop :=
  (s.thr n).park = none ∧ (isSteward n = true ∨ (s.thr n).task.isSome = true ∧ s.tenantRuns (s.tenantOf n) = true) ∧ (s.thr n).cbNeed = false ∧
  s.canPreempt n = false ∧ s.preemptHere n = false ∧ ((s.thr n).irqNow && !(s.thr n).sup) = false

/-! ### Accesses -/

/-- The checks of an access of n bytes at a, aligned to `al`, let it through (R131, R387), and none of its pages is moving (R341): it has
the parts ps, and the state u differs from s by the A and D bits of the pages it uses and the TLB entries it fills (R333, R334). -/
def State.passes (s : State) (u : Use) (a : Word) (n al : Nat) (ps : List Piece) (s' : State) : Prop :=
  a.toNat % al = 0 ∧ s.me.watch u a n = none ∧ s.pkg.pageMoves (s.tenantOf s.cur) a n = false ∧
    ∃ ls, checkParts (s.view s.cur s.me.sup u) u (splitLines a n) = .ok ps ls ∧ s' = s.useLeaves u ls

/-- The checks of an access find byte b not permitted, for a cause (R131); none of its pages is moving (R341). -/
def State.fails (s : State) (u : Use) (a : Word) (n : Nat) (c : Cause) (b : Word) : Prop :=
  s.pkg.pageMoves (s.tenantOf s.cur) a n = false ∧
  checkParts (s.view s.cur s.me.sup u) u (splitLines a n) = .fault c b

/-- A thread after an instruction of len bytes that waits for nothing: PC, status and ctl.prog as `Ran` says, the rest of it as
given. -/
def Thread.after (t : Thread) (s : State) (len : Nat) (w : Bool) : Thread :=
  { t with pc := s.me.pc + word len, tstat := statAfter s 0 (w || s.me.pp), prog := 0, stall := none }

/-- The instruction completes as far as its thread sees: it sends an access on its way and leaves its thread as given. Nothing else
differs from the state u. -/
def Sends (i : Instr) (s u : State) (a : Access) (me : Thread) : Prop :=
  ∃ t, exec i s = .next t ∧ t.flight = s.flight ++ [a] ∧ t.nextId = s.nextId + 1 ∧ t.me = me ∧
    SameBut s.cur u { t with flight := u.flight, nextId := u.nextId }

/-- The address holds plain bytes, which a store leaves as it writes them: it lies in no task record or descriptor of a shelf, in no
stamp table and in no task table (R149, R157, R245, R298). -/
def Pkg.plainAt (p : Pkg) (a : Nat) : Prop :=
  (a < shelfBase ∧ p.inTable a = false) ∨
    (shelfBase ≤ a ∧ a < imageBase ∧ ((a - shelfBase) % 0x80000 < 0x4000 ∨ (0x8000 ≤ (a - shelfBase) % 0x80000 ∧ (a - shelfBase) % 0x80000 < 0x5F000))) ∨
    (imageBase ≤ a ∧ a < imageBase + 0xFF0000)

/-! ### Answers and steps at a home -/

/-- The value that an instruction of the running thread reads is a READ entry of the log; a steward's is not (R262). -/
def State.noted (s : State) (code : Nat) (v : Word) : State :=
  if isSteward s.cur then s else s.writeLog ⟨0x02, s.cur, code, v⟩

/-- A step served at a home, an engine or a controller, where n requests wait, is an ARB entry (R262). -/
def State.served (s : State) (site n src : Nat) : State := s.writeLog ⟨0x06, site, n, word src⟩

/-- The value of Ecur that enters a witness is an EPOCH entry (R262). -/
def State.dated (s : State) (site : Nat) : State := s.writeLog ⟨0x09, site, 0, word s.pkg.ecur⟩

/-- The four-byte instruction completes in the state `base` but for its own thread: it writes only the registers listed, and P holds of
what it wrote. A pending prefix is dropped with WARN (R44). -/
def Does (i : Instr) (s base : State) (rs : List Reg) (w : Bool) (P : State → Prop) : Prop :=
  ∃ t, exec i s = .next t ∧ Ran rs (s.me.pc + 4) (statAfter s 0 (w || s.me.pp)) base t ∧ P t

/-- The four-byte instruction completes with v in g[d]. -/
def Answers (i : Instr) (s base : State) (d : Nat) (v : Word) (w : Bool) : Prop := Does i s base [.g d] w fun t => GotG t d v

/-- The instruction waits: only the mark of why changes. -/
def Stalls (i : Instr) (s : State) (k : Stall) : Prop := exec i s = .next (s.setMe { s.me with stall := some k })

/-! ### Suspension -/

/-- The record a task leaves at a suspension point (R159): the fields of R157, with TS and g1-g4 as they are. -/
def State.suspension (s : State) (k : Task) (resume : Word) (st key : Nat) : Rec :=
  { fail := false, pre := false, entry := k.entry, bud := k.bud, resume := resume.toNat, key := key, state := st, gen := k.gen
    dom := k.dom, cls := k.cls, pri := k.pri, job := k.job, stamp := s.me.ts, link := k.link
    args := [s.me.rg 1, s.me.rg 2, s.me.rg 3, s.me.rg 4] }

/-- The running task k may pass a suspension point (R159) and has no new generation to observe (R173), on a package that leads; its homes
have performed what they accepted of it. -/
def State.maySuspend (s : State) (k : Task) : Prop :=
  s.replaying = false ∧ s.mayPass = none ∧ (∀ y ∈ s.flight, y.actor = .thread s.cur → y.acc = []) ∧ s.me.task = some k ∧ s.pkg.genAt (benchOf s.cur) k.tenant k.job = some k.gen

/-- The generation of task k's job has been read: the leaf of its page has A set (R173, R333). -/
def Pkg.looked (p : Pkg) (k : Task) : Pkg := p.used k.tenant (p.genAddr k.tenant k.job) .load

/-- The package once the record of the running task k stands in its slot; `p` is what the step makes of it before. -/
def State.parked (s : State) (k : Task) (resume : Word) (st key : Nat) (p : Pkg) : Pkg :=
  (p.looked k).putRecord k.slot (s.suspension k resume st key)

/-- The instruction suspends the running task k: the thread is free with its registers as they were, one more suspension point is
passed, and the record stands in its slot, asleep on a key; `p` is the package as the step leaves it before. No other thread changes. -/
def Suspends (i : Instr) (s : State) (k : Task) (resume : Word) (st key full : Nat) (p : Pkg) : Prop :=
  ∃ t, exec i s = .next t ∧ (t.thr s.cur).task = none ∧ (∀ n, (t.thr s.cur).rg n = s.me.rg n) ∧
    (∀ m, m ≠ s.cur → t.thr m = s.thr m) ∧
    t.pkg.passes.get 0 s.cur = s.pkg.passes.get 0 s.cur + 1 ∧
    t.pkg.mem = (s.parked k resume st key p).mem ∧
    t.pkg.sleepers = s.pkg.sleepers ++ [⟨k.slot, k.tenant, st, full⟩]

/-- A drawer operation on the descriptor at an address is let through (R149): aligned, in the descriptor area of a shelf of the
tenant's benches, and enabled. -/
def State.atDesc (s : State) (a : Word) : Prop :=
  a.toNat % 64 = 0 ∧ shelfBase ≤ a.toNat ∧ a.toNat < shelfBase + 0x10000000 ∧ 0x5F000 ≤ (a.toNat - shelfBase) % 0x80000 ∧
    (a.toNat - shelfBase) % 0x80000 < 0x60000 ∧
    s.pkg.inMap (s.tenantOf s.cur) ((a.toNat - shelfBase) / 0x80000 / 8) = true ∧ (s.pkg.drawer a.toNat).en = true

end Sys2Proof.Machine
end

