-- ==== Sys2Proof/Certificates/Slice0/Obligations.lean ====
section
/-! DEFINITION. The statements for the provers. Each docstring names the rules of the spec that its statement formalises, or the
choice of the model that it rests on. -/

open Sys2Proof Sys2Proof.Machine

/-! ### Scalar instructions -/

/-- R82, over every register and value: the results of major 0x00 as exact integers, kept in bits 63:0.

R82: the immediate shifts, whose amount is the b field.

R36, R37, R83, R88: immediate operands, direct and by literal, and the constant-bank load.

Completes: add, sub, and, or, xor, andn, orn, xnor, shl, shr, sar, ror, shli, shri, sari, rori, addW, subW, shlW, shrW, sarW,
rorW, addS, subS, addUs, subUs, lea2, lea4, lea8, lea16, lea64, addi, addiLit32, addiLit64, andi, andiLit32, andiLit64, ori,
oriLit32, oriLit64, xori, xoriLit32, xoriLit64, ldcb, movi. -/
def Obligations.ScalarArithmetic : Prop :=
  (∀ (d a b : BitVec 6) (s : State),
     let x := s.me.rg a.toNat
     let y := s.me.rg b.toNat
     let ua : Int := x.toNat
     let ub : Int := y.toNat
     let n := y.toNat % 64
     let m := y.toNat % 32
     let u32 : Nat := x.toNat % 2 ^ 32
     let s32 : Int := (x.setWidth 32).toInt
     let W := fun (i : Instr) (r : Int) => WritesG i s d.toNat (BitVec.ofInt 64 r) 4 s.me.pp
     let Ww := fun (i : Instr) (r : Int) => WritesG i s d.toNat ((BitVec.ofInt 32 r).signExtend 64) 4 s.me.pp
     s.ready [.g a.toNat, .g b.toNat, .g d.toNat] →
     W (.add d a b) (ua + ub) ∧ W (.sub d a b) (ua - ub) ∧
     WritesG (.and d a b) s d.toNat (x &&& y) 4 s.me.pp ∧ WritesG (.or d a b) s d.toNat (x ||| y) 4 s.me.pp ∧
     WritesG (.xor d a b) s d.toNat (x ^^^ y) 4 s.me.pp ∧ WritesG (.andn d a b) s d.toNat (x &&& ~~~y) 4 s.me.pp ∧
     WritesG (.orn d a b) s d.toNat (x ||| ~~~y) 4 s.me.pp ∧ WritesG (.xnor d a b) s d.toNat (~~~(x ^^^ y)) 4 s.me.pp ∧
     W (.shl d a b) (ua * 2 ^ n) ∧ W (.shr d a b) (ua / 2 ^ n) ∧ W (.sar d a b) (x.toInt / 2 ^ n) ∧
     W (.ror d a b) (if n = 0 then ua else ua % 2 ^ n * 2 ^ (64 - n) + ua / 2 ^ n) ∧
     Ww (.addW d a b) (ua + ub) ∧ Ww (.subW d a b) (ua - ub) ∧ Ww (.shlW d a b) (u32 * 2 ^ m) ∧
     Ww (.shrW d a b) (u32 / 2 ^ m : Nat) ∧ Ww (.sarW d a b) (s32 / 2 ^ m) ∧
     Ww (.rorW d a b) (if m = 0 then u32 else u32 % 2 ^ m * 2 ^ (32 - m) + u32 / 2 ^ m : Nat) ∧
     W (.addS d a b) (max (-(2 ^ 63)) (min (2 ^ 63 - 1) (x.toInt + y.toInt))) ∧
     W (.subS d a b) (max (-(2 ^ 63)) (min (2 ^ 63 - 1) (x.toInt - y.toInt))) ∧
     W (.addUs d a b) (min (2 ^ 64 - 1) (ua + ub)) ∧ W (.subUs d a b) (max 0 (ua - ub)) ∧
     W (.lea2 d a b) (ua + ub * 2) ∧ W (.lea4 d a b) (ua + ub * 4) ∧ W (.lea8 d a b) (ua + ub * 8) ∧
     W (.lea16 d a b) (ua + ub * 16) ∧ W (.lea64 d a b) (ua + ub * 64)) ∧
  (∀ (d a n : BitVec 6) (s : State),
     let x := s.me.rg a.toNat
     let ua : Int := x.toNat
     let W := fun (i : Instr) (r : Int) => WritesG i s d.toNat (BitVec.ofInt 64 r) 4 s.me.pp
     s.ready [.g a.toNat, .g d.toNat] →
     W (.shli d a n) (ua * 2 ^ n.toNat) ∧ W (.shri d a n) (ua / 2 ^ n.toNat) ∧ W (.sari d a n) (x.toInt / 2 ^ n.toNat) ∧
     W (.rori d a n) (if n = 0 then ua else ua % 2 ^ n.toNat * 2 ^ (64 - n.toNat) + ua / 2 ^ n.toNat)) ∧
  (∀ (d a : BitVec 6) (i : BitVec 13) (l : Word32) (q : Word) (j : BitVec 19) (n : BitVec 8) (z : Bool) (s : State),
     let x := s.me.rg a.toNat
     let W := fun (k : Instr) (r : Word) (len : Nat) => WritesG k s d.toNat r len s.me.pp
     let i64 : Word := BitVec.ofInt 64 i.toInt
     let l64 : Word := BitVec.ofInt 64 l.toInt
     (s.ready [.g d.toNat] → W (.movi d j) (BitVec.ofInt 64 j.toInt) 4) ∧
     (s.ready [.g a.toNat, .g d.toNat] →
       W (.addi d a i) (x + i64) 4 ∧ W (.andi d a i) (x &&& i64) 4 ∧ W (.ori d a i) (x ||| i64) 4 ∧ W (.xori d a i) (x ^^^ i64) 4 ∧
       W (.addiLit32 d a l) (x + l64) 8 ∧ W (.andiLit32 d a l) (x &&& l64) 8 ∧ W (.oriLit32 d a l) (x ||| l64) 8 ∧
       W (.xoriLit32 d a l) (x ^^^ l64) 8 ∧
       W (.addiLit64 d a q) (x + q) 12 ∧ W (.andiLit64 d a q) (x &&& q) 12 ∧ W (.oriLit64 d a q) (x ||| q) 12 ∧
       W (.xoriLit64 d a q) (x ^^^ q) 12 ∧
       (let c := s.me.rcb ((x.toNat + n.toNat) % 256)
        W (.ldcb d a z n) (if z then BitVec.ofNat 64 c.toNat else BitVec.ofInt 64 c.toInt) 4)))

/-- R84, R85: products are exact before bits are kept; quotients round to zero, and a zero divisor or the signed overflow traps
nothing.

Completes: mul, mulh, mulhu, mulhsu, mulW, mulS, div, divu, rem, remu, divW, divuW, remW, remuW. -/
def Obligations.MultiplyDivide : Prop :=
  ∀ (d a b : BitVec 6) (s : State),
    let x := s.me.rg a.toNat
    let y := s.me.rg b.toNat
    let ua : Int := x.toNat
    let ub : Int := y.toNat
    let sa := x.toInt
    let sb := y.toInt
    let u32 : Int := (x.toNat % 2 ^ 32 : Nat)
    let v32 : Int := (y.toNat % 2 ^ 32 : Nat)
    let s32 := (x.setWidth 32).toInt
    let t32 := (y.setWidth 32).toInt
    let W := fun (i : Instr) (r : Int) => WritesG i s d.toNat (BitVec.ofInt 64 r) 4 s.me.pp
    let Ww := fun (i : Instr) (r : Int) => WritesG i s d.toNat ((BitVec.ofInt 32 r).signExtend 64) 4 s.me.pp
    s.ready [.g a.toNat, .g b.toNat, .g d.toNat] →
    W (.mul d a b) (ua * ub) ∧ W (.mulh d a b) (sa * sb / 2 ^ 64) ∧ W (.mulhu d a b) (ua * ub / 2 ^ 64) ∧
    W (.mulhsu d a b) (sa * ub / 2 ^ 64) ∧ Ww (.mulW d a b) (ua * ub) ∧
    W (.mulS d a b) (max (-(2 ^ 63)) (min (2 ^ 63 - 1) (sa * sb))) ∧
    W (.div d a b) (if sb = 0 then -1 else sa.tdiv sb) ∧ W (.rem d a b) (if sb = 0 then sa else sa - sa.tdiv sb * sb) ∧
    W (.divu d a b) (if ub = 0 then -1 else ua / ub) ∧ W (.remu d a b) (if ub = 0 then ua else ua - ua / ub * ub) ∧
    Ww (.divW d a b) (if t32 = 0 then -1 else s32.tdiv t32) ∧ Ww (.remW d a b) (if t32 = 0 then s32 else s32 - s32.tdiv t32 * t32) ∧
    Ww (.divuW d a b) (if v32 = 0 then -1 else u32 / v32) ∧ Ww (.remuW d a b) (if v32 = 0 then u32 else u32 - u32 / v32 * v32)

/-- R86: compares, lesser and greater, conditional moves; cc is one of the six the table lists.

R87: counts, byte reversal and bit fields, bit by bit; a nonzero b of a unary form only sets WARN.

Completes: cmp, min, max, minu, maxu, movz, movnz, clz, ctz, popc, rev8, rev8W, bfx, bfxs, bfi. -/
def Obligations.CompareAndBits : Prop :=
  (∀ (d a b : BitVec 6) (s : State),
     let x := s.me.rg a.toNat
     let y := s.me.rg b.toNat
     let W := fun (i : Instr) (r : Word) => WritesG i s d.toNat r 4 s.me.pp
     let C := fun (c : BitVec 3) (p : Bool) => W (.cmp d a b c) (if p then 1 else 0)
     s.ready [.g a.toNat, .g b.toNat, .g d.toNat] →
     C 0 (x == y) ∧ C 1 (x != y) ∧ C 2 (decide (x.toInt < y.toInt)) ∧ C 3 (decide (x.toInt ≥ y.toInt)) ∧
     C 4 (decide (x.toNat < y.toNat)) ∧ C 5 (decide (x.toNat ≥ y.toNat)) ∧
     W (.min d a b) (BitVec.ofInt 64 (min x.toInt y.toInt)) ∧ W (.max d a b) (BitVec.ofInt 64 (max x.toInt y.toInt)) ∧
     W (.minu d a b) (BitVec.ofNat 64 (min x.toNat y.toNat)) ∧ W (.maxu d a b) (BitVec.ofNat 64 (max x.toNat y.toNat)) ∧
     W (.movz d a b) (if y = 0 then x else s.me.rg d.toNat) ∧ W (.movnz d a b) (if y = 0 then s.me.rg d.toNat else x)) ∧
  (∀ (d a b : BitVec 6) (s : State),
     let x := s.me.rg a.toNat
     let y := s.me.rg b.toNat
     let old := s.me.rg d.toNat
     let lo := y.toNat % 64
     let len := y.toNat / 2 ^ 8 % 2 ^ 7
     let L := min (lo + len) 64 - lo
     let U := fun (i : Instr) (r : Word) => WritesG i s d.toNat r 4 (b != 0 || s.me.pp)
     let W := fun (i : Instr) (p : Word → Prop) => ∃ r, p r ∧ WritesG i s d.toNat r 4 s.me.pp
     (s.ready [.g a.toNat, .g d.toNat] →
       (∃ n, n ≤ 64 ∧ U (.clz d a b) (BitVec.ofNat 64 n) ∧ (∀ i, i < n → x.getLsbD (63 - i) = false) ∧ (n < 64 → x.getLsbD (63 - n) = true)) ∧
       (∃ n, n ≤ 64 ∧ U (.ctz d a b) (BitVec.ofNat 64 n) ∧ (∀ i, i < n → x.getLsbD i = false) ∧ (n < 64 → x.getLsbD n = true)) ∧
       U (.popc d a b) (BitVec.ofNat 64 ((List.range 64).filter fun i => x.getLsbD i).length) ∧
       (∃ r, U (.rev8 d a b) r ∧ ∀ i, i < 8 → r.extractLsb' (8 * i) 8 = x.extractLsb' (8 * (7 - i)) 8) ∧
       (∃ r, U (.rev8W d a b) r ∧ (∀ i, i < 4 → r.extractLsb' (8 * i) 8 = x.extractLsb' (8 * (3 - i)) 8) ∧ r.toNat < 2 ^ 32)) ∧
     (s.ready [.g a.toNat, .g b.toNat, .g d.toNat] →
       W (.bfx d a b) (fun r => ∀ i, i < 64 → r.getLsbD i = (decide (i < L) && x.getLsbD (lo + i))) ∧
       W (.bfxs d a b) (fun r => ∀ i, i < 64 → r.getLsbD i = (decide (0 < L) && x.getLsbD (lo + min i (L - 1)))) ∧
       W (.bfi d a b) (fun r => ∀ i, i < 64 → r.getLsbD i = if lo ≤ i ∧ i < lo + L then x.getLsbD (i - lo) else old.getLsbD i)))

/-- R41: the 16-bit forms that compute, and their two ends `nop` and `fmt`: the payload becomes pending (R43, R44).

R41, R51, R95, R101, R226: the counter waits end once every counter is within its limit, and stall while one is not; the
operand-extension moves; the instruction fence once the thread's stores are performed.

Completes: mov16, addi16, add16, shl16, shr16, sar16, ror16, cmp16, wait16, nop, fmt, wait, ifence, movx, movg, addx. -/
def Obligations.ShortFormsAndWaits : Prop :=
  (∀ (d a : BitVec 4) (i : BitVec 7) (n : BitVec 5) (c f : BitVec 3) (acc sat : Bool) (pl : BitVec 2) (s : State),
     let x := s.me.rg d.toNat
     let y := s.me.rg a.toNat
     let k := if n = 0 then 32 else n.toNat
     let W := fun (e : Instr) (r : Word) => WritesG e s d.toNat r 2 s.me.pp
     let C := fun (e : BitVec 3) (p : Bool) => W (.cmp16 d a e) (if p then 1 else 0)
     (s.ready [.g a.toNat, .g d.toNat] →
       W (.mov16 d a) y ∧ W (.add16 d a) (x + y) ∧ C 0 (x == y) ∧ C 1 (x != y) ∧ C 2 (decide (x.toInt < y.toInt)) ∧
       C 3 (decide (x.toInt ≥ y.toInt)) ∧ C 4 (decide (x.toNat < y.toNat)) ∧ C 5 (decide (x.toNat ≥ y.toNat))) ∧
     (s.ready [.g d.toNat] →
       W (.addi16 d i) (BitVec.ofInt 64 (x.toInt + i.toInt)) ∧ W (.shl16 d n) (BitVec.ofNat 64 (x.toNat * 2 ^ k)) ∧
       W (.shr16 d n) (BitVec.ofNat 64 (x.toNat / 2 ^ k)) ∧ W (.sar16 d n) (BitVec.ofInt 64 (x.toInt / 2 ^ k)) ∧
       W (.ror16 d n) (BitVec.ofNat 64 (x.toNat % 2 ^ k * 2 ^ (64 - k) + x.toNat / 2 ^ k))) ∧
     (∃ t, exec .nop s = .next t ∧ Ran [] (s.me.pc + 2) (statAfter s 0 s.me.pp) s t) ∧
     (∃ t, exec (.fmt c f acc sat pl) s = .next t ∧ t.me.pp = true ∧
       t.me.pfx = (c ++ f ++ bit acc ++ bit sat ++ pl ++ 0#1 : BitVec 11) ∧
       Ran [] (s.me.pc + 2) t.me.tstat s t ∧ t.me.tstat &&& ~~~0xFFF00#64 = statAfter s 0 s.me.pp)) ∧
  (∀ (d a b c : BitVec 6) (m : BitVec 4) (x : BitVec 3) (i : BitVec 13) (s : State),
     let n := fun (w : Bool) => statAfter s 0 (w || s.me.pp)
     let within := fun (ol os oc ot : Nat) => s.me.ol ≤ ol ∧ s.me.os ≤ os ∧ s.me.oc ≤ oc ∧ s.me.ot ≤ ot
     let lim := fun j => if m.getLsbD j then c.toNat else 63
     (within d.toNat a.toNat b.toNat c.toNat → ∃ t, exec (.wait d a b c) s = .next t ∧ Ran [] (s.me.pc + 4) (n false) s t) ∧
     (¬within d.toNat a.toNat b.toNat c.toNat → exec (.wait d a b c) s = s.stallWith .waitCounters) ∧
     (within (lim 3) (lim 2) (lim 1) (lim 0) → ∃ t, exec (.wait16 m c) s = .next t ∧ Ran [] (s.me.pc + 2) (n (m == 0)) s t) ∧
     (¬within (lim 3) (lim 2) (lim 1) (lim 0) → exec (.wait16 m c) s = s.stallWith .waitCounters) ∧
     (s.ready [.g d.toNat, .x x.toNat] →
       (∃ t, exec (.movx d x i) s = .next t ∧ Ran [.x x.toNat] (s.me.pc + 4) (n (i != 0)) s t ∧ t.me.rx x.toNat = s.me.rg d.toNat) ∧
       WritesG (.movg d x i) s d.toNat (s.me.rx x.toNat) 4 (i != 0 || s.me.pp) ∧
       (∃ t, exec (.addx d x i) s = .next t ∧ Ran [.x x.toNat] (s.me.pc + 4) (n false) s t ∧
         t.me.rx x.toNat = s.me.rg d.toNat + BitVec.ofInt 64 i.toInt)) ∧
     (s.storesOut s.cur = false → ∃ t, exec (.ifence d a b) s = .next t ∧ t.me.fence = s.pkg.histN ∧ t.me.pc = s.me.pc + 4 ∧
       t.me.tstat = n (d != 0 || a != 0 || b != 0) ∧ SameRest s t ∧ (∀ r, t.me.rg r = s.me.rg r) ∧
       { t.me with pc := 0, tstat := 0, fence := 0, prog := 0, stall := none } =
         { s.me with pc := 0, tstat := 0, fence := 0, prog := 0, stall := none }))

/-- R31, R34, R41, R89-R91: branches, jumps and calls, and where each sends PC; an odd register target traps ALIGN with nothing
written.

Completes: bz16, bnz16, j16, jr16, callr16, bz, bnz, bltz, bgez, blez, bgtz, br, j, call, jr, callr, getpc. -/
def Obligations.ControlFlow : Prop :=
  ∀ (d a b : BitVec 6) (e : BitVec 4) (o : BitVec 16) (o7 : BitVec 7) (o11 : BitVec 11) (o25 : BitVec 25) (s : State),
    let x := s.me.rg a.toNat
    let y := s.me.rg e.toNat
    let B := fun (i : Instr) (len : Nat) (off : Int) (p : Bool) (w : Bool) => ∃ t, exec i s = .next t ∧
      Ran [] (s.me.pc + (if p then BitVec.ofInt 64 (2 * off) else BitVec.ofNat 64 len)) (statAfter s 0 (w || s.me.pp)) s t
    let J := fun (i : Instr) (rs : List Reg) (target : Word) (w : Bool) => ∃ t, exec i s = .next t ∧
      Ran rs target (statAfter s 0 (w || s.me.pp)) s t ∧ ∀ r, .g r ∈ rs → GotG t r (s.me.pc + BitVec.ofNat 64 (2 * (encode i).length))
    let r63 := fun (z : BitVec 4) => if z = 0 then 63 else z.toNat
    (s.ready [.g a.toNat] →
      B (.bz a o) 4 o.toInt (x == 0) false ∧ B (.bnz a o) 4 o.toInt (x != 0) false ∧
      B (.bltz a o) 4 o.toInt (decide (x.toInt < 0)) false ∧ B (.bgez a o) 4 o.toInt (decide (0 ≤ x.toInt)) false ∧
      B (.blez a o) 4 o.toInt (decide (x.toInt ≤ 0)) false ∧ B (.bgtz a o) 4 o.toInt (decide (0 < x.toInt)) false) ∧
    B (.br a o) 4 o.toInt true (a != 0) ∧
    (s.ready [.g e.toNat] → B (.bz16 e o7) 2 o7.toInt (y == 0) false ∧ B (.bnz16 e o7) 2 o7.toInt (y != 0) false) ∧
    B (.j16 o11) 2 o11.toInt true false ∧ B (.j o25) 4 o25.toInt true false ∧
    (s.ready [.g 63] → J (.call o25) [.g 63] (s.me.pc + BitVec.ofInt 64 (2 * o25.toInt)) false) ∧
    (s.ready [.g d.toNat] → WritesG (.getpc d a b) s d.toNat s.me.pc 4 (a != 0 || b != 0 || s.me.pp)) ∧
    (s.ready [.g a.toNat] →
      (x.getLsbD 0 = false → J (.jr d a b) [] x (d != 0 || b != 0)) ∧
      (x.getLsbD 0 = true → exec (.jr d a b) s = s.trap .align x)) ∧
    (s.ready [.g a.toNat, .g d.toNat] →
      (x.getLsbD 0 = false → J (.callr d a b) [.g d.toNat] x (b != 0)) ∧
      (x.getLsbD 0 = true → exec (.callr d a b) s = s.trap .align x)) ∧
    (let z := s.me.rg (r63 e)
     (s.ready [.g (r63 e)] →
      (z.getLsbD 0 = false → J (.jr16 e) [] z false) ∧ (z.getLsbD 0 = true → exec (.jr16 e) s = s.trap .align z)) ∧
     (s.ready [.g (r63 e), .g 63] →
      (z.getLsbD 0 = false → J (.callr16 e) [.g 63] z false) ∧ (z.getLsbD 0 = true → exec (.callr16 e) s = s.trap .align z)))

/-! ### Traps, status and control registers -/

/-- R346: what taking a trap does, for every cause, thread and state.

R349: a trap condition met while TF = 1 writes ctl.cause2 and ctl.tval2, keeps the first trap's registers, parks the thread with
its task, and tells the steward of the die. The number 0x10 of that event is the model's own (log 60). -/
def Obligations.TakingATrap : Prop :=
  (∀ (n : Nat) (t : Thread) (c : Cause) (epc tval : Word) (s : State), s.canTrap n →
     Entered t ((s.trapFor n t c epc tval).thr n) c epc tval ∧ SameBut n s (s.trapFor n t c epc tval)) ∧
  (∀ (n : Nat) (t : Thread) (c : Cause) (epc tval : Word) (s : State),
     (s.thr n).isBusy [.g 63] = false → (s.thr n).tf = true →
     let u := s.trapFor n t c epc tval
     let t0 := s.thr n
     (u.thr n).cause2 = word (t0.pc.toNat % 2 ^ 48 * 2 ^ 16 + c.reason * 256 + c.code) ∧ (u.thr n).tval2 = tval ∧
     (u.thr n).park = some .doubleFault ∧
     { u.thr n with cause2 := 0, tval2 := 0, park := none, stall := none } = { t0 with cause2 := 0, tval2 := 0, park := none, stall := none } ∧
     u.outputs = s.outputs ++ [.steward (dieOf n) 0x10 (word n)] ∧ u.pkg = s.pkg ∧ ∀ m, m ≠ n → u.thr m = s.thr m)

/-- R96, R97: `trapi` and `brk` enter the handler; a pending prefix is discarded with WARN before ctl.tstat is saved.

R394: under an open debug session with halt-on-BRK, `brk` parks the thread before the handler's first instruction.

R100, R347: `idle` with no interrupt pending waits; one pending ends it with 1 in g[d], and is taken at the next instruction; the
end waits while g63 is busy, as the trap must (R346).
The statement is of a package that leads, where the value is written to the log (R262).

Completes: trapi, brk, idle. -/
def Obligations.SystemTrapsAndIdle : Prop :=
  (∀ (d a b : BitVec 6) (s : State), s.canTrap s.cur →
     let t0 := fun (w : Bool) => { s.me with tstat := statAfter s 0 (w || s.me.pp) }
     (∃ t, exec (.trapi d a b) s = .next t ∧
       Entered (t0 (d != 0)) (t.thr s.cur) .trapi (s.me.pc + 4) (word (a.toNat * 64 + b.toNat)) ∧ SameBut s.cur s t) ∧
     ((s.onyx.dbgOpen && s.onyx.haltOnBrk) = false → ∃ t, exec (.brk d a b) s = .next t ∧
       Entered (t0 (d != 0 || a != 0 || b != 0)) (t.thr s.cur) .brk s.me.pc (Instr.brk d a b).trapWord ∧ SameBut s.cur s t) ∧
     ((s.onyx.dbgOpen && s.onyx.haltOnBrk) = true → ∃ t, exec (.brk d a b) s = .next t ∧
       (t.thr s.cur).park = some .debugger ∧
       Entered (t0 (d != 0 || a != 0 || b != 0)) { t.thr s.cur with park := s.me.park } .brk s.me.pc (Instr.brk d a b).trapWord ∧ SameBut s.cur s t)) ∧
  (∀ (d a b : BitVec 6) (s : State), s.me.sup = true → s.ready [.g a.toNat, .g d.toNat] → s.replaying = false →
     (s.me.irqNow = false → s.me.stall = none → exec (.idle d a b) s =
       s.stallWith (.idle (if s.me.rg a.toNat = 0 then none else some (s.tick + (s.me.rg a.toNat).toNat)) d.toNat (b != 0))) ∧
     (∀ l e w, s.me.irqNow = false → s.me.stall = some (.idle (some l) e w) → l ≤ s.tick → ∃ t, exec (.idle d a b) s = .next t ∧
       GotG t d.toNat 0 ∧ t.me.pc = s.me.pc + 4 ∧ ∀ x, t.pkg.mem.get 0 x = s.pkg.mem.get 0 x) ∧
     (∀ v, s.me.irqNow = true → s.me.irq = some v → s.canTrap s.cur → ∃ t, exec (.idle d a b) s = .next t ∧
       (if d.toNat = 63 then t.me.tsg = 1 else GotG t d.toNat 1) ∧ t.me.epc = s.me.pc + 4 ∧ t.me.cause = word 0x13 ∧ t.me.tval = v ∧ t.me.pc = s.me.tvec ∧ t.me.irq = none ∧
       ∀ x, t.pkg.mem.get 0 x = s.pkg.mem.get 0 x) ∧
     (s.me.irqNow = true → s.me.isBusy [.g 63] = true → exec (.idle d a b) s = .next s))

/-- R98, R348: `tret` restores ctl.tstat and ctl.prog from ctl.tsave, clears TF and continues at ctl.epc; an odd EPC traps
ALIGN, and S = 0 traps PRIV.

R48-R50, R92: with S = 0 every supervisor instruction and every access to a control register from 6 up that exists traps PRIV; a
number that is not assigned traps ILLEGAL, whatever S.

Completes: tret. -/
def Obligations.ReturnAndPrivilege : Prop :=
  (∀ (d a b : BitVec 6) (s : State),
     (s.me.sup = true → s.me.epc.getLsbD 0 = false → ∃ t, exec (.tret d a b) s = .next t ∧
       t.me.pc = s.me.epc ∧ t.me.tf = false ∧ t.me.prog = word (s.me.tsave.toNat / 2 ^ 22 % 16) ∧
       t.me.tstat = word (s.me.tsave.toNat % 2 ^ 22) ||| (if s.me.pp || d != 0 || a != 0 || b != 0 then 0x80#64 else 0) ∧
       { t.me with pc := 0, tf := false, prog := 0, tstat := 0, stall := none } =
         { s.me with pc := 0, tf := false, prog := 0, tstat := 0, stall := none } ∧ SameRest s t) ∧
     (s.canTrap s.cur → s.me.sup = true → s.me.epc.getLsbD 0 = true → Traps (.tret d a b) s .align s.me.epc) ∧
     (s.canTrap s.cur → s.me.sup = false → Traps (.tret d a b) s .priv (Instr.tret d a b).trapWord)) ∧
  (∀ (d a b : BitVec 6) (n : BitVec 10) (s : State), s.canTrap s.cur →
     let P := fun (i : Instr) => Traps i s .priv i.trapWord
     let I := fun (i : Instr) => Traps i s .illegal i.trapWord
     (s.me.sup = false →
       P (.tret d a b) ∧ P (.idle d a b) ∧
       (6 ≤ n.toNat → assignedCtl (isSteward s.cur) n.toNat = true →
         P (.rdctl d a n) ∧ P (.wrctl d a n) ∧ P (.setctl d a n) ∧ P (.clrctl d a n))) ∧
     (assignedCtl (isSteward s.cur) n.toNat = false →
       I (.rdctl d a n) ∧ I (.wrctl d a n) ∧ I (.setctl d a n) ∧ I (.clrctl d a n)))

/-- R92, R93, R343, R346: `rdctl` of a thread's own registers gives the register; of ctl.cause it also clears TF.

Completes: rdctl. -/
def Obligations.ReadControl : Prop :=
  ∀ (d a : BitVec 6) (n : BitVec 10) (v : Word) (s : State), s.ready [.g d.toNat] → (s.me.sup = true ∨ n.toNat < 6) →
    (n.toNat, v) ∈ [(0x000, s.me.tstat), (0x002, word s.me.cls), (0x003, word s.me.job), (0x006, s.me.prog), (0x010, s.me.epc),
      (0x011, s.me.cause), (0x012, s.me.tval), (0x013, s.me.tvec), (0x014, s.me.tsave), (0x015, s.me.cause2), (0x016, s.me.tval2),
      (0x110, s.me.wp0), (0x111, s.me.wp1), (0x180, s.me.tstk), (0x181, s.me.tsg)] →
    ∃ t, exec (.rdctl d a n) s = .next t ∧ GotG t d.toNat v ∧ t.me.tf = (s.me.tf && n.toNat != 0x11) ∧
      t.me.pc = s.me.pc + 4 ∧ t.me.tstat = statAfter s 0 (a != 0 || s.me.pp) ∧ t.me.prog = 0 ∧
      KeepsRegs [.g d.toNat] s.me { t.me with tf := s.me.tf } ∧ SameRest s t

/-- R93, R343, R387: a write of a supervisor's thread register puts the old value in g[d] and the new one in the fields that can
be written; `setctl` ORs, `clrctl` clears.

R92, R94, R221: a write of ctl.tstat, in either mode, changes RM, the flags, WARN and FPTE only, PP and PFX by discarding a
prefix; a write of numbers 1 to 5 changes nothing.

Completes: wrctl, setctl, clrctl. -/
def Obligations.WriteControl : Prop :=
  (∀ (d a : BitVec 6) (n : BitVec 10) (m old : Word) (s : State), s.ready [.g d.toNat, .g a.toNat] → s.me.sup = true →
     (n.toNat, m, old) ∈ [(0x010, allOnes, s.me.epc), (0x011, 0xFFFF#64, s.me.cause), (0x012, allOnes, s.me.tval),
       (0x013, 0xFFFFFFFFFFFE#64, s.me.tvec), (0x014, 0x3FFFFFF#64, s.me.tsave), (0x015, allOnes, s.me.cause2), (0x016, allOnes, s.me.tval2),
       (0x110, 0xFF00FFFFFFFFFFFF#64, s.me.wp0), (0x111, 0xFF00FFFFFFFFFFFF#64, s.me.wp1), (0x180, allOnes, s.me.tstk),
       (0x181, allOnes, s.me.tsg)] →
     let x := s.me.rg a.toNat
     let C := fun (i : Instr) (new : Word) => ∃ t, exec i s = .next t ∧ GotG t d.toNat old ∧ t.readCtl s.cur n.toNat = new &&& m ∧
       t.me.pc = s.me.pc + 4 ∧ t.me.tstat = statAfter s 0 s.me.pp ∧ SameRest s t ∧ (∀ r, r ≠ d.toNat → t.me.rg r = s.me.rg r) ∧
       ∀ k, k ≠ n.toNat → k ∈ [0x010, 0x011, 0x012, 0x013, 0x014, 0x015, 0x016, 0x110, 0x111, 0x180, 0x181] →
         t.readCtl s.cur k = s.readCtl s.cur k
     C (.wrctl d a n) x ∧ C (.setctl d a n) (old ||| x) ∧ C (.clrctl d a n) (old &&& ~~~x)) ∧
  (∀ (d a : BitVec 6) (n : BitVec 10) (s : State), s.ready [.g d.toNat, .g a.toNat] →
     let x := s.me.rg a.toNat
     let old := s.me.tstat
     let C := fun (i : Instr) (new : Word) => ∃ t, exec i s = .next t ∧ Ran [.g d.toNat] (s.me.pc + 4) t.me.tstat s t ∧ GotG t d.toNat old ∧
       t.me.tstat = (((old &&& ~~~0x2000FF#64) ||| (new &&& 0x2000FF#64)) &&& ~~~0xFFF00#64) ||| (if s.me.pp then 0x80#64 else 0)
     C (.wrctl d a 0) x ∧ C (.setctl d a 0) (old ||| x) ∧ C (.clrctl d a 0) (old &&& ~~~x) ∧
     (1 ≤ n.toNat → n.toNat ≤ 5 →
       WritesG (.wrctl d a n) s d.toNat (s.readCtl s.cur n.toNat) 4 s.me.pp ∧
       WritesG (.setctl d a n) s d.toNat (s.readCtl s.cur n.toNat) 4 s.me.pp ∧
       WritesG (.clrctl d a n) s d.toNat (s.readCtl s.cur n.toNat) 4 s.me.pp))

/-- R223, R224: a flag or WARN of a core thread that rises sets its bit and the thread's bit of its bench's ctl.bflag, and a
write of ctl.bflag clears the bits written as 1. -/
def Obligations.FlagSummary : Prop :=
  ∀ (n : Nat) (t : Thread) (s : State), n < 2048 →
    let rose := (t.tstat &&& ~~~(s.thr n).tstat).toNat / 4 % 64
    let b := n / 32
    (((s.commit n t).pkg.bench b).bflag = if rose = 0 then (s.pkg.bench b).bflag
      else (s.pkg.bench b).bflag ||| word (rose + 2 ^ (32 + n % 32))) ∧
    (∀ c, c ≠ b → (s.commit n t).pkg.bench c = s.pkg.bench c) ∧
    ∀ v, ((s.pkg.writeCtl n 0x100 v).bench b).bflag = (s.pkg.bench b).bflag &&& ~~~v

/-! ### Vectors -/

/-- R56-R63, R104, R105, R107-R112, R126, R127: the binary32 instructions on every lane the mask selects; the other lanes keep
their bits and raise nothing. An operand that is no b operand, or a prefix field that is not used, falls back with WARN (R51).

R36, R107, R112, R114: the two instructions with an immediate binary32, on every lane; `fmah` multiplies by the other register
of the pair.

Completes: fadd, fsub, fmul, fmin, fmax, fabs, fneg, fsgn, fround, fmac, fmsc, fnmac, fnmsc, fmah, fmahLit, fmsh, fnmah,
fnmsh, vmovImm, fmahImm, frcp, frsqrt. -/
def Obligations.Float32 : Prop :=
  (∀ (f : VF) (s : State),
     let rm := s.me.rm
     let A := fun j => elem 32 (s.me.rv f.a.toNat) j
     let D := fun j => elem 32 (s.me.rv f.d.toNat) j
     let B := fun j => f.bLane s.me j
     let on := fun (r : Nat → Nat × Nat) (j : Nat) => if f.active s.me j then r j else (D j, 0)
     let V := fun (i : Instr) (r : Nat → Nat × Nat) (w : Bool) =>
       FpDone i s f.d.toNat 32 16 (fun j => (on r j).1) (lanes.map fun j => (on r j).2) f.len (s.me.pfxWarn 0 0 false false || w)
     let V3 := fun (i : Instr) (r : Nat → Nat × Nat) => V i r (f.isLit && f.b != 0)
     let V1 := fun (i : Instr) (r : Nat → Nat × Nat) => V i r (f.noB || f.b != 0)
     let fma := fun (np nc : Bool) (x y c : Nat) => f32.fmaBits rm np nc x y c
     (s.ready ([.v f.d.toNat, .v f.a.toNat, .k f.k.toNat] ++ f.srcRegs) →
       V3 (.fadd f) (fun j => f32.addBits rm (A j) (B j)) ∧ V3 (.fsub f) (fun j => f32.subBits rm (A j) (B j)) ∧
       V3 (.fmul f) (fun j => f32.mulBits rm (A j) (B j)) ∧ V3 (.fmin f) (fun j => f32.minmax true (A j) (B j)) ∧
       V3 (.fmax f) (fun j => f32.minmax false (A j) (B j)) ∧ V3 (.fsgn f) (fun j => f32.withSign (A j) (B j / 2 ^ 31)) ∧
       V3 (.fmac f) (fun j => fma false false (A j) (B j) (D j)) ∧ V3 (.fmsc f) (fun j => fma false true (A j) (B j) (D j)) ∧
       V3 (.fnmac f) (fun j => fma true false (A j) (B j) (D j)) ∧ V3 (.fnmsc f) (fun j => fma true true (A j) (B j) (D j)) ∧
       V3 (.fmah f) (fun j => fma false false (D j) (A j) (B j)) ∧ V3 (.fmsh f) (fun j => fma false true (D j) (A j) (B j)) ∧
       V3 (.fnmah f) (fun j => fma true false (D j) (A j) (B j)) ∧ V3 (.fnmsh f) (fun j => fma true true (D j) (A j) (B j)) ∧
       ∀ l, f.src = .lit l → V3 (.fmahLit f.d f.a f.b f.k l) (fun j => fma false false (D j) (A j) l.toNat)) ∧
     (s.ready [.v f.d.toNat, .v f.a.toNat, .k f.k.toNat] →
       V1 (.fabs f) (fun j => f32.withSign (A j) 0) ∧ V1 (.fneg f) (fun j => f32.withSign (A j) (1 - A j / 2 ^ 31)) ∧
       V1 (.fround f) (fun j => f32.integral rm (A j)) ∧ V1 (.frcp f) (fun j => rcp32 rm (A j)) ∧ V1 (.frsqrt f) (fun j => rsqrt32 (A j)))) ∧
  (∀ (d : BitVec 5) (i : BitVec 20) (s : State),
     let c := i.toNat * 2 ^ 12
     let D := fun j => elem 32 (s.me.rv d.toNat) j
     let A := fun j => elem 32 (s.me.rv (d.toNat ^^^ 1)) j
     (s.ready [.v d.toNat] → VecDone (.vmovImm d i) s d.toNat 32 16 (fun _ => c) 4 s.me.pp) ∧
     (s.ready [.v d.toNat, .v (d.toNat ^^^ 1)] →
       FpDone (.fmahImm d i) s d.toNat 32 16 (fun j => (f32.fmaBits s.me.rm false false (D j) (A j) c).1)
         (lanes.map fun j => (f32.fmaBits s.me.rm false false (D j) (A j) c).2) 4 s.me.pp))

/-- R113: the instructions on the 32 elements of a 16-bit format, binary16 or bfloat16; lane j of the mask covers elements 2j
and 2j + 1.

R108, R109: `fdiv` and `fsqrt` work in four groups from the progress index on. With nothing pending and no trap they complete; a
trap inside a group saves its index; an interrupt or pre-emption due, or a turn that ends there, stops them after a group, with PC at
the instruction.

Completes: fdiv, fsqrt, fadd16, fsub16, fmul16, fmin16, fmax16, fmac16, fnmac16, fmah16. -/
def Obligations.Float16AndLong : Prop :=
  (∀ (f : VF) (bf : Bool) (s : State), s.ready ([.v f.d.toNat, .v f.a.toNat, .k f.k.toNat] ++ f.srcRegs) →
     let F := if bf then bf16 else f16
     let rm := s.me.rm
     let A := fun e => elem 16 (s.me.rv f.a.toNat) e
     let D := fun e => elem 16 (s.me.rv f.d.toNat) e
     let B := fun e => f.bElem s.me e
     let on := fun (r : Nat → Nat × Nat) (e : Nat) => if f.active s.me (e / 2) then r e else (D e, 0)
     let code := if bf then 1 else 2
     let V := fun (i : Instr) (r : Nat → Nat × Nat) =>
       FpDone i s f.d.toNat 16 32 (fun e => (on r e).1) (lanes.map fun j => (on r (2 * j)).2 ||| (on r (2 * j + 1)).2) f.len
         (s.me.pfxWarn code code false false || f.srcWarn16)
     V (.fadd16 f bf) (fun e => F.addBits rm (A e) (B e)) ∧ V (.fsub16 f bf) (fun e => F.subBits rm (A e) (B e)) ∧
     V (.fmul16 f bf) (fun e => F.mulBits rm (A e) (B e)) ∧ V (.fmin16 f bf) (fun e => F.minmax true (A e) (B e)) ∧
     V (.fmax16 f bf) (fun e => F.minmax false (A e) (B e)) ∧ V (.fmac16 f bf) (fun e => F.fmaBits rm false false (A e) (B e) (D e)) ∧
     V (.fnmac16 f bf) (fun e => F.fmaBits rm true false (A e) (B e) (D e)) ∧
     V (.fmah16 f bf) (fun e => F.fmaBits rm false false (D e) (A e) (B e))) ∧
  (∀ (f : VF) (s : State),
     let g := s.me.prog.toNat % 4
     let rm := s.me.rm
     let A := fun j => f32.value (elem 32 (s.me.rv f.a.toNat) j)
     let D := fun j => elem 32 (s.me.rv f.d.toNat) j
     let B := fun j => f32.value (f.bLane s.me j)
     let from_ := fun (r : Nat → Nat × Nat) (j : Nat) => if g ≤ j / 4 ∧ f.active s.me j then r j else (D j, 0)
     let only := fun (r : Nat → Nat × Nat) (j : Nat) => if j / 4 = g ∧ f.active s.me j then r j else (D j, 0)
     let L := fun (i : Instr) (r : Nat → Nat × Nat) (w : Bool) =>
       let all := lanes.map fun j => (from_ r j).2
       let one := lanes.map fun j => (only r j).2
       (s.me.fpTraps all = false → s.me.stopDueNow = false → s.lastPart = none → ∃ t, exec i s = .next t ∧
         Ran [.v f.d.toNat] (s.me.pc + word f.len) (statAfter s (orFlags all) (s.me.pfxWarn 0 0 false false || w)) s t ∧
         ∀ j, j < 16 → elem 32 (t.me.rv f.d.toNat) j = (from_ r j).1 % 2 ^ 32) ∧
       (s.me.fpTraps one = true → s.canTrap s.cur → ∃ t, exec i s = .next t ∧
         Entered { s.me with tstat := s.me.tstat ||| BitVec.ofNat 64 (orFlags one % 32 * 4), prog := word g } (t.thr s.cur) .fp s.me.pc (fpTval one) ∧
         SameBut s.cur s t) ∧
       (s.me.fpTraps one = false → s.me.stopDueNow = true ∨ (∃ x, s.lastPart = some x ∧ x ≤ g) → g < 3 → ∃ t, exec i s = .next t ∧
         t.me.prog = word (g + 1) ∧ t.me.pc = s.me.pc ∧ t.me.tstat = s.me.tstat ||| BitVec.ofNat 64 (orFlags one % 32 * 4) ∧
         KeepsRegs [.v f.d.toNat] s.me t.me ∧ SameRest s t ∧
         ∀ j, j < 16 → elem 32 (t.me.rv f.d.toNat) j = (only r j).1 % 2 ^ 32)
     (s.ready ([.v f.d.toNat, .v f.a.toNat, .k f.k.toNat] ++ f.srcRegs) →
       L (.fdiv f) (fun j => f32.div rm (A j) (B j)) (f.isLit && f.b != 0)) ∧
     (s.ready [.v f.d.toNat, .v f.a.toNat, .k f.k.toNat] → L (.fsqrt f) (fun j => f32.sqrt rm (A j)) (f.noB || f.b != 0)))

/-- R63-R65, R117: conversions between lanes of 32 bits and the 16-bit formats and integers.

R118: the byte conversions. A narrowing writes one quarter of v[d] and keeps the rest; with SAT it clamps.

Completes: fcvtF16F32, fcvtBf16F32, fcvtF32F16, fcvtF32Bf16, fcvtI32F32, fcvtI32F32Z, fcvtN32F32, fcvtN32F32Z, fcvtF32I32,
fcvtF32N32, vnarrowI8, vnarrowN8, vwidenI8, vwidenN8. -/
def Obligations.Conversions : Prop :=
  (∀ (f : VF) (s : State),
     let rm := s.me.rm
     let A := fun j => elem 32 (s.me.rv f.a.toNat) j
     let H := fun e => elem 16 (s.me.rv f.a.toNat) e
     let D := fun j => elem 32 (s.me.rv f.d.toNat) j
     let on := fun (r : Nat → Nat × Nat) (j : Nat) => if f.active s.me j then r j else (D j, 0)
     let V := fun (i : Instr) (a b : Nat) (r : Nat → Nat × Nat) (w : Bool) =>
       FpDone i s f.d.toNat 32 16 (fun j => (on r j).1) (lanes.map fun j => (on r j).2) f.len (s.me.pfxWarn a b false false || f.noB || w)
     let int := fun (m : Nat) (lo hi : Int) (j : Nat) => ((toInt m lo hi (f32.value (A j))).1 % 2 ^ 32 |>.toNat, (toInt m lo hi (f32.value (A j))).2)
     let N := fun (i : Instr) (F : Fmt) (code : Nat) =>
       let r := fun e => if f.active s.me (e % 16) then
           F.ofVal rm (f32.value (if e < 16 then A e else f.bLane s.me (e - 16)))
         else (elem 16 (s.me.rv f.d.toNat) e, 0)
       FpDone i s f.d.toNat 16 32 (fun e => (r e).1) (lanes.map fun j => (r j).2 ||| (r (16 + j)).2) f.len
         (s.me.pfxWarn code 0 false false || f.srcWarn)
     (s.ready ([.v f.d.toNat, .v f.a.toNat, .k f.k.toNat] ++ f.srcRegs) → N (.fcvtF16F32 f) f16 2 ∧ N (.fcvtBf16F32 f) bf16 1) ∧
     (s.ready [.v f.d.toNat, .v f.a.toNat, .k f.k.toNat] →
       V (.fcvtF32F16 f) 0 2 (fun j => f32.ofVal rm (f16.value (H (16 * (f.b.toNat % 2) + j)))) false ∧
       V (.fcvtF32Bf16 f) 0 1 (fun j => f32.ofVal rm (bf16.value (H (16 * (f.b.toNat % 2) + j)))) false ∧
       V (.fcvtI32F32 f) 5 0 (int rm (-(2 ^ 31)) (2 ^ 31 - 1)) (f.b != 0) ∧ V (.fcvtI32F32Z f) 5 0 (int 1 (-(2 ^ 31)) (2 ^ 31 - 1)) (f.b != 0) ∧
       V (.fcvtN32F32 f) 5 0 (int rm 0 (2 ^ 32 - 1)) (f.b != 0) ∧ V (.fcvtN32F32Z f) 5 0 (int 1 0 (2 ^ 32 - 1)) (f.b != 0) ∧
       V (.fcvtF32I32 f) 0 5 (fun j => f32.ofInt rm (BitVec.ofNat 32 (A j)).toInt) (f.b != 0) ∧
       V (.fcvtF32N32 f) 0 5 (fun j => f32.ofInt rm (A j)) (f.b != 0))) ∧
  (∀ (f : VF) (s : State), s.ready [.v f.d.toNat, .v f.a.toNat, .k f.k.toNat] →
     let A := fun j => elem 32 (s.me.rv f.a.toNat) j
     let q := f.b.toNat
     let narrow := fun (i : Instr) (lo hi : Int) =>
       VecDone i s f.d.toNat 8 64 (fun e =>
         if e / 16 = q ∧ f.active s.me (e % 16) then
           (if s.me.sat then (max lo (min hi (BitVec.ofNat 32 (A (e % 16))).toInt) % 256).toNat else A (e % 16) % 256)
         else elem 8 (s.me.rv f.d.toNat) e) f.len (s.me.pfxWarn 3 5 true false || f.noB)
     let widen := fun (i : Instr) (r : Nat → Nat) =>
       VecDone i s f.d.toNat 32 16 (fun j => if f.active s.me j then r (elem 8 (s.me.rv f.a.toNat) (16 * q + j)) else elem 32 (s.me.rv f.d.toNat) j)
         f.len (s.me.pfxWarn 5 3 false false || f.noB)
     narrow (.vnarrowI8 f) (-128) 127 ∧ narrow (.vnarrowN8 f) 0 255 ∧
     widen (.vwidenI8 f) (fun x => ((BitVec.ofNat 8 x).toInt % 2 ^ 32).toNat) ∧ widen (.vwidenN8 f) (fun x => x))

/-- R67-R70, R119-R121: quantizing 32 values into block q of v[d] under the scale byte of x[PLANE], which `vq4a` chooses and
writes; and the exact way back.

R70: the code of a finite value is one whose decoded integer is nearest to it in the block's scale, ties to the even integer or the
even index, and it raises no flag just where it is exact.

R120: `vq4a` takes the type's least exponent under which no value but a NaN lies beyond the largest magnitude, 63 where there is none.

Completes: vq4, vq4a, vdq4. -/
def Obligations.Quantize : Prop :=
  (∀ (sc m c : Nat) (neg : Bool) (g : Int), c < 16 →
    let ty := sc / 64 % 4
    let r := q4Encode sc (.fin neg m g)
    let y : Int := g + 32 - (sc % 64 : Nat)
    let lo := min y 0
    let dist := fun (code : Nat) => (q4Decode ty code * 2 ^ (-lo).toNat - signed neg m * 2 ^ (y - lo).toNat).natAbs
    r.1 < 16 ∧ (ty ≠ 0 → r.1 ≠ 8) ∧ dist r.1 ≤ dist c ∧
    (dist r.1 = dist c → q4Decode ty r.1 = q4Decode ty c ∨ (if ty = 0 then q4Decode ty r.1 % 2 = 0 else r.1 % 2 = 0)) ∧
    (r.2 = 0 ↔ dist r.1 = 0)) ∧
  (∀ (s0 : Nat) (vals : List FVal), s0 < 256 →
    let tmax : Nat := [7, 12, 64, 16].getD (s0 / 64) 0
    let fits := fun (e : Nat) => ∀ v ∈ vals, match v with
      | .nan _ => True
      | .inf _ => False
      | .fin _ m g =>
        let y : Int := g + 32 - e
        (m : Int) * 2 ^ (y - min y 0).toNat ≤ (tmax : Int) * 2 ^ (-(min y 0)).toNat
    let sc := chooseScale s0 vals
    sc / 64 = s0 / 64 ∧ (fits (sc % 64) ∨ sc % 64 = 63) ∧ ∀ e, e < sc % 64 → ¬fits e) ∧
  ∀ (f : VF) (q : BitVec 2) (s : State),
    let p := s.me.plane
    let x := s.me.rx p
    let vals := (lanes.map fun j => f32.value (elem 32 (s.me.rv f.a.toNat) j)) ++ lanes.map fun j => f32.value (f.bLane s.me j)
    let s0 := x.toNat / 2 ^ (8 * q.toNat) % 256
    let done := fun (i : Instr) (auto : Bool) =>
      let sc := if auto then chooseScale s0 vals else s0
      let r := vals.map (q4Encode sc)
      let fl := lanes.map fun j => (r.getD j (0, 0)).2 ||| (r.getD (16 + j) (0, 0)).2
      (s.me.fpTraps fl = false → ∃ t, exec i s = .next t ∧
        Ran ([.v f.d.toNat] ++ if auto then [.x p] else []) (s.me.pc + word f.len)
          (statAfter s (orFlags fl) (s.me.pfxWarn 4 0 false true || f.srcWarn || f.k != 0)) s t ∧
        (∀ e, e < 128 → elem 4 (t.me.rv f.d.toNat) e =
          if e / 32 = q.toNat then (r.getD (e % 32) (0, 0)).1 % 16 else elem 4 (s.me.rv f.d.toNat) e) ∧
        (auto = true → ∀ b, b < 8 → (t.me.rx p).toNat / 2 ^ (8 * b) % 256 = if b = q.toNat then sc % 256 else x.toNat / 2 ^ (8 * b) % 256)) ∧
      (s.me.fpTraps fl = true → s.canTrap s.cur → ∃ t, exec i s = .next t ∧
        Entered { s.me with tstat := s.me.tstat ||| BitVec.ofNat 64 (orFlags fl % 32 * 4) } (t.thr s.cur) .fp s.me.pc (fpTval fl) ∧
        SameBut s.cur s t)
    (s.ready ([.v f.d.toNat, .v f.a.toNat, .x p] ++ f.srcRegs) → done (.vq4 f q) false ∧ done (.vq4a f q) true) ∧
    (s.ready [.x p, .v f.d.toNat, .v f.a.toNat, .k f.k.toNat] →
      let sc := x.toNat / 2 ^ (8 * (f.b.toNat % 4)) % 256
      VecDone (.vdq4 f) s f.d.toNat 32 16 (fun j =>
        if f.active s.me j then
          (f32.roundInt 0 (q4Decode (sc / 64) (elem 4 (s.me.rv f.a.toNat) (32 * (f.b.toNat % 4) + 16 * (f.b.toNat / 4) + j)))
            ((sc % 64 : Nat) - (32 : Int))).1
        else elem 32 (s.me.rv f.d.toNat) j) f.len (s.me.pfxWarn 0 4 false true || f.noB))

/-- R54, R105, R122, R123: integer arithmetic on lanes, wrapping, or clamped to 32 bits where a prefix asks SAT of a form that
has it.

R125: reductions. The float ones add or compare adjacent pairs in four levels; the integer ones fold. An inactive lane counts as
the identity; lanes 1 to 15 of the result are zero. That an FP trap of a reduction names lane 0 in ctl.tval is the model's choice (log 92).

Completes: vadd, vsub, vmul, vmulh, vmin, vmax, vminu, vmaxu, vand, vor, vxor, vandn, vshl, vshr, vsar, vabs, vaddI16,
vsubI16, vdot4Ss, vdot4Uu, vdot4Us, fsum, fmaxr, fminr, isum, imaxr, iminr, imaxur, iminur. -/
def Obligations.IntegerVectorAndReductions : Prop :=
  (∀ (f : VF) (s : State),
     let A := fun j => elem 32 (s.me.rv f.a.toNat) j
     let B := fun j => f.bLane s.me j
     let D := fun j => elem 32 (s.me.rv f.d.toNat) j
     let S := fun (x : Nat) => (BitVec.ofNat 32 x).toInt
     let byte := fun (x i : Nat) => x / 2 ^ (8 * i) % 256
     let sbyte := fun (x i : Nat) => (BitVec.ofNat 8 (byte x i)).toInt
     let fit := fun (w : Nat) (sat : Bool) (x : Int) => ((if sat then max (-(2 ^ (w - 1))) (min (2 ^ (w - 1) - 1) x) else x) % 2 ^ w).toNat
     let on := fun (r : Nat → Nat) (j : Nat) => if f.active s.me j then r j else D j
     let V := fun (i : Instr) (fa fb : Nat) (ok : Bool) (r : Nat → Nat) =>
       VecDone i s f.d.toNat 32 16 (on r) f.len (s.me.pfxWarn fa fb ok false || f.srcWarn)
     let I := fun (i : Instr) (ok : Bool) (r : Nat → Int) => V i 5 5 ok (fun j => fit 32 (s.me.sat && ok) (r j))
     let N := fun (i : Instr) (r : Nat → Nat) => V i 5 5 false r
     let dot := fun (i : Instr) (ea eb : Nat → Nat → Int) =>
       V i 3 3 true (fun j => fit 32 s.me.sat (S (D j) + ea (A j) 0 * eb (B j) 0 + ea (A j) 1 * eb (B j) 1 + ea (A j) 2 * eb (B j) 2 + ea (A j) 3 * eb (B j) 3))
     let H := fun (i : Instr) (r : Int → Int → Int) =>
       VecDone i s f.d.toNat 16 32 (fun e =>
         if f.active s.me (e / 2) then
           fit 16 s.me.sat (r (BitVec.ofNat 16 (elem 16 (s.me.rv f.a.toNat) e)).toInt (BitVec.ofNat 16 (f.bElem s.me e)).toInt)
         else elem 16 (s.me.rv f.d.toNat) e) f.len (s.me.pfxWarn 5 5 true false || f.srcWarn16)
     (s.ready ([.v f.d.toNat, .v f.a.toNat, .k f.k.toNat] ++ f.srcRegs) →
       I (.vadd f) true (fun j => S (A j) + S (B j)) ∧ I (.vsub f) true (fun j => S (A j) - S (B j)) ∧
       I (.vmul f) true (fun j => S (A j) * S (B j)) ∧ I (.vmulh f) false (fun j => S (A j) * S (B j) / 2 ^ 32) ∧
       I (.vmin f) false (fun j => min (S (A j)) (S (B j))) ∧ I (.vmax f) false (fun j => max (S (A j)) (S (B j))) ∧
       N (.vminu f) (fun j => min (A j) (B j)) ∧ N (.vmaxu f) (fun j => max (A j) (B j)) ∧ N (.vand f) (fun j => A j &&& B j) ∧
       N (.vor f) (fun j => A j ||| B j) ∧ N (.vxor f) (fun j => A j ^^^ B j) ∧
       N (.vandn f) (fun j => (BitVec.ofNat 32 (A j) &&& ~~~(BitVec.ofNat 32 (B j))).toNat) ∧ N (.vshl f) (fun j => A j * 2 ^ (B j % 32)) ∧
       N (.vshr f) (fun j => A j / 2 ^ (B j % 32)) ∧ N (.vsar f) (fun j => (S (A j) / 2 ^ (B j % 32) % 2 ^ 32).toNat) ∧
       H (.vaddI16 f) (fun x y => x + y) ∧ H (.vsubI16 f) (fun x y => x - y) ∧ dot (.vdot4Ss f) sbyte sbyte ∧
       dot (.vdot4Uu f) (fun x i => byte x i) (fun x i => byte x i) ∧ dot (.vdot4Us f) (fun x i => byte x i) sbyte) ∧
     (s.ready [.v f.d.toNat, .v f.a.toNat, .k f.k.toNat] →
       VecDone (.vabs f) s f.d.toNat 32 16 (on fun j => fit 32 s.me.sat (S (A j)).natAbs) f.len
         (s.me.pfxWarn 5 5 true false || f.noB || f.b != 0))) ∧
  (∀ (f : VF) (s : State), s.ready [.v f.d.toNat, .v f.a.toNat, .k f.k.toNat] →
     let A := fun j => elem 32 (s.me.rv f.a.toNat) j
     let S := fun (x : Nat) => (BitVec.ofNat 32 x).toInt
     let F := fun (i : Instr) (ident : Nat) (op : Nat → Nat → Nat × Nat) =>
       let l0 := fun j => if f.active s.me j then A j else ident
       let up := fun (l : Nat → Nat) (j : Nat) => (op (l (2 * j)) (l (2 * j + 1))).1
       let fg := fun (l : Nat → Nat) (n : Nat) => (List.range n).map fun j => (op (l (2 * j)) (l (2 * j + 1))).2
       let l1 := up l0
       let l2 := up l1
       let l3 := up l2
       FpDone i s f.d.toNat 32 16 (fun j => if j = 0 then up l3 0 else 0)
         [orFlags (fg l0 8 ++ fg l1 4 ++ fg l2 2 ++ fg l3 1)] f.len (s.me.pfxWarn 0 0 false false || f.noB || f.b != 0)
     let I := fun (i : Instr) (ok : Bool) (ident : Int) (op : Int → Int → Int) (rd : Nat → Int) =>
       let v := (List.range 16).foldl (fun a j => op a (if f.active s.me j then rd (A j) else ident)) ident
       VecDone i s f.d.toNat 32 16
         (fun j => if j = 0 then ((if s.me.sat && ok then max (-(2 ^ 31)) (min (2 ^ 31 - 1) v) else v) % 2 ^ 32).toNat else 0) f.len
         (s.me.pfxWarn 5 5 ok false || f.noB || f.b != 0)
     F (.fsum f) 0x80000000 (fun x y => f32.addBits s.me.rm x y) ∧ F (.fmaxr f) 0x7FC00000 (fun x y => f32.minmax false x y) ∧
     F (.fminr f) 0x7FC00000 (fun x y => f32.minmax true x y) ∧
     I (.isum f) true 0 (fun x y => x + y) S ∧ I (.imaxr f) false (-(2 ^ 31)) max S ∧ I (.iminr f) false (2 ^ 31 - 1) min S ∧
     I (.imaxur f) false 0 max (fun x => x) ∧ I (.iminur f) false (2 ^ 32 - 1) min (fun x => x))

/-- R115, R116, R124: compares into a mask, mask logic, select and permutes; k0 ignores writes (R23).

R128: the moves between vector, general and mask registers. That the va field of vins, vext and vextu is used, and sets no WARN, is the
model's reading (log 91).

Completes: fcmp, icmp, vsel, kand, kor, kxor, kandn, knot, vperm, vbcast, vslup, vsldn, vrot, vrev, vzipLo, vzipHi, vuzpEv,
vuzpOd, vmov, vmovLit, vbcg, vins, vext, vextu, kmovg, kmovk. -/
def Obligations.MasksAndMoves : Prop :=
  (∀ (f : VF) (c : BitVec 3) (s : State),
     let A := fun j => elem 32 (s.me.rv f.a.toNat) j
     let B := fun j => f.bLane s.me j
     let D := fun j => elem 32 (s.me.rv f.d.toNat) j
     let S := fun (x : Nat) => (BitVec.ofNat 32 x).toInt
     let n := f.b.toNat
     let rel := fun j => match c.toNat with
       | 0 => decide (A j = B j)
       | 1 => decide (A j ≠ B j)
       | 2 => decide (S (A j) < S (B j))
       | 3 => decide (S (A j) ≤ S (B j))
       | 4 => decide (A j < B j)
       | _ => decide (A j ≤ B j)
     let mask := fun (i : Instr) (p : Nat → Bool) (st : Word) => ∃ t, exec i s = .next t ∧ Ran [.k f.d.toNat] (s.me.pc + word f.len) st s t ∧
       ∀ j, j < 16 → (t.me.rk f.d.toNat).getLsbD j = (f.d == 0 || p j)
     let K := fun (i : Instr) (v : BitVec 16) (w : Bool) => ∃ t, exec i s = .next t ∧
       Ran [.k f.d.toNat] (s.me.pc + word f.len) (statAfter s 0 (f.noB || f.k != 0 || w || s.me.pp)) s t ∧ GotK t f.d.toNat v
     let x := s.me.rk f.a.toNat
     let y := s.me.rk f.b.toNat
     let P3 := fun (i : Instr) (r : Nat → Nat) =>
       VecDone i s f.d.toNat 32 16 (fun j => if f.active s.me j then r j else D j) f.len (f.srcWarn || s.me.pp)
     let P2 := fun (i : Instr) (r : Nat → Nat) (w : Bool) =>
       VecDone i s f.d.toNat 32 16 (fun j => if f.active s.me j then r j else D j) f.len (f.noB || w || s.me.pp)
     (s.ready ([.k f.d.toNat, .v f.a.toNat, .k f.k.toNat] ++ f.srcRegs) →
       let fl := lanes.map fun j => if f.active s.me j then (fcompare c.toNat (A j) (B j)).2 else 0
       mask (.icmp f c) (fun j => f.active s.me j && rel j) (statAfter s 0 (s.me.pfxWarn 5 5 false false || f.srcWarn)) ∧
       (s.me.fpTraps fl = false → mask (.fcmp f c) (fun j => f.active s.me j && (fcompare c.toNat (A j) (B j)).1)
         (statAfter s (orFlags fl) (s.me.pfxWarn 0 0 false false || f.srcWarn))) ∧
       (s.me.fpTraps fl = true → s.canTrap s.cur → ∃ t, exec (.fcmp f c) s = .next t ∧
         Entered { s.me with tstat := s.me.tstat ||| BitVec.ofNat 64 (orFlags fl % 32 * 4) } (t.thr s.cur) .fp s.me.pc (fpTval fl) ∧
         SameBut s.cur s t)) ∧
     (s.ready [.k f.d.toNat, .k f.a.toNat, .k f.b.toNat] →
       K (.kand f) (x &&& y) false ∧ K (.kor f) (x ||| y) false ∧ K (.kxor f) (x ^^^ y) false ∧ K (.kandn f) (x &&& ~~~y) false) ∧
     (s.ready [.k f.d.toNat, .k f.a.toNat] → K (.knot f) (~~~x) (f.b != 0)) ∧
     (s.ready ([.v f.d.toNat, .v f.a.toNat, .k f.k.toNat] ++ f.srcRegs) →
       VecDone (.vsel f) s f.d.toNat 32 16 (fun j => if f.active s.me j then B j else A j) f.len (f.srcWarn || s.me.pp) ∧
       P3 (.vperm f) (fun j => A (B j % 16)) ∧
       P3 (.vzipLo f) (fun j => if j % 2 = 0 then A (j / 2) else B (j / 2)) ∧
       P3 (.vzipHi f) (fun j => if j % 2 = 0 then A (8 + j / 2) else B (8 + j / 2)) ∧
       P3 (.vuzpEv f) (fun j => if j < 8 then A (2 * j) else B (2 * j - 16)) ∧
       P3 (.vuzpOd f) (fun j => if j < 8 then A (2 * j + 1) else B (2 * j - 15))) ∧
     (s.ready [.v f.d.toNat, .v f.a.toNat, .k f.k.toNat] →
       P2 (.vbcast f) (fun _ => A n) false ∧ P2 (.vslup f) (fun j => if n ≤ j then A (j - n) else 0) false ∧
       P2 (.vsldn f) (fun j => if j + n ≤ 15 then A (j + n) else 0) false ∧ P2 (.vrot f) (fun j => A ((j + n) % 16)) false ∧
       P2 (.vrev f) (fun j => A (15 - j)) (f.b != 0))) ∧
  (∀ (f : VF) (l : Word32) (s : State),
     let D := fun j => elem 32 (s.me.rv f.d.toNat) j
     let g := s.me.rg f.a.toNat
     let lane := BitVec.ofNat 32 (elem 32 (s.me.rv f.a.toNat) f.b.toNat)
     (s.ready ([.v f.d.toNat, .k f.k.toNat] ++ f.srcRegs) →
       VecDone (.vmov f) s f.d.toNat 32 16 (fun j => if f.active s.me j then f.bLane s.me j else D j) f.len (f.srcWarn || f.a != 0 || s.me.pp)) ∧
     (s.ready [.v f.d.toNat, .k f.k.toNat] →
       VecDone (.vmovLit f.d f.a f.b f.k l) s f.d.toNat 32 16 (fun j => if f.active s.me j then l.toNat else D j) 8
         (f.b != 0 || f.a != 0 || s.me.pp)) ∧
     (s.ready [.v f.d.toNat, .k f.k.toNat, .g f.a.toNat] →
       VecDone (.vbcg f) s f.d.toNat 32 16 (fun j => if f.active s.me j then g.toNat % 2 ^ 32 else D j) f.len (f.noB || f.b != 0 || s.me.pp)) ∧
     (s.ready [.v f.d.toNat, .g f.a.toNat] → f.b.toNat < 16 →
       VecDone (.vins f) s f.d.toNat 32 16 (fun j => if j = f.b.toNat then g.toNat % 2 ^ 32 else D j) f.len (f.noB || f.k != 0 || s.me.pp)) ∧
     (s.ready [.g f.d.toNat, .v f.a.toNat] →
       WritesG (.vext f) s f.d.toNat (BitVec.ofInt 64 lane.toInt) f.len (f.noB || f.k != 0 || s.me.pp) ∧
       WritesG (.vextu f) s f.d.toNat (BitVec.ofNat 64 lane.toNat) f.len (f.noB || f.k != 0 || s.me.pp)) ∧
     (s.ready [.g f.d.toNat, .k f.a.toNat] →
       WritesG (.kmovg f) s f.d.toNat (BitVec.ofNat 64 (s.me.rk f.a.toNat).toNat) f.len (f.noB || f.k != 0 || f.b != 0 || s.me.pp)) ∧
     (s.ready [.k f.d.toNat, .g f.a.toNat] → ∃ t, exec (.kmovk f) s = .next t ∧ GotK t f.d.toNat (BitVec.ofNat 16 g.toNat) ∧
       Ran [.k f.d.toNat] (s.me.pc + word f.len) (statAfter s 0 (f.noB || f.k != 0 || f.b != 0 || s.me.pp)) s t))

/-- R55-R57: a finite value or an infinity rounded into its own format is itself, with no flag, in every mode and format; and
widening to binary32 loses nothing.

R56-R58, R62, R63: a value rounded into a format, a sum, a product, a fused sum and a quotient of finite values are the exact result
correctly rounded, once; and the square root is the nearest value of the format.

R56, R61: sums and products of NaNs and of opposite infinities give the default NaN; NV tells a signalling operand or an invalid
operation; an exact zero sum of opposite values is negative only in the mode that rounds down. -/
def Obligations.RoundingAndNan : Prop :=
  (∀ (F : Fmt) (rm x : Nat), F ∈ [f32, f16, bf16] → x < 2 ^ (F.ebits + F.fbits + 1) → (F.value x).isNan = false →
     F.ofVal rm (F.value x) = (x, 0) ∧ F.ofVal rm (f32.value (f32.ofVal rm (F.value x)).1) = (x, 0)) ∧
  (∀ (F : Fmt) (rm : Nat), F ∈ [f32, f16, bf16] → rm < 4 →
     (∀ neg m e, F.Rounds rm neg m 1 e (F.ofVal rm (.fin neg m e)).1) ∧
     (∀ x y z a m e b n g c k h, F.value x = .fin a m e → F.value y = .fin b n g → F.value z = .fin c k h →
       let sum := fun (s t : Bool) (p q : Nat) (i j : Int) => signed s p * 2 ^ (i - min i j).toNat + signed t q * 2 ^ (j - min i j).toNat
       let S := sum a b m n e g
       (S ≠ 0 → F.Rounds rm (decide (S < 0)) S.natAbs 1 (min e g) (F.addBits rm x y).1) ∧
       F.Rounds rm (a != b) (m * n) 1 (e + g) (F.mulBits rm x y).1 ∧
       (∀ np nc,
         let T := sum ((a != b) != np) (c != nc) (m * n) k (e + g) h
         T ≠ 0 → F.Rounds rm (decide (T < 0)) T.natAbs 1 (min (e + g) h) (F.fmaBits rm np nc x y z).1) ∧
       (n ≠ 0 → F.Rounds rm (a != b) m n (e - g) (F.div rm (F.value x) (F.value y)).1))) ∧
  (∀ (F : Fmt) (x m : Nat) (e : Int), F ∈ [f32, f16, bf16] → F.value x = .fin false m e → m ≠ 0 →
     ∃ r g, F.value (F.sqrt 0 (F.value x)).1 = .fin false r g ∧
       let low : Int := 1 - F.bias - F.fbits
       let lo := min e (2 * low)
       let at_ := fun (k : Nat) (h : Int) => (k : Int) * 2 ^ (h - low).toNat
       ∀ z k h, F.value z = .fin false k h →
         let mid := (at_ r g + at_ k h) * (at_ r g + at_ k h) * 2 ^ (2 * low - lo).toNat
         let v : Int := 4 * m * 2 ^ (e - lo).toNat
         (at_ r g < at_ k h → v ≤ mid) ∧ (at_ k h < at_ r g → mid ≤ v)) ∧
  (∀ (rm x y : Nat), x < 2 ^ 32 → y < 2 ^ 32 →
     let a := f32.value x
     let b := f32.value y
     ((a.isNan = true ∨ b.isNan = true) → ∀ n, n = a.sig ||| b.sig →
       f32.addBits rm x y = (0x7FC00000, n) ∧ f32.subBits rm x y = (0x7FC00000, n) ∧ f32.mulBits rm x y = (0x7FC00000, n)) ∧
     (f32.addBits rm 0x7F800000 0xFF800000 = (0x7FC00000, 16) ∧ f32.mulBits rm 0x7F800000 0 = (0x7FC00000, 16)) ∧
     (∀ neg m e, a = .fin neg m e → f32.subBits rm x x = (if rm = 2 then 0x80000000 else 0, 0)))

/-! ### The machine as a whole -/

/-- R102, R129, R155, R182, R213: the words that the spec writes out for one instruction or more of each family decode to it. -/
def Obligations.DecodeWords : Prop :=
  let d := fun (w : Word32) => decode (wordParcels w)
  d 0x810C5180#32 = .instr (.add 33#6 34#6 35#6) ∧ d 0x8228C388#32 = .instr (.div 5#6 6#6 7#6) ∧
  d 0x84820389#32 = .instr (.max 16#6 16#6 7#6) ∧ d 0x8048432A#32 = .instr (.lea8 9#6 2#6 6#6) ∧
  d 0x905001C8#32 = .instr (.ldcb 10#6 0#6 true 200#8) ∧ d 0x944AFFFC#32 = .instr (.bltz 9#6 0xFFFC#16) ∧
  d 0x98000100#32 = .instr (.call 0x100#25) ∧ d 0x9E390800#32 = .instr (.clrctl 7#6 8#6 0#10) ∧
  d 0x9DF00011#32 = .instr (.rdctl 62#6 0#6 0x011#10) ∧ d 0xA0101F85#32 = .instr (.wait 2#6 0#6 63#6 5#6) ∧
  d 0xA00002C0#32 = .instr (.trapi 0#6 0#6 5#6) ∧ d 0xA0000042#32 = .instr (.tret 0#6 0#6 0#6) ∧
  d 0xA2634002#32 = .instr (.ldx 12#6 3#3 2#13) ∧
  d 0xA4110C00#32 = .instr (.fadd ⟨1#5, 2#5, 3#5, 0#3, .reg⟩) ∧ d 0xA6219024#32 = .instr (.fmah ⟨2#5, 3#5, 4#5, 0#3, .bank⟩) ∧
  decode (wordParcels 0xA6218044#32 ++ litParcels 0x3DCCCCCD#32) = .instr (.fmahLit 2#5 3#5 0#5 0#3 0x3DCCCCCD#32) ∧
  d 0xAC23F000#32 = .instr (.fmahImm 2#5 0x3F000#20) ∧ d 0xAA73F800#32 = .instr (.vmovImm 7#5 0x3F800#20) ∧
  d 0xAE221482#32 = .instr (.fcmp ⟨2#5, 4#5, 5#5, 1#3, .reg⟩ 2#3) ∧ d 0xB0649818#32 = .instr (.vdq4 ⟨6#5, 9#5, 6#5, 0#3, .reg⟩) ∧
  d 0xB6040180#32 = .instr (.fsum ⟨0#5, 8#5, 0#5, 3#3, .reg⟩) ∧ d 0xBA05A002#32 = .instr (.vins ⟨0#5, 11#5, 8#5, 0#3, .reg⟩) ∧
  d 0xBC282C00#32 = .instr (.ld 5#6 1#6 3#2 0#4 0#6) ∧ d 0xBC183000#32 = .instr (.ldV 3#5 1#6 0#4 0#6) ∧
  d 0xC048C8C3#32 = .instr (.st 9#6 6#6 2#2 3#4 3#6) ∧ d 0xC2404CC2#32 = .instr (.ldw 8#6 2#6 3#2 3#4 2#6) ∧
  d 0xC4282F40#32 = .instr (.ldc 5#6 1#6 3#2 13#4 0#6) ∧ d 0xC6411C01#32 = .instr (.vgather ⟨4#5, 2#5, 7#5, 0#3, .reg⟩ 1#4) ∧
  d 0xC8286200#32 = .instr (.wmerge 5#6 3#6 4#6) ∧ d 0xCA594C82#32 = .instr (.amoAdd 11#6 10#6 true 2#4 false) ∧
  d 0xCC282100#32 = .instr (.dtake 5#6 1#6 2#6) ∧ d 0xCE084180#32 = .instr (.rrot 1#6 2#6 3#6) ∧
  d 0xD000A300#32 = .instr (.spawn 0#6 5#6 6#6) ∧ d 0xD2386000#32 = .instr (.send 7#6 3#6 0#6) ∧
  d 0xD6188000#32 = .instr (.cancel 3#6 4#6 0#6) ∧ d 0xD8494000#32 = .instr (.bbar 9#6 10#6 0#6) ∧
  d 0xDA188002#32 = .instr (.hwait 3#6 4#6 0#6) ∧ d 0xDC00A300#32 = .instr (.stset 0#6 5#6 6#6) ∧
  d 0xDE412500#32 = .instr (.pub 8#6 9#6 10#6) ∧ d 0xE03C0000#32 = .instr (.cq 7#6 4#3) ∧
  d 0xE22B0049#32 = .instr (.copyRed 5#6 3#3 false 1#2 2#4) ∧ d 0xE6302560#32 = .instr (.bmm 6#6 0#3 9#6 1#2 3#3 0#2 false) ∧
  d 0xE8222488#32 = .instr (.bdr 4#6 2#3 9#6 0#2 true false 1#2 false false) ∧ d 0xEA184080#32 = .instr (.twait 3#6 2#6 1#6) ∧
  d 0xEE010000#32 = .instr (.qfence 0#6 8#6 0#6) ∧ decode [0x6300#16] = .instr (.jr16 6#4) ∧ decode [0x1234#16] = .instr (.addi16 4#4 0x34#7) ∧
  decode [0x8828#16, 0x1000#16, 0x1234#16, 0#16] = .instr (.addiLit32 5#6 0#6 0x1234#32)

/-- R29, R30, R34, R37, R41, R43: every well-formed instruction, at every value of every field, decodes from its own parcels to
itself, whatever follows them. -/
def Obligations.RoundTrip : Prop := ∀ i, Laws.RoundTrip.Statement i

/-- R34, R35, R47, R48: what decodes is a well-formed instruction and stands in its own parcels, so no bit of a pattern is
ignored and no two patterns are one instruction.

R30, R48, R49: the majors 0x38 to 0x3F and the short opcodes 0x0 and 0xE are no instruction, whatever the other bits; and a step
that fetches such a pattern enters the handler of ILLEGAL with the word in ctl.tval, and leaves every register and all of
memory. -/
def Obligations.DecodeExactAndReserved : Prop :=
  (∀ ps i, decode ps = .instr i → WellFormed i ∧ i.isEvent = false ∧ ∃ rest, ps = encode i ++ rest) ∧
  ((∀ (w : Word32) rest, w.getLsbD 31 = true → 0x38 ≤ (w.extractLsb' 25 6).toNat → decode (wordParcels w ++ rest) = .illegal) ∧
   (∀ (p : Parcel) rest, (p.extractLsb' 11 4).toNat = 0 ∨ (p.extractLsb' 11 4).toNat = 14 → p.getLsbD 15 = false →
     decode (p :: rest) = .illegal) ∧
   (∀ (s u : State) ps, s.fetches ps u → decode ps = .illegal → s.me.cbNeed = false → u.cur = s.cur → u.canTrap u.cur →
     ∃ t, s.issueNext = .next t ∧ Entered u.me (t.thr u.cur) .illegal u.me.pc (trapWordOf ps) ∧ SameBut u.cur u t))

/-- R29-R32, R216, R387: a turn of a thread that nothing holds back fetches the parcels at PC, first parcel first, and runs the
instruction they decode to. Around it one tick passes and budgets are drawn (R232, R252), and `settle` makes what follows it (R261, R269,
R399). A host write is kept with the position of its entry (R260). That the agenda says what moves next is the model's choice (log 3), and
that a turn of a stopped package is the fault `stopped`, log 15's. -/
def Obligations.StepRunsDecoded : Prop :=
  (∀ (s u : State) n r ps i, s.stopped = false → s.onyx.recovery = false → (s.turned r).restoring = false → (s.turned r).free2run n →
    decode ps = .instr i →
    (s.agenda = .thread n :: r → ((s.turned r).as n).fetches ps u → step s = settle (exec i u)) ∧
    (∀ last, s.agenda = .part n last :: r → ({ s.turned r with upTo := some last }.as n).fetches ps u → step s = settle (exec i u))) ∧
  (∀ (s u v : State) p q, s.fetched s.me.pc p u → (p.getLsbD 15 = false → s.fetches [p] u) ∧
    (p.getLsbD 15 = true → u.fetched (s.me.pc + 2) q v → literalWords (p ++ q) = 0 → s.fetches [p, q] v)) ∧
  (∀ (s : State) (a : Word) pa leaf, s.view s.cur s.me.sup .fetch a = .ok pa leaf →
    s.pkg.pageMoves (s.tenantOf s.cur) a 2 = false → (pa / 64) ∉ s.pkg.errLines → s.me.watch .fetch a 2 = none → isForeign pa = false → isForeign (pa + 1) = false →
    let u := s.useLeaves .fetch leaf.toList
    (∀ h ∈ u.pkg.hist, h.n < u.me.fence ∨ pa + 1 < h.addr ∨ h.addr + h.old.length ≤ pa) →
    s.fetched a (u.pkg.mem.get 0 (pa + 1) ++ u.pkg.mem.get 0 pa) u) ∧
  (∀ s e r, s.agenda = .event e :: r → e.isEvent = true → s.stopped = false → s.onyx.recovery = false → (s.turned r).restoring = false →
    (isHostWrite e = false → step s = settle (exec e (s.turned r))) ∧
    (isHostWrite e = true → (s.turned r).pair.recov = false → (s.turned r).replaying = false → ∀ u, exec e (s.turned r) = .next u →
      step s = settle (.next (if u.lwr = (s.turned r).lwr then u
        else { u with pair := { u.pair with inputs := u.pair.inputs ++ [((s.turned r).lwr, e)] } })))) ∧
  (∀ s n r, s.agenda = .thread n :: r → s.stopped = true → step s = .fault .stopped)

/-- R171, R183, R221, R234, R254, R264, R316, R343, R382, R387, R395: what a package holds right after reset: every control register
of a thread 0, Ecur and V 1, every horizon 0, no class running and ctl.clcyc all ones, the pair registers and the governor at their
reset values, every slot free at generation 1, every bench gated and of no tenant, and every shelf byte 0. That TF, VW, OL, OS, OC, OT and
RGEN are 0 there is the model's choice: the spec gives them no reset value (log 1).

The memory of the package right after reset is in canonical form (the model's own form, log 2). -/
def Obligations.ResetPackage : Prop :=
  (let r := State.reset
   (∀ n, let t := r.thr n
     t.tstat = 0 ∧ t.epc = 0 ∧ t.cause = 0 ∧ t.tval = 0 ∧ t.tvec = 0 ∧ t.tsave = 0 ∧ t.cause2 = 0 ∧ t.tval2 = 0 ∧ t.prog = 0 ∧
     t.tstk = 0 ∧ t.tsg = 0 ∧ t.wp0 = 0 ∧ t.wp1 = 0 ∧ t.tf = false ∧ t.ol = 0 ∧ t.os = 0 ∧ t.oc = 0 ∧ t.ot = 0 ∧ t.vw = 0) ∧
   r.pkg.ecur = 1 ∧ r.pkg.vroot = 1 ∧ (∀ k, r.pkg.horizons.get 0 k = 0) ∧
   (∀ k, (r.pkg.cls k).cyc = allOnes ∧ (r.pkg.cls k).per = 0 ∧ (r.pkg.cls k).pub = 0 ∧ (r.pkg.cls k).started = false) ∧
   r.pair.role = 0 ∧ r.pair.lagmax = 500 ∧ r.pair.loss = 40 ∧ r.pair.hbi = 10 ∧ r.pair.mper = 64 ∧ r.pair.lack = 0 ∧
   (∀ d, r.pkg.pgov.get pgovReset d = 0x0000000803000000#64) ∧
   (∀ k, r.pkg.op k = none ∧ r.pkg.gens.get 1 k = 1) ∧
   (∀ b, (r.pkg.bench b).gated = true ∧ (r.pkg.bench b).tenant = none ∧ (r.pkg.bench b).bflag = 0) ∧
   (∀ a, shelfBase ≤ a → a < imageBase → r.pkg.mem.get 0 a = 0) ∧ (∀ c, (r.pkg.core c).rgen = 0)) ∧
  (Machine.Inv State.reset)

/-- The memory of now and of the recovery marks keeps its canonical form in every step, of whatever instruction or event, from
every state that has it (the model's own form, log 2). -/
def Obligations.StepKeepsMemory : Prop := ∀ s s', Machine.Inv s → step s = .next s' → Machine.Inv s'

/-- R4, R133: bytes are little-endian; a write of n bytes leaves them there and every other byte as it was, and keeps the
canonical form, in which equal memories are equal data (the model's own form, log 2). -/
def Obligations.MemoryBytes : Prop :=
  (∀ (m : Store Byte) a v n, readMem (writeMem m a v n) a n = v % 256 ^ n) ∧
  (∀ (m : Store Byte) a v n x, x < a ∨ a + n ≤ x → (writeMem m a v n).get 0 x = m.get 0 x) ∧
  (∀ (m : Store Byte) a v n, Memory.wf m → Memory.wf (writeMem m a v n)) ∧
  (∀ (m m' : Store Byte), Memory.wf m → Memory.wf m' → (∀ a, m.get 0 a = m'.get 0 a) → m = m')

/-! ### Control registers of the package -/

/-- R93, R234, R235, R237, R264, R305, R326, R327, R382, R389, R390: a supervisor's write of a register of a scan class, of the
pair, of the L2 lock, of a governor or of a core or bench puts the old value in g[d] and the new one in the fields that can be
written, with each field's range judged as its register says. No byte of memory and no other thread changes; only where the trace
buffer holds records may a write of ctl.trptr let some into the ring. A class is enabled only once T has been synchronized: that is the
model's reading (log 108).

R93, R223, R234-R237, R254, R255, R262, R264, R305, R327, R382, R385, R388, R390: a supervisor's read of these registers gives their fields,
as a READ entry of a core thread's log; on a package that leads.

Completes: rdctl, wrctl. -/
def Obligations.PackageControl : Prop :=
  (∀ (d a : BitVec 6) (s : State), s.ready [.g d.toNat] → s.me.sup = true → s.replaying = false →
    let x := s.pkg.bench (benchOf s.cur)
    let c := s.pkg.core (coreOf s.cur)
    let p := s.pair
    let R := fun (n : Nat) (v : Word) => Answers (.rdctl d a (BitVec.ofNat 10 n)) s (s.noted 0x700 v) d.toNat v (a != 0)
    R 0x100 x.bflag ∧ R 0x105 c.dasel ∧ R 0x106 (word (c.accounts.get 0 (bits c.dasel 0 9 * 4 + bits c.dasel 16 2))) ∧
    ((∀ m, m < 4 → s.pkg.occupied (coreOf s.cur) m ≤ 16) →
      ∃ v, R 0x104 v ∧ bits v 48 16 = c.refuse % 2 ^ 16 ∧ bits v 32 16 = c.stalegen % 2 ^ 16 ∧
        ∀ m, m < 4 → bits v (5 * m) 5 = s.pkg.occupied (coreOf s.cur) m) ∧
    (s.pkg.liveBeryl (benchOf s.cur) < 128 →
      ∃ v, R 0x108 v ∧ v.getLsbD 63 = x.keep ∧ bits v 56 7 = s.pkg.liveBeryl (benchOf s.cur) ∧ bits v 32 16 = x.clamp % 2 ^ 16 ∧
        bits v 0 32 = x.renorm % 2 ^ 32) ∧
    (∀ k, k < 8 →
      let g := s.pkg.cls k
      R (0x120 + 4 * k) g.per ∧ R (0x121 + 4 * k) g.pub ∧ R (0x122 + 4 * k) (if g.started then g.cyc else allOnes) ∧
      (∃ v, R (0x123 + 4 * k) v ∧ bits v 48 16 = g.ovrn % 2 ^ 16 ∧ bits v 32 16 = g.skip % 2 ^ 16 ∧ v.getLsbD 2 = s.hold ∧ v.getLsbD 1 = g.step ∧
        v.getLsbD 0 = s.sync) ∧
      R (0x148 + k) (word (if isSteward s.cur then s.pkg.horizons.get 0 k else x.nodeH.get 0 k))) ∧
    R 0x140 (word (p.role * 2 ^ 62 + p.lagmax * 2 ^ 32 + p.loss * 2 ^ 16 + p.hbi)) ∧
    (∃ v, R 0x141 v ∧ bits v 48 16 = p.diverge % 2 ^ 16 ∧ bits v 32 16 = p.rollbk % 2 ^ 16 ∧ v.getLsbD 5 = p.peer ∧ v.getLsbD 4 = p.ready ∧
      v.getLsbD 3 = p.took ∧ v.getLsbD 2 = p.recov ∧ v.getLsbD 1 = s.disarmed ∧ v.getLsbD 0 = p.stop) ∧
    R 0x142 (word s.lwr) ∧ R 0x143 (word p.lack) ∧ R 0x144 (word (p.jgib % 256 * 2 ^ 32 + p.mper % 2 ^ 16)) ∧
    (∃ v, R 0x145 v ∧ bits v 0 32 = s.mark % 2 ^ 32) ∧ R 0x160 s.pkg.l2lk ∧
    R 0x1A0 (s.pkg.pgov.get pgovReset (dieOf s.cur)) ∧ (∃ v, R 0x1A1 v ∧ bits v 32 16 = x.floss % 2 ^ 16) ∧
    R 0x1B0 x.trctl ∧ R 0x1B1 x.trptr) ∧
  ∀ (d a : BitVec 6) (s : State), s.ready [.g d.toNat, .g a.toNat] → s.me.sup = true →
    let v := s.me.rg a.toNat
    let W := fun (n : Nat) (P : State → Prop) => s.privCtl n true = false →
      ∃ t, exec (.wrctl d a (BitVec.ofNat 10 n)) s = .next t ∧ GotG t d.toNat (s.readCtl s.cur n) ∧ t.me.pc = s.me.pc + 4 ∧
        (∀ r, r ≠ d.toNat → t.me.rg r = s.me.rg r) ∧ P t
    let quiet := fun (t : State) => t.pkg.mem = s.pkg.mem ∧ ∀ m, m ≠ s.cur → t.thr m = s.thr m
    W 0x105 (fun t => t.readCtl s.cur 0x105 = v &&& 0x301FF#64 ∧ quiet t) ∧
    W 0x106 (fun t => t.readCtl s.cur 0x106 = v ∧ quiet t) ∧
    W 0x1B0 (fun t => t.readCtl s.cur 0x1B0 = v &&& 0xFFFF0000FFFFFFFF#64 ∧ quiet t) ∧
    W 0x1B1 (fun t => bits (t.readCtl s.cur 0x1B1) 32 32 = bits v 32 32 ∧ ((s.pkg.bench (benchOf s.cur)).tbuf = [] →
      t.readCtl s.cur 0x1B1 = (s.readCtl s.cur 0x1B1 &&& 0xFFFFFFFF#64) ||| (v &&& 0xFFFFFFFF00000000#64) ∧ quiet t)) ∧
    W 0x1A0 (fun t => t.readCtl s.cur 0x1A0 = (s.readCtl s.cur 0x1A0 &&& ~~~0xFFFFFFFFFF#64) ||| (v &&& 0xFFFFFFFFFF#64) ∧ quiet t) ∧
    W 0x140 (fun t =>
      let lag := bits v 32 16
      let hbi := if 1 ≤ bits v 0 16 ∧ bits v 0 16 ≤ 1000 then bits v 0 16 else s.pair.hbi
      t.pair.lagmax = (if 10 ≤ lag ∧ lag ≤ 10000 then lag else s.pair.lagmax) ∧
      (3 * hbi ≤ bits v 16 16 → t.pair.loss = bits v 16 16 ∧ t.pair.hbi = hbi) ∧
      (¬3 * hbi ≤ bits v 16 16 → t.pair.loss = s.pair.loss ∧ t.pair.hbi = s.pair.hbi) ∧
      t.pair.role = (if bits v 62 2 = 3 ∨ s.pair.launched = true then s.pair.role else bits v 62 2) ∧ quiet t) ∧
    W 0x144 (fun t => t.pair.mper = (if 32 ≤ bits v 0 16 ∧ bits v 0 16 ≤ 320 then bits v 0 16 else s.pair.mper) ∧ quiet t) ∧
    W 0x160 (fun t =>
      let old := s.pkg.l2lk
      let w := v &&& 0x0F003FFFFFE00000#64
      let fits := 1 ≤ bits v 56 4 ∧ bits v 56 4 ≤ 12 ∧ bits v 21 25 * 2 ^ 21 + bits v 56 4 * 2 ^ 23 ≤ 0x3C00000000
      (old.getLsbD 62 = true → t.pkg.l2lk = old) ∧
      (old.getLsbD 62 = false → old.getLsbD 63 = false → v.getLsbD 63 = true → fits → t.pkg.l2lk = w ||| 0xC000000000000000#64) ∧
      (old.getLsbD 62 = false → old.getLsbD 63 = false → v.getLsbD 63 = false ∨ ¬fits → t.pkg.l2lk = w) ∧
      (old.getLsbD 62 = false → old.getLsbD 63 = true → t.pkg.l2lk.getLsbD 62 = !(v.getLsbD 63)) ∧ quiet t) ∧
    ∀ k, k < 8 →
      let c := s.pkg.cls k
      let w := v &&& 0x7FFF00003FFFFFFF#64
      let ok := 1 ≤ bits v 48 15 ∧ bits v 48 15 ≤ 32000 ∧ bits v 0 30 < bits v 48 15 * 31250 ∧ bits c.pub 0 30 < bits v 48 15 * 31250 ∧
        1000 ≤ bits c.pub 30 30 ∧ bits c.pub 30 30 ≤ bits c.pub 0 30
      W (0x120 + 4 * k) (fun t =>
        let c' := t.pkg.cls k
        (c.en = false → v.getLsbD 63 = true → ok → s.synced = true →
          c'.per = w ||| 0x8000000000000000#64 ∧ c'.pub = c.pub ∧ c'.started = false ∧
          s.time + 80000 ≤ c'.startOf c'.first ∧ (c'.first = 0 ∨ c'.startOf (c'.first - 1) < s.time + 80000) ∧ quiet t) ∧
        (c.en = false → v.getLsbD 63 = false ∨ ¬ok ∨ s.synced = false → c' = { c with per := w } ∧ quiet t) ∧
        (c.en = true → v.getLsbD 63 = true → c' = c ∧ quiet t) ∧
        (c.en = true → v.getLsbD 63 = false →
          c'.en = false ∧ c'.per.getLsbD 63 = false ∧ c'.started = false ∧ t.readCtl s.cur (0x122 + 4 * k) = allOnes ∧
            t.pkg.horizons.get 0 k = 0)) ∧
      W (0x121 + 4 * k) (fun t =>
        t.pkg.cls k = (if c.en then c else { c with pub := v &&& 0x0FFFFFFFFFFFFFFF#64 }) ∧ quiet t) ∧
      W (0x122 + 4 * k) (fun t => t.pkg.cls k = c ∧ quiet t) ∧
      W (0x123 + 4 * k) (fun t =>
        t.pkg.cls k = { c with ovrn := bits v 48 16, skip := bits v 32 16, step := c.step && !(v.getLsbD 1) } ∧ quiet t)

/-! ### Accesses -/

/-- R36, R41, R101, R130-R133, R140, R143: a load of every form, plain or witness-ordered, forms its address, passes its checks
and leaves: OL rises by 1, its destination is held until the data come, and the thread goes on. The access names its bytes, how
they become a register, and the witness it waits for. A misaligned address traps ALIGN, a byte not permitted traps its cause, a
malformed witness WITNESS, with nothing changed.

R41, R130-R133, R141: a store of every form forms its address, passes its checks and leaves: OS rises by 1, its witness register
is held until the witness comes, the access carries the low bytes of its register, and its lines leave the core's read cache.

R131: an access within one line passes its checks where its address is aligned, watched by nothing, and translates.

Completes: ld, ldu, ldV, ldD16, ldx, ldw, ldwV, st, stV, stD16. -/
def Obligations.LoadsAndStores : Prop :=
  (∀ (d b : BitVec 6) (vd : BitVec 5) (d4 b4 : BitVec 4) (o3 : BitVec 3) (x : BitVec 3) (i13 : BitVec 13) (sz : BitVec 2) (w : BitVec 4)
     (o : BitVec 6) (ps : List Piece) (s u : State),
     let n := 2 ^ sz.toNat
     let L := fun (i : Instr) (plain : Bool) (wn base : Nat) (off : Word) (n al : Nat) (r : Reg) (e : Ext) (code len : Nat) (warn : Bool) =>
       s.ready [.g base, r, .w wn] →
       let a := s.me.rg base + off
       (s.me.ol ≠ 63 → validWit (s.me.rw wn) = true → s.passes .load a n al ps u →
         Sends i s u
           { u.access (loadPieces e ps) code with
             kind := if plain then .plain (s.nodeV s.cur) else .home
             dst := some r, ext := e, wait := if plain then none else some (s.me.rw wn) }
           (Thread.after { s.me.mark [r] with ol := s.me.ol + 1 } s len warn)) ∧
       (s.me.ol ≠ 63 → s.canTrap s.cur → validWit (s.me.rw wn) = false → Traps i s .witness (s.me.rw wn)) ∧
       (s.me.ol ≠ 63 → s.canTrap s.cur → validWit (s.me.rw wn) = true → a.toNat % al ≠ 0 → Traps i s .align a) ∧
       (s.me.ol ≠ 63 → s.canTrap s.cur → validWit (s.me.rw wn) = true → a.toNat % al = 0 → ∀ c q, s.fails .load a n c q → Traps i s c q)
     L (.ld d b sz w o) true 0 b.toNat (o.signExtend 64 * word n) n n (.g d.toNat) (.sext n) 0xF00 4 (w != 0) ∧
     L (.ldu d b sz w o) true 0 b.toNat (o.signExtend 64 * word n) n n (.g d.toNat) (.zext n) 0xF80 4 (w != 0) ∧
     L (.ldV vd b w o) true 0 b.toNat (o.signExtend 64 * 64) 64 4 (.v vd.toNat) .vec 0xF00 4 (w != 0) ∧
     L (.ldD16 d4 b4 o3) true 0 b4.toNat (word (8 * o3.toNat)) 8 8 (.g d4.toNat) (.sext 8) 0xF00 2 false ∧
     L (.ldx d x i13) true 0 d.toNat (i13.signExtend 64 * 8) 8 8 (.x x.toNat) (.zext 8) 0x880 4 false ∧
     L (.ldw d b sz w o) false w.toNat b.toNat (o.signExtend 64 * word n) n n (.g d.toNat) (.sext n) 0x1080 4 false ∧
     L (.ldwV vd b w o) false w.toNat b.toNat (o.signExtend 64 * 64) 64 4 (.v vd.toNat) .vec 0x1080 4 false) ∧
  (∀ (d b : BitVec 6) (vd : BitVec 5) (d4 b4 : BitVec 4) (o3 : BitVec 3) (sz : BitVec 2) (w : BitVec 4) (o : BitVec 6) (ps : List Piece)
     (s u : State),
     let n := 2 ^ sz.toNat
     let S := fun (i : Instr) (wn base : Nat) (off : Word) (n al : Nat) (r : Reg) (data len : Nat) =>
       s.ready [.g base, r, .w wn] → s.me.os ≠ 63 →
       let a := s.me.rg base + off
       (s.passes .store a n al ps u →
         Sends i s (u.dropLines (coreOf s.cur) ps)
           { u.access ps 0 with kind := .store (data % 2 ^ (8 * n)), ext := if n = 64 then .vec else .zext n, wreg := wn }
           (Thread.after { s.me.mark [.w wn] with os := s.me.os + 1 } s len false)) ∧
       (s.canTrap s.cur → a.toNat % al ≠ 0 → Traps i s .align a) ∧
       (s.canTrap s.cur → a.toNat % al = 0 → ∀ c q, s.fails .store a n c q → Traps i s c q)
     S (.st d b sz w o) w.toNat b.toNat (o.signExtend 64 * word n) n n (.g d.toNat) (s.me.rg d.toNat).toNat 4 ∧
     S (.stV vd b w o) w.toNat b.toNat (o.signExtend 64 * 64) 64 4 (.v vd.toNat) (s.me.rv vd.toNat).toNat 4 ∧
     S (.stD16 d4 b4 o3) 0 b4.toNat (word (8 * o3.toNat)) 8 8 (.g d4.toNat) (s.me.rg d4.toNat).toNat 2) ∧
  (∀ (x : Use) (a : Word) (n pa : Nat) (leaf : Option Leaf) (s : State), n ∈ [1, 2, 4, 8] → a.toNat % n = 0 → s.me.watch x a n = none →
     s.pkg.pageMoves (s.tenantOf s.cur) a n = false → s.view s.cur s.me.sup x a = .ok pa leaf → x.writes = false ∨ a.toNat < imageBase →
     s.passes x a n n [⟨pa, n, 0⟩] (s.useLeaves x leaf.toList))

/-- R130-R133, R148, R320: every atomic leaves its thread with OL and OS one higher and its two destinations held, once its
checks pass and, with WIN, its witness is satisfied; before that it waits. A foreign home traps XLAT_PERM with the A and D bits of its
pages set (R333), a misaligned address ALIGN, a byte not permitted its cause, and with WIN a malformed witness WITNESS.

R148: the new value of each atomic operation, on w bits, w a whole number of bytes: swap, compare and swap, add, and, or, xor,
the signed and unsigned minima and maxima; and the float add, the sum of two binary32 rounded to nearest.

Completes: amoSwap, amoCas, amoAdd, amoAnd, amoOr, amoXor, amoMin, amoMax, amoMinu, amoMaxu, amoFadd. -/
def Obligations.Atomics : Prop :=
  (∀ (d b : BitVec 6) (dw win : Bool) (w : BitVec 4) (s : State),
     let a := s.me.rg b.toNat
     let wit := s.me.rw w.toNat
     let A := fun (i : Instr) (op n : Nat) =>
       s.ready ([.g b.toNat, .g d.toNat, .w w.toNat] ++ if op = 1 then [.g (d.toNat + 1)] else []) → s.me.ol ≠ 63 → s.me.os ≠ 63 →
       (win = true → validWit wit = false → s.canTrap s.cur → Traps i s .witness wit) ∧
       (win = false ∨ validWit wit = true →
         (∀ ps u, s.passes .atomic a n n ps u → (∀ p ∈ ps, isForeign p.addr = false) →
           (win = false ∨ s.satisfied (s.nodeV s.cur) wit = true →
             Sends i s u
               { u.access ps 0x1280 with
                 kind := .atomic op (s.me.rg d.toNat) (s.me.rg (d.toNat + 1)), dst := some (.g d.toNat), ext := .sext n, wreg := w.toNat }
               (Thread.after { s.me.mark [.g d.toNat, .w w.toNat] with ol := s.me.ol + 1, os := s.me.os + 1 } s 4 false)) ∧
           (win = true → s.satisfied (s.nodeV s.cur) wit = false → Stalls i s .witness)) ∧
         (s.canTrap s.cur →
           (∀ ps u, s.passes .atomic a n n ps u → (∃ p ∈ ps, isForeign p.addr = true) →
             ∃ t, exec i s = .next t ∧ Entered s.me (t.thr s.cur) .xlatPerm s.me.pc a ∧ SameBut s.cur u t) ∧
           (a.toNat % n ≠ 0 → Traps i s .align a) ∧
           (a.toNat % n = 0 → ∀ c q, s.fails .atomic a n c q → Traps i s c q)))
     let n := if dw then 8 else 4
     A (.amoSwap d b dw w win) 0 n ∧ A (.amoCas d b dw w win) 1 n ∧ A (.amoAdd d b dw w win) 2 n ∧ A (.amoAnd d b dw w win) 3 n ∧
     A (.amoOr d b dw w win) 4 n ∧ A (.amoXor d b dw w win) 5 n ∧ A (.amoMin d b dw w win) 6 n ∧ A (.amoMax d b dw w win) 7 n ∧
     A (.amoMinu d b dw w win) 8 n ∧ A (.amoMaxu d b dw w win) 9 n ∧ A (.amoFadd d b w win) 10 4) ∧
  (∀ (w old x y : Nat), 0 < w → old < 2 ^ w → x < 2 ^ w → y < 2 ^ w →
     let v := fun op => atomicNew op w old x y
     v 0 = x ∧ v 1 = (if old = x then y else old) ∧ v 2 = (old + x) % 2 ^ w ∧ v 3 = (old &&& x) ∧ v 4 = (old ||| x) ∧ v 5 = (old ^^^ x) ∧
     toSigned w (v 6) = min (toSigned w old) (toSigned w x) ∧ toSigned w (v 7) = max (toSigned w old) (toSigned w x) ∧
     v 8 = min old x ∧ v 9 = max old x ∧ (∀ op, op < 10 → v op < 2 ^ w)) ∧
  (∀ (old x : Nat) (y : Nat), old < 2 ^ 32 → x < 2 ^ 32 →
     let r := atomicNew 10 32 old x y
     let a := f32.value old
     let b := f32.value x
     r < 2 ^ 32 ∧ (a.isNan = true ∨ b.isNan = true → r = 0x7FC00000) ∧ (∀ s, a = .inf s → b = .inf (!s) → r = 0x7FC00000) ∧
     (∀ s, (a = .inf s ∧ b.isNan = false ∧ b ≠ .inf (!s)) ∨ (b = .inf s ∧ a.isNan = false ∧ a ≠ .inf (!s)) → r = f32.infinity s) ∧
     ∀ s m e t n g, a = .fin s m e → b = .fin t n g →
       let S := signed s m * 2 ^ (e - min e g).toNat + signed t n * 2 ^ (g - min e g).toNat
       (S ≠ 0 → f32.Rounds 0 (decide (S < 0)) S.natAbs 1 (min e g) r) ∧ (S = 0 → r = if s = true ∧ t = true ∧ m = 0 ∧ n = 0 then 0x80000000 else 0))

/-- R144, R246, R262: a stamp-checked load of a region that is not stale, on a package that leads, writes its STAMP entry, reads
at the home and leaves with the region's stamp for gs, and goes on; of a region that is stale, or of no region (stamp 0), it writes the entry
and traps STALE. That the home is read at issue together with the stamp is the model's choice (log 5). A part at a home outside the package is read as that of an `ldw`, when its reply is made.

Completes: ldc, ldcV. -/
def Obligations.StampLoads : Prop :=
  ∀ (d b : BitVec 6) (vd : BitVec 5) (sz : BitVec 2) (w : BitVec 4) (o : BitVec 6) (ps : List Piece) (ls : List Leaf) (r : Nat) (s : State),
    let n := 2 ^ sz.toNat
    let g := s.pkg.region (s.tenantOf s.cur) r
    let L := fun (i : Instr) (off : Word) (n al : Nat) (dst : Reg) (e : Ext) =>
      s.ready [.g b.toNat, dst, .g w.toNat] → s.me.ol ≠ 63 → isSteward s.cur = false → s.replaying = false →
      let a := s.me.rg b.toNat + off
      let logged := fun (bad : Bool) (v : Word) => s.writeLog ⟨0x03, s.cur, if bad then 1 else 0, v⟩
      let u := (logged false g.stamp).useLeaves .load ls
      a.toNat % al = 0 → s.pkg.pageMoves (s.tenantOf s.cur) a n = false →
      checkParts (s.view s.cur s.me.sup .load) .load (splitLines a n) = .ok ps ls →
      (s.pkg.regionAt (s.tenantOf s.cur) a.toNat n = some r → s.pkg.stale g = false → s.me.watch .load a n = none →
        let sends := fun (P : Access → Prop) =>
          ∃ acc, Sends i s u acc (Thread.after { s.me.mark [dst, .g w.toNat] with ol := s.me.ol + 1 } s 4 false) ∧
            acc.id = s.nextId ∧ acc.thread = s.cur ∧ acc.kind = .home ∧ acc.acc = [] ∧ acc.dst = some dst ∧ acc.ext = e ∧
            acc.gs = some w.toNat ∧ acc.stamp = g.stamp ∧ acc.refused = false ∧ P acc
        ((∀ p ∈ ps, isForeign p.addr = false ∧ (p.addr / 64) ∉ u.pkg.errLines) → (∀ x lo bs, u.ownBytes s.cur x lo bs = bs) →
          sends fun acc => acc.todo = [] ∧
            acc.value = ps.foldl (fun x p => overlay x p.off p.len (readMem u.pkg.mem p.addr p.len)) 0) ∧
        ((∀ p ∈ ps, isForeign p.addr = true) → sends fun acc => acc.todo = ps ∧ acc.value = 0)) ∧
      ((∀ q, s.pkg.regionAt (s.tenantOf s.cur) a.toNat n = some q → s.pkg.stale (s.pkg.region (s.tenantOf s.cur) q) = true) → s.canTrap s.cur →
        let v := ((s.pkg.regionAt (s.tenantOf s.cur) a.toNat n).map fun q => (s.pkg.region (s.tenantOf s.cur) q).stamp).getD 0
        ∃ t, exec i s = .next t ∧ Entered s.me (t.thr s.cur) .stale s.me.pc a ∧ SameBut s.cur ((logged true v).useLeaves .load ls) t)
    L (.ldc d b sz w o) (o.signExtend 64 * word n) n n (.g d.toNat) (.sext n) ∧
    L (.ldcV vd b w o) (o.signExtend 64 * 64) 64 4 (.v vd.toNat) .vec

/-- R139, R145: a gather or scatter. From lane ctl.prog on, with every active lane permitted and nothing that stops it, it sends one
access with its active lanes in ascending order and completes over its whole length with ctl.prog 0; with no active lane it completes and
sends nothing. Where the first active lane is misaligned or not permitted it traps there, and a stop that is due comes after one lane.
What ctl.prog and w[n] hold after a first lane that fails is the model's choice (log 63).

Completes: vgather, vscatter. -/
def Obligations.GatherScatter : Prop :=
  ∀ (f : VF) (n : BitVec 4) (pa : Nat → Nat) (leaf : Nat → Option Leaf) (s : State),
    s.ready [.g f.b.toNat, .v f.a.toNat, .k f.k.toNat, .v f.d.toNat, .w n.toNat] →
    let t := s.me
    let p := bits t.prog 0 4
    let at_ := laneAddr f t
    let js := (List.range 16).filter fun j => decide (p ≤ j) && f.active t j
    let goes := fun (u : Use) (j : Nat) => (at_ j).toNat % 4 = 0 ∧ t.watch u (at_ j) 4 = none ∧
      s.pkg.pageMoves (s.tenantOf s.cur) (at_ j) 4 = false ∧ s.view s.cur t.sup u (at_ j) = .ok (pa j) (leaf j) ∧
      (u.writes = true → imageBase ≤ (at_ j).toNat → ∀ i, i < 4 → ∀ c, s.view s.cur t.sup u (at_ j + word i) ≠ .fault c)
    let pieces := js.map fun j => (⟨pa j, 4, 4 * j⟩ : Piece)
    let used := fun (u : Use) => s.useLeaves u (js.flatMap fun j => (leaf j).toList)
    let none_ := if t.prog = 0 then t.ww n.toNat 0 else t
    let first := fun (j : Nat) => p ≤ j ∧ j < 16 ∧ f.active t j = true ∧ ∀ i, p ≤ i → i < j → f.active t i = false
    let mayLoad := t.ol ≠ 63 ∧ validWit (t.rw n.toNat) = true
    let mayStore := t.os ≠ 63 ∧ (t.prog = 0 ∨ validWit (t.rw n.toNat) = true)
    let enters := fun (i : Instr) (t0 : Thread) (j : Nat) (c : Cause) (q : Word) =>
      ∃ v, exec i s = .next v ∧ Entered { t0 with prog := word j } (v.thr s.cur) c t.pc q ∧ SameBut s.cur s v
    let stops := fun (i : Instr) (j : Nat) => ∃ v, exec i s = .next v ∧ v.me.pc = t.pc ∧ v.me.prog = word (j + 1) ∧
      v.flight.length = s.flight.length + 1
    (mayLoad → s.lastPart = none → (∀ j ∈ js, goes .load j) →
      (t.stopDueNow = false → js ≠ [] →
        let u := used .load
        Sends (.vgather f n) s u
          { u.access pieces (0x1180 + n.toNat) with
            kind := if n = 0 then .plain (u.nodeV s.cur) else .home
            dst := some (.v f.d.toNat), ext := .lanes (js.foldl (fun m j => m + 2 ^ j) 0), wait := if n = 0 then none else some (t.rw n.toNat) }
          (Thread.after { t.mark [.v f.d.toNat] with ol := t.ol + 1 } s f.len f.noB)) ∧
      (js = [] → ∃ v, exec (.vgather f n) s = .next v ∧ Ran [] (t.pc + word f.len) (statAfter s 0 (f.noB || t.pp)) s v) ∧
      (t.stopDueNow = true → ∀ j, first j → j < 15 → stops (.vgather f n) j)) ∧
    (mayStore → s.lastPart = none → (∀ j ∈ js, goes .store j) →
      (t.stopDueNow = false → js ≠ [] →
        let u := used .store
        Sends (.vscatter f n) s (u.dropLines (coreOf s.cur) pieces)
          { u.access pieces 0 with kind := .store (t.rv f.d.toNat).toNat, ext := .lanes 0, wreg := n.toNat
                                   wit := if t.prog = 0 then 0 else t.rw n.toNat }
          (Thread.after { t.mark [.w n.toNat] with os := t.os + 1 } s f.len f.noB)) ∧
      (js = [] → ∃ v, exec (.vscatter f n) s = .next v ∧ Ran [.w n.toNat] (t.pc + word f.len) (statAfter s 0 (f.noB || t.pp)) s v ∧
        v.me.rw n.toNat = none_.rw n.toNat) ∧
      (t.stopDueNow = true → ∀ j, first j → j < 15 → stops (.vscatter f n) j)) ∧
    (∀ j, first j → s.lastPart = none → s.canTrap s.cur →
      (mayLoad →
        ((at_ j).toNat % 4 ≠ 0 → enters (.vgather f n) t j .align (at_ j)) ∧
        ((at_ j).toNat % 4 = 0 → ∀ c q, s.fails .load (at_ j) 4 c q → enters (.vgather f n) t j c q)) ∧
      (mayStore →
        ((at_ j).toNat % 4 ≠ 0 → enters (.vscatter f n) none_ j .align (at_ j)) ∧
        ((at_ j).toNat % 4 = 0 → ∀ c q, s.fails .store (at_ j) 4 c q → enters (.vscatter f n) none_ j c q))) ∧
    (∀ u one k j, (lanesOf s f t u one k j).2.1.all fun x => f.active t x) ∧
    (∀ u k j, j + k = 16 → (∀ i, i < 16 → f.active t i = false) → lanesOf s f t u false k j = ([], [], [], 16))

/-! ### Accesses at their homes -/

/-- R133-R135, R137, R140-R144, R148, R314, R320: what ACCESS_AT_HOME does for an access of one part in the package that nothing
else holds back. A load reads the bytes at its home, unless the line is in error, where it is refused. A store takes the home's
next sequence number and its bytes stand in memory, with the witness that names it. An atomic reads the old value and writes the
new one in one step. That atomics keep the order of stores at a home is the model's choice (log 17), and that a thread's own
stores reach its loads before their home has performed them is log 39's.

R133, R137, R315: the units of an access that a home has accepted under one number are performed one by one, in any order; each leaves its
bytes and no other.

Completes: accessAtHome. -/
def Obligations.AccessHome : Prop :=
  (∀ (id : Nat) (a : Access) (j v : Nat) (x : Piece × Nat × Nat × Nat) (s : State), s.inFlight id = some a → a.id = id → a.kind = .store v →
    a.acc[j]? = some x → j < 131072 → isForeign x.1.addr = false → s.pkg.plainAt x.1.addr → x.1.addr % 64 + x.1.len ≤ 64 →
    (∀ b ∈ s.flight, ∀ y ∈ b.acc, y.2.1 = x.2.1 → y.2.2.1 = x.2.2.1) →
    ∃ t, exec (.accessAtHome id [131072 + j]) s = .next t ∧
      readMem t.pkg.mem x.1.addr x.1.len = v / 2 ^ (8 * x.1.off) % 2 ^ (8 * x.1.len) ∧
      (∀ y, y < x.1.addr ∨ x.1.addr + x.1.len ≤ y → t.pkg.mem.get 0 y = s.pkg.mem.get 0 y) ∧
      t.flight = (if a.replied = true ∧ a.todo = [] ∧ a.acc.erase x = [] then s.flight.filter fun b => b.id != id
        else s.flight.map fun b => if b.id = id then { a with acc := a.acc.erase x } else b) ∧
      t.threads = s.threads ∧ t.pkg.seqs = s.pkg.seqs ∧ t.pkg.cores = s.pkg.cores ∧ t.pkg.benches = s.pkg.benches) ∧
  ∀ (id : Nat) (a : Access) (p : Piece) (s : State), s.inFlight id = some a → a.id = id → a.todo = [p] → a.acc = [] → a.replied = false →
    isForeign p.addr = false → s.firstAtHome a p = true → p.addr % 64 + p.len ≤ 64 → (a.ext = .vec → p.len % 4 = 0) →
    let only := fun (t : State) (b : Access) => t.flight = s.flight.map fun x => if x.id = id then b else x
    let h := homeOf p.addr
    let old := readMem s.pkg.mem p.addr p.len
    let q := s.pkg.seqs.get 0 h
    ((a.kind = .home ∨ ∃ v, a.kind = .plain v) → (∀ w, a.wait = some w → s.satisfied (s.nodeV a.thread) w = true) →
      s.latchDue p.addr p.len = false →
      ((p.addr / 64) ∉ s.pkg.errLines → (∀ lo bs, s.ownBytes a.thread id lo bs = bs) →
        ∃ t, exec (.accessAtHome id []) s = .next t ∧ only t { a with value := overlay a.value p.off p.len old, todo := [] } ∧
          { t with flight := s.flight } = s) ∧
      ((p.addr / 64) ∈ s.pkg.errLines → ∃ t, exec (.accessAtHome id []) s = .next t ∧ only t { a with refused := true, todo := [] } ∧
          t.pkg = { s.pkg with checkDue := true } ∧ { t with flight := s.flight, pkg := s.pkg, marks := s.marks } = s)) ∧
    ((a.kind = .home ∧ ∃ w, a.wait = some w ∧ s.satisfied (s.nodeV a.thread) w = false) → exec (.accessAtHome id []) s = .next s) ∧
    ((∀ b ∈ s.flight, ∀ y ∈ b.acc, y.2.1 ≠ h) → s.pkg.plainAt p.addr →
      (∀ v, a.kind = .store v → a.wit = 0 →
        ∃ t, exec (.accessAtHome id []) s = .next t ∧ readMem t.pkg.mem p.addr p.len = v / 2 ^ (8 * p.off) % 2 ^ (8 * p.len) ∧
          (∀ x, x < p.addr ∨ p.addr + p.len ≤ x → t.pkg.mem.get 0 x = s.pkg.mem.get 0 x) ∧
          only t { a with todo := [], acc := [], wit := witOf h q } ∧ t.pkg.seqs.get 0 h = (q + 1) % 2 ^ 20 ∧
          { t with pkg := s.pkg, marks := s.marks, flight := s.flight } = s ∧ t.pkg.cores = s.pkg.cores ∧
            t.pkg.benches = s.pkg.benches ∧ t.pkg.ops = s.pkg.ops ∧ t.pkg.messages = s.pkg.messages ∧ t.pkg.ecur = s.pkg.ecur) ∧
      (∀ op x y, a.kind = .atomic op x y → s.replaying = false → (p.addr / 64) ∉ s.pkg.errLines →
        ∃ t, exec (.accessAtHome id []) s = .next t ∧
          readMem t.pkg.mem p.addr p.len =
            atomicNew op (8 * p.len) old (x.toNat % 2 ^ (8 * p.len)) (y.toNat % 2 ^ (8 * p.len)) % 2 ^ (8 * p.len) ∧
          (∀ x, x < p.addr ∨ p.addr + p.len ≤ x → t.pkg.mem.get 0 x = s.pkg.mem.get 0 x) ∧
          only t { a with todo := [], value := old, wit := witOf h q } ∧ t.pkg.seqs.get 0 h = (q + 1) % 2 ^ 20 ∧
          t.threads = s.threads ∧ t.pkg.cores = s.pkg.cores ∧ t.pkg.benches = s.pkg.benches))

/-- R132, R135, R140, R142, R144, R148: the replies. The data of a load reach its register, sign- or zero-extended, OL falls by
1 and the register is free; a refused load writes nothing and its register stays held. The witness of a store reaches its
register, FW takes it up, OS falls by 1; that of an atomic comes with its old value.

Completes: loadReply, witnessReturn. -/
def Obligations.Replies : Prop :=
  ∀ (id : Nat) (a : Access) (s : State), s.inFlight id = some a → a.todo = [] →
    let t := s.thr a.thread
    let gone := fun (u : State) => u.flight = s.flight.filter fun b => b.id != id
    let rest := fun (u : State) => (∀ m, m ≠ a.thread → u.thr m = s.thr m) ∧ u.pkg = s.pkg ∧ u.pair = s.pair
    a.id = id →
    ((a.kind = .home ∨ ∃ v, a.kind = .plain v) →
      ∃ u, exec (.loadReply id) s = .next u ∧ gone u ∧ rest u ∧ (u.thr a.thread).ol = t.ol - 1 ∧ (u.thr a.thread).pc = t.pc ∧
        (a.refused = true → u.thr a.thread = { t with ol := t.ol - 1 }) ∧
        (a.refused = false → ∀ d, a.gs = none → a.dst = some (.g d) →
          (u.thr a.thread).busy = t.busy.erase (.g d) ∧ (∀ m, m ≠ d → (u.thr a.thread).rg m = t.rg m) ∧
          (∀ n, n ∈ [1, 2, 4, 8] → a.ext = .sext n → d ≠ 0 → (u.thr a.thread).rg d = (BitVec.ofNat (8 * n) a.value).signExtend 64) ∧
          (∀ n, n ∈ [1, 2, 4, 8] → a.ext = .zext n → d ≠ 0 → (u.thr a.thread).rg d = word (a.value % 2 ^ (8 * n)))) ∧
        (a.refused = false → ∀ d, a.gs = none → a.dst = some (.v d) → ∀ j, j < 16 →
          (a.ext = .vec → elem 32 ((u.thr a.thread).rv d) j = a.value / 2 ^ (32 * j) % 2 ^ 32) ∧
          (∀ m, a.ext = .lanes m → elem 32 ((u.thr a.thread).rv d) j =
            if m.testBit j then a.value / 2 ^ (32 * j) % 2 ^ 32 else elem 32 (t.rv d) j)) ∧
        (a.refused = false → ∀ g, a.gs = some g → g ≠ 0 → (u.thr a.thread).rg g = a.stamp)) ∧
    ((mergeValid s.pkg.ecur t.fw a.wit).2 = false →
      ((∃ v, a.kind = .store v) → a.replied = false →
        ∃ u, exec (.witnessReturn id) s = .next u ∧ rest u ∧ (u.thr a.thread).os = t.os - 1 ∧
          (u.thr a.thread).fw = (mergeValid s.pkg.ecur t.fw a.wit).1 ∧ (a.wreg ≠ 0 → (u.thr a.thread).rw a.wreg = a.wit) ∧
          (u.thr a.thread).busy = t.busy.erase (.w a.wreg) ∧ (∀ m, m ≠ a.wreg → (u.thr a.thread).rw m = t.rw m) ∧
          (∀ m, (u.thr a.thread).rg m = t.rg m) ∧ (u.thr a.thread).pc = t.pc ∧ (a.acc = [] → gone u)) ∧
      ((∃ op x y, a.kind = .atomic op x y) → a.refused = false → ∀ d, a.dst = some (.g d) → a.gs = none →
        ∃ u, exec (.loadReply id) s = .next u ∧ gone u ∧ rest u ∧ (u.thr a.thread).ol = t.ol - 1 ∧ (u.thr a.thread).os = t.os - 1 ∧
          (u.thr a.thread).fw = (mergeValid s.pkg.ecur t.fw a.wit).1 ∧ (a.wreg ≠ 0 → (u.thr a.thread).rw a.wreg = a.wit) ∧
          ∀ n, n ∈ [4, 8] → a.ext = .sext n → d ≠ 0 → (u.thr a.thread).rg d = (BitVec.ofNat (8 * n) a.value).signExtend 64))

/-! ### Order and witnesses -/

/-- R138, R139, R146, R147, R154, R262: the witness instructions and the read-cache ones. `wmerge` puts the merge in w[d], the
EPOCH entry written where Ecur goes into it; the two moves copy the bits unchecked; `wwait` completes once w[a] is satisfied and
waits before that; `wfence` waits until OS = 0 and hands out FW; `wtest` answers whether w[a] is satisfied, a READ entry. A
malformed operand traps WITNESS. Prefetches use the leaf of a DRAM address and change no register; `rcinv` marks the DRAM line that g[a] translates to, and `rcinv.all`
the core's whole read cache, to be read at the home from now on.

R137-R139, R146: merging witnesses, and when a witness is satisfied. An empty operand leaves the other; of two entries of one
home the later number by the distance modulo 2^20 is kept, the larger at a distance of 2^19; entries of two homes stand in the
order of the homes; an epoch absorbs, with Ecur beside an exact witness; and three homes fall to the epoch Ecur.

Completes: wmerge, wmovg, wmovw, wwait, wfence, wtest, pfRc, pfL2, rcinv, rcinvAll. -/
def Obligations.WitnessesAndMerge : Prop :=
  (∀ (d a b : BitVec 6) (s : State), s.replaying = false → s.cur < 2056 → s.pkg.ecur < 2 ^ 48 →
     let p := s.me.rw a.toNat
     let q := s.me.rw b.toNat
     let got := fun (v : Word) (t : State) => GotW t d.toNat v
     let at_ := s.view s.cur s.me.sup .load (s.me.rg a.toNat)
     (s.ready [.w d.toNat, .w a.toNat, .w b.toNat] →
       let r := mergeValid s.pkg.ecur p q
       (validWit p = true → validWit q = true →
         Does (.wmerge d a b) s (if r.2 && !isSteward s.cur then s.dated s.cur else s) [.w d.toNat] false (got r.1)) ∧
       (s.canTrap s.cur → validWit p = false → Traps (.wmerge d a b) s .witness p) ∧
       (s.canTrap s.cur → validWit p = true → validWit q = false → Traps (.wmerge d a b) s .witness q)) ∧
     (s.ready [.g d.toNat, .w a.toNat] → Answers (.wmovg d a b) s s d.toNat p (b != 0)) ∧
     (s.ready [.w d.toNat, .g a.toNat] → Does (.wmovw d a b) s s [.w d.toNat] (b != 0) (got (s.me.rg a.toNat))) ∧
     (s.ready [.w a.toNat] →
       (validWit p = true → s.satisfied (s.nodeV s.cur) p = true → Does (.wwait d a b) s s [] (d != 0 || b != 0) fun _ => True) ∧
       (validWit p = true → s.satisfied (s.nodeV s.cur) p = false → Stalls (.wwait d a b) s .witness) ∧
       (s.canTrap s.cur → validWit p = false → Traps (.wwait d a b) s .witness p)) ∧
     (s.ready [.w d.toNat] →
       (s.me.os = 0 → Does (.wfence d a b) s s [.w d.toNat] (a != 0 || b != 0) (got s.me.fw)) ∧
       (s.me.os ≠ 0 → Stalls (.wfence d a b) s .ownStores)) ∧
     (s.ready [.g d.toNat, .w a.toNat] →
       let v := flag (s.satisfied (s.nodeV s.cur) p)
       (validWit p = true → Answers (.wtest d a b) s (s.noted 0x1205 v) d.toNat v (b != 0)) ∧
       (s.canTrap s.cur → validWit p = false → Traps (.wtest d a b) s .witness p)) ∧
     (s.ready [.g a.toNat] →
       let w := d != 0 || b != 0
       (∀ u, (∀ pa l, at_ = .ok pa l → pa < dramEnd → s.pkg.pageMoves (s.tenantOf s.cur) (s.me.rg a.toNat) 1 = false → u = s.useLeaves .load l.toList) →
         ((∀ pa l, at_ = .ok pa l → pa < dramEnd → s.pkg.pageMoves (s.tenantOf s.cur) (s.me.rg a.toNat) 1 = true) → u = s) →
         Does (.pfRc d a b) s u [] w (fun _ => True) ∧ Does (.pfL2 d a b) s u [] w (fun _ => True)) ∧
       (∀ pa l, at_ = .ok pa l → pa < dramEnd →
         Does (.rcinv d a b) s { s with inval := s.inval.set 0 ((pa / 64 + 1) * 4096 + coreOf s.cur) s.pkg.histN } [] w fun _ => True) ∧
       ((∀ pa l, at_ = .ok pa l → dramEnd ≤ pa) → Does (.rcinv d a b) s s [] w fun _ => True)) ∧
     Does (.rcinvAll d a b) s { s with inval := s.inval.set 0 (coreOf s.cur) s.pkg.histN } [] (d != 0 || a != 0 || b != 0) fun _ => True) ∧
  (∀ (e : Nat), e < 2 ^ 48 →
     (∀ p q, emptyWit p = true → mergeValid e p q = (q, false)) ∧
     (∀ p q, emptyWit p = false → emptyWit q = true → mergeValid e p q = (p, false)) ∧
     (∀ h i j, h ≤ 644 → i < 2 ^ 20 → j < 2 ^ 20 →
       let k := (i + 2 ^ 20 - j) % 2 ^ 20
       mergeValid e (witOf h i) (witOf h j) =
         (witOf h (if k < 2 ^ 19 then i else if k = 2 ^ 19 then max i j else j), false)) ∧
     (∀ g h i j, g < h → h ≤ 644 → i < 2 ^ 20 → j < 2 ^ 20 →
       mergeValid e (witOf g i) (witOf h j) = (exactOf (entryOf g i) (entryOf h j), false) ∧
       mergeValid e (witOf h j) (witOf g i) = (exactOf (entryOf g i) (entryOf h j), false)) ∧
     (∀ f g h i j k, f < g → g < h → h ≤ 644 → i < 2 ^ 20 → j < 2 ^ 20 → k < 2 ^ 20 →
       mergeValid e (exactOf (entryOf f i) (entryOf g j)) (witOf h k) = (epochWit e, true) ∧
       mergeValid e (exactOf (entryOf f i) (entryOf h k)) (witOf g j) = (epochWit e, true) ∧
       mergeValid e (witOf f i) (exactOf (entryOf g j) (entryOf h k)) = (epochWit e, true)) ∧
     (∀ x y, x < 2 ^ 48 → y < 2 ^ 48 → mergeValid e (epochWit x) (epochWit y) = (epochWit (max x y), false)) ∧
     (∀ x h i, x < 2 ^ 48 → h ≤ 644 → i < 2 ^ 20 →
       mergeValid e (epochWit x) (witOf h i) = (epochWit (max x e), true) ∧
       mergeValid e (witOf h i) (epochWit x) = (epochWit (max x e), true)) ∧
     (∀ (s : State) (v : Nat), (∀ w : Word, w.toNat < 2 ^ 62 → s.satisfied v w = true) ∧
       (∀ x, x < 2 ^ 48 → (s.satisfied v (epochWit x) = true ↔ x < v)) ∧
       (∀ h i, h ≤ 644 → i < 2 ^ 20 → s.satisfied v (witOf h i) = !(s.unperformed h i))))

/-! ### Drawers, barriers, signals, the scan cycle and stamps -/

/-- R149-R152, R262: the drawer operations on an enabled drawer. At issue each sends its request to the drawer's shelf; `dtake` and
`dclaim` then wait, and the others go on with their destinations held. A misaligned descriptor traps ALIGN; one outside the tenant's
descriptor areas, or with EN = 0, SHELF_PERM; the WITNESS trap of `dpost` on a malformed witness is the model's choice (log 40). A
`dtake` whose drawer was found empty suspends.

At the shelf each request is one step with its ARB entry. `dtake` takes the slot at HEAD with its posted witness; `dclaim` claims the
slot at TAIL and waits on a full drawer; the `.try` forms answer 0 instead; `dfree` frees a taken slot; `dpost` records its witness for
the oldest claimed slot and readies the readers; `dprobe` reads DSTATE with EN. What a request does on a bench switched to another tenant
meanwhile is the model's choice (log 104) and not stated.

R149, R151: a step at the home that sets EN enables a drawer whose layout fits, with all slots free and the counters 0, and
leaves EN 0 where it does not fit; one that clears EN disables it and keeps the layout. No byte outside the descriptor changes.

Completes: dtake, dtakeTry, dfree, dclaim, dclaimTry, dpost, dprobe, accessAtHome, drawerEnable, drawerDisable. -/
def Obligations.DrawerOperations : Prop :=
  (∀ (d a b : BitVec 6) (s : State), s.ready [.g d.toNat, .g a.toNat, .w b.toNat] →
     let x := s.me.rg a.toNat
     let sent := fun (func d b : Nat) (w : Word) => { s with
       pkg := { s.pkg with asks := s.pkg.asks ++ [⟨s.nextId, s.cur, func, x.toNat, d, b, w⟩] }, nextId := s.nextId + 1 }
     let waits := fun (i : Instr) (func b : Nat) => s.me.stall = none →
       ∃ t, exec i s = .next t ∧ t.me = { s.me with stall := some .asked } ∧ SameRest (sent func d.toNat b 0) t
     let goes := fun (i : Instr) (func b : Nat) (w : Word) (rs : List Reg) (warn : Bool) =>
       ∃ t, exec i s = .next t ∧ t.me = (s.me.mark rs).after s 4 warn ∧ SameRest (sent func d.toNat b w) t
     let wit := s.me.rw b.toNat
     (s.atDesc x →
       waits (.dtake d a b) 0 b.toNat ∧ waits (.dclaim d a b) 3 (if b = 0 then 0 else 1) ∧
       goes (.dtakeTry d a b) 1 b.toNat 0 [.g d.toNat, .w b.toNat] false ∧
       goes (.dfree d a b) 2 0 0 [.g d.toNat] (b != 0) ∧ goes (.dclaimTry d a b) 4 0 0 [.g d.toNat] (b != 0) ∧
       (validWit wit = true → goes (.dpost d a b) 5 0 wit [.g d.toNat] false) ∧
       goes (.dprobe d a b) 6 0 0 [.g d.toNat] (b != 0)) ∧
     (s.me.stall = some .drawer → ∀ k, s.maySuspend k →
       let D := (s.parked k s.me.pc 3 (keyOfDrawer x.toNat) s.pkg).drawer x.toNat
       D.en = true → D.filled = 0 →
       Suspends (.dtake d a b) s k s.me.pc 3 (keyOfDrawer x.toNat) (keyOfDrawer x.toNat) s.pkg) ∧
     (s.canTrap s.cur → s.me.stall = none → validWit wit = true →
       ∀ i ∈ [Instr.dtake d a b, .dtakeTry d a b, .dfree d a b, .dclaim d a b, .dclaimTry d a b, .dpost d a b, .dprobe d a b],
         (x.toNat % 64 ≠ 0 → Traps i s .align x) ∧ (x.toNat % 64 = 0 → ¬s.atDesc x → Traps i s .shelfPerm x)) ∧
     (s.canTrap s.cur → validWit wit = false → Traps (.dpost d a b) s .witness wit)) ∧
  (∀ (x : DrawerAsk) (s : State), s.replaying = false → s.inFlight x.id = none → s.pkg.asks.find? (fun y => y.id == x.id) = some x →
     (∀ y ∈ s.pkg.asks, y.thread = x.thread → y.id < x.id → homeOf y.at_ ≠ homeOf x.at_) → (s.pkg.drawer x.at_).en = true →
     isSteward x.thread = false → s.pkg.inMap (s.tenantOf x.thread) (homeOf x.at_ / 8) = true →
     let i := Instr.accessAtHome x.id []
     let n := x.thread
     let old := s.thr n
     let D := s.pkg.drawer x.at_
     let S := s.served (0x800 + homeOf x.at_) (s.waitingAt (homeOf x.at_)) n
     let base := fun (u : State) (f : Pkg → Pkg) => { u with
       pkg := { f u.pkg with asks := (f u.pkg).asks.filter fun y => y.id != x.id } }
     let put := fun (D' : Drawer) (p : Pkg) => p.putDrawer x.at_ D'
     let took := { D with head := (D.head + 1) % D.slots, filled := D.filled - 1, taken := D.taken + 1 }
     let claimed := { D with tail := (D.tail + 1) % D.slots, free := D.free - 1, claimed := D.claimed + 1 }
     let posted := { D with claimed := D.claimed - 1, filled := D.filled + 1 }
     let at_ := fun (j : Nat) => word (D.base + j * D.size * 64)
     let wit := s.pkg.slotWits.get 0 (slotWitKey x.at_ D.head)
     let read := fun (v : Word) => S.writeLog ⟨0x02, n, 0x26 * 128 + x.func, v⟩
     let kept := fun (t : Thread) => (∀ m, m ≠ x.d → t.rg m = old.rg m) ∧ t.fw = old.fw ∧ t.task = old.task
     let ends := fun (v : Word) (f : Pkg → Pkg) (P : Thread → Prop) => ∃ t, exec i s = .next t ∧ SameBut n (base S f) t ∧
       (t.thr n).pc = old.pc + 4 ∧ (t.thr n).stall = none ∧ (x.d ≠ 0 → (t.thr n).rg x.d = v) ∧ kept (t.thr n) ∧ P (t.thr n)
     let answers := fun (v : Word) (f : Pkg → Pkg) => ∃ t, exec i s = .next t ∧ SameBut n (base (read v) f) t ∧
       t.thr n = (old.wg x.d v).unmark (.g x.d)
     let takes := fun (v w : Word) (f : Pkg → Pkg) => ∃ t, exec i s = .next t ∧ SameBut n (base (read v) f) t ∧
       t.thr n = (((old.wg x.d v).unmark (.g x.d)).ww x.b w).unmark (.w x.b)
     (x.func = 0 →
       (D.filled ≠ 0 → ends (at_ D.head) (put took) fun t => (x.b ≠ 0 → t.rw x.b = wit) ∧ ∀ m, m ≠ x.b → t.rw m = old.rw m) ∧
       (D.filled = 0 → ∃ t, exec i s = .next t ∧ SameBut n (base S id) t ∧ t.thr n = { old with stall := some .drawer })) ∧
     (x.func = 1 → (D.filled ≠ 0 → at_ D.head ≠ 0 → takes (at_ D.head) wit (put took)) ∧ (D.filled = 0 → takes 0 0 id)) ∧
     (x.func = 2 → (D.taken ≠ 0 → answers 1 (put { D with taken := D.taken - 1, free := D.free + 1 })) ∧ (D.taken = 0 → answers 0 id)) ∧
     (x.func = 3 → (D.free ≠ 0 → ends (at_ D.tail) (put claimed) fun t => ∀ m, t.rw m = old.rw m) ∧ (D.free = 0 → exec i s = .next s)) ∧
     (x.func = 4 → (D.free ≠ 0 → answers (at_ D.tail) (put claimed)) ∧ (D.free = 0 → answers 0 id)) ∧
     (x.func = 5 →
       (D.claimed ≠ 0 → answers 1 fun p =>
         let q := put posted p
         { q with slotWits := q.slotWits.set 0 (slotWitKey x.at_ ((D.tail + D.slots - D.claimed % D.slots) % D.slots)) x.wit }.wakeReaders
           s.tick x.at_) ∧
       (D.claimed = 0 → answers 0 id)) ∧
     (x.func = 6 → answers (s.pkg.rd (x.at_ + 16) ||| 0x8000000000000000#64) id)) ∧
  (∀ (c n : Nat) (s : State), c < 512 → n < 64 → (s.pkg.sleepers.all fun z => z.state != 3) = true →
     let a := drawerAddr c n
     let D := s.pkg.drawer a
     let fits := D.size ≠ 0 ∧ bits (s.pkg.rd (a + 8)) 6 13 * 64 + D.slots * D.size * 64 ≤ 0x5F000
     let frame := fun (t : State) => (∀ x, x < a ∨ a + 64 ≤ x → t.pkg.mem.get 0 x = s.pkg.mem.get 0 x) ∧ t.threads = s.threads ∧
       t.pkg.cores = s.pkg.cores ∧ t.flight = s.flight
     (∃ t, exec (.drawerEnable c n) s = .next t ∧ frame t ∧
       (D.en = false → fits → t.pkg.drawer a =
         { D with en := true, tail := 0, head := 0, taken := 0, claimed := 0, filled := 0, free := D.slots }) ∧
       (D.en = false → ¬fits → t.pkg.drawer a = D) ∧
       (D.en = true → t.pkg.drawer a = D)) ∧
     ∃ t, exec (.drawerDisable c n) s = .next t ∧ frame t ∧ t.pkg.drawer a = { D with en := false })

/-- R174-R176, R223, R262: barriers and signals. `bbar` waits for OS = 0 and for the other threads of its mask; the last arrival
answers 1 to all of them; a thread outside its own mask gets 0 with WARN, and a mask that differs 0 with WARN for all. `mbar`
hands out the epoch witness of Ecur and waits until V exceeds it. `sigb` sends an add and goes on with g[d] held; SIGNAL_ADD makes it
where RGEN matches and writes g[d]; `swait` waits for its amount and subtracts it; `rgen` reads RGEN. That a core which runs a task and has
one pre-empted in `swait` too answers 0, and that an add finds nothing to add to on a bench switched to another tenant, are the model's
choices (logs 77, 104).

R153: the rotate. A join waits for the other cores of its bench; when the eighth core joins and all gave one length and one
direction, each core's shelf accepts the lines of its neighbour's tile as they stood, with its next numbers, as stores of the thread that
joined (the model's reading, log 106), and each thread goes on with the witness of the last of them, its OS down by 1. Where the joins
differ nothing moves: each thread goes on with the null witness and WARN. A bad offset or length traps ALIGN; a tile that is not
permitted, SHELF_PERM, with its first such byte in ctl.tval by the model's reading (log 42).

Completes: bbar, mbar, sigb, swait, rgen, signalAdd, rrot, rrotDn. -/
def Obligations.BarriersSignalsRotate : Prop :=
  (∀ (d a b : BitVec 6) (s : State), s.replaying = false → s.pkg.ecur < 2 ^ 48 →
     let x := s.me.rg a.toNat
     let n := s.cur
     let mask := bits x 0 32
     let bar := bits x 32 2
     let warn := b != 0 || bits x 34 30 != 0
     let others := (s.pkg.bench (benchOf n)).arrivals.filter fun y => y.bar == bar && y.thread != n
     let mine : Arrival := ⟨bar, mask, n, d.toNat, warn⟩
     let answered := fun (l : List Arrival) (v : Word) (t : State) =>
       (∀ y ∈ l, (t.thr y.thread).pc = (s.thr y.thread).pc + 4 ∧ (y.d ≠ 0 → (t.thr y.thread).rg y.d = v) ∧
         (∀ m, m ≠ y.d → (t.thr y.thread).rg m = (s.thr y.thread).rg m) ∧
         ((t.thr y.thread).tstat.getLsbD 7 = ((s.thr y.thread).tstat.getLsbD 7 || v == 0 || y.warn || (s.thr y.thread).pp))) ∧
       (∀ m, (∀ y ∈ l, y.thread ≠ m) → t.thr m = s.thr m) ∧ t.pkg.mem = s.pkg.mem ∧ t.flight = s.flight
     (s.ready [.g d.toNat, .g a.toNat] → (others.map (·.thread)).Nodup →
       (s.me.os ≠ 0 → Stalls (.bbar d a b) s .ownStores) ∧
       (s.me.os = 0 → mask.testBit (n % 32) = false → ∃ t, exec (.bbar d a b) s = .next t ∧ answered [mine] 0 t) ∧
       (s.me.os = 0 → mask.testBit (n % 32) = true → (∃ y ∈ others, y.mask ≠ mask) →
         ∃ t, exec (.bbar d a b) s = .next t ∧ answered (others ++ [mine]) 0 t) ∧
       (s.me.os = 0 → mask.testBit (n % 32) = true → (∀ y ∈ others, y.mask = mask) →
         ((∀ i, i < 32 → mask.testBit i = true → i = n % 32 ∨ ∃ y ∈ others, y.thread % 32 = i) →
           ∃ t, exec (.bbar d a b) s = .next t ∧ answered (others ++ [mine]) 1 t ∧
             ∀ y ∈ (t.pkg.bench (benchOf n)).arrivals, y.bar ≠ bar) ∧
         ((∃ i, i < 32 ∧ mask.testBit i = true ∧ i ≠ n % 32 ∧ ∀ y ∈ others, y.thread % 32 ≠ i) →
           ∃ t, exec (.bbar d a b) s = .next t ∧ mine ∈ (t.pkg.bench (benchOf n)).arrivals ∧
             t.me = { s.me with stall := some .barrier } ∧ ∀ m, m ≠ n → t.thr m = s.thr m))) ∧
     (s.ready [.w d.toNat] →
       (s.me.os = 0 → isSteward n = false → (∀ e, s.me.stall ≠ some (.epoch e)) →
         exec (.mbar d a b) s = .next ((s.dated n).setMe { s.me.ww d.toNat (epochWit s.pkg.ecur) with stall := some (.epoch s.pkg.ecur) })) ∧
       (∀ e, s.me.stall = some (.epoch e) →
         (e < s.nodeV n → Does (.mbar d a b) s s [] (a != 0 || b != 0) fun _ => True) ∧
         (¬e < s.nodeV n → exec (.mbar d a b) s = .next s)) ∧
       (s.me.os ≠ 0 → (∀ e, s.me.stall ≠ some (.epoch e)) → Stalls (.mbar d a b) s .ownStores)) ∧
     (s.ready [.g d.toNat, .g a.toNat, .g b.toNat] →
       let core := bits x 0 9
       let m : SignalMsg := ⟨s.pkg.arrival, s.tenantOf n, core, bits x 9 3, bits x 16 16, bits (s.me.rg b.toNat) 0 32, n, d.toNat⟩
       (s.pkg.inMap (s.tenantOf n) (core / 8) = true →
         ∃ t, exec (.sigb d a b) s = .next t ∧
           t.me = (s.me.mark [.g d.toNat]).after s 4 (bits x 12 4 != 0 || bits x 32 32 != 0) ∧
           SameRest { s with pkg := { s.pkg with adds := s.pkg.adds ++ [m], arrival := s.pkg.arrival + 1 } } t) ∧
       (s.canTrap n → s.pkg.inMap (s.tenantOf n) (core / 8) = false → Traps (.sigb d a b) s .shelfPerm (word core)) ∧
       let i := bits x 0 3
       let amount := bits (s.me.rg b.toNat) 0 32
       let have_ := (s.pkg.core (coreOf n)).signals.get 0 i
       (have_ < amount → Stalls (.swait d a b) s .signal) ∧
       (amount ≤ have_ →
         Answers (.swait d a b) s ((s.noted 0x1603 (word (have_ - amount))).upd fun p =>
           p.onCore (coreOf n) fun c => { c with signals := c.signals.set 0 i (have_ - amount) }) d.toNat (word (have_ - amount)) false) ∧
       Answers (.rgen d a b) s (s.noted 0x1604 (word (s.pkg.core (bits x 0 9)).rgen)) d.toNat (word (s.pkg.core (bits x 0 9)).rgen) (b != 0)) ∧
     ∀ m, s.pkg.adds.find? (fun y => y.id == m.id) = some m → isSteward m.thread = false →
       let c := s.pkg.core m.core
       let runs := ∃ i, i < 4 ∧ (s.thr (4 * m.core + i)).task.isSome = true
       let fits := c.rgen = m.rgen ∧ s.pkg.inMap m.tenant (m.core / 8) = true
       ∃ t, exec (.signalAdd m.id) s = .next t ∧ (t.thr m.thread).pc = (s.thr m.thread).pc ∧
         (t.thr m.thread).busy = (s.thr m.thread).busy.erase (.g m.d) ∧
         (t.pkg.core m.core).signals.get 0 m.counter =
           (if fits then min (2 ^ 32 - 1) (c.signals.get 0 m.counter + m.amount) else c.signals.get 0 m.counter) ∧
         (m.d ≠ 0 →
           (¬fits → (t.thr m.thread).rg m.d = 2) ∧
           (fits → (s.pkg.bench (m.core / 8)).gated = true → (t.thr m.thread).rg m.d = 1) ∧
           (fits → (s.pkg.bench (m.core / 8)).gated = false → runs → (t.thr m.thread).rg m.d = 0) ∧
           (fits → (s.pkg.bench (m.core / 8)).gated = false → ¬runs → (∃ y ∈ s.pkg.waits, y.1 = m.core) →
             (t.thr m.thread).rg m.d = 1)) ∧
         (∀ k, k ≠ m.thread → t.thr k = s.thr k) ∧ t.pkg.mem = s.pkg.mem ∧ m ∉ t.pkg.adds) ∧
  (∀ (d a b : BitVec 6) (down : Bool) (s : State), s.replaying = false → s.ready [.w d.toNat, .g a.toNat, .g b.toNat] → s.cur < 2048 →
     let i : Instr := if down then .rrotDn d a b else .rrot d a b
     let off := s.me.rg a.toNat
     let len := s.me.rg b.toNat
     let n := s.cur
     let joined := (s.pkg.bench (benchOf n)).rotate
     let mine : RotJoin := ⟨n, down, off.toNat, len.toNat, d.toNat⟩
     let end_ := off.toNat + len.toNat
     let fits := off.toNat % 64 = 0 ∧ len.toNat % 64 = 0 ∧ 64 ≤ len.toNat ∧ len.toNat ≤ 4096 ∧ end_ ≤ 0x5F000 ∧
       (s.me.sup = true ∨ end_ ≤ 0x3800 ∨ 0x8000 ≤ off.toNat)
     let free := s.me.os < 63 ∧ s.shelfStoresOut (coreOf n) = false ∧ ∀ j ∈ joined, coreOf j.thread ≠ coreOf n
     let tile := fun (j : RotJoin) => shelfOf (coreOf j.thread) + j.off
     (fits → free → joined.length < 7 →
       exec i s = .next (((s.upd fun p => p.onBench (benchOf n) fun x => { x with rotate := x.rotate ++ [mine] })).setMe
         { s.me with stall := some .ring, os := s.me.os + 1 })) ∧
     (fits → free → joined.length = 7 → (∀ j ∈ joined, j.down = down ∧ j.len = len.toNat ∧ j.off % 64 = 0 ∧ j.off + j.len ≤ 0x5F000 ∧
         coreOf j.thread / 8 = benchOf n) → ((joined ++ [mine]).map fun j => coreOf j.thread).Nodup →
         (∀ j ∈ joined ++ [mine], ∀ q, (mergeValid s.pkg.ecur (s.thr j.thread).fw (witOf (coreOf j.thread) q)).2 = false) →
       ∃ t new, exec i s = .next t ∧ (t.pkg.bench (benchOf n)).rotate = [] ∧ t.pkg.mem = s.pkg.mem ∧ t.flight = s.flight ++ new ∧
         new.length = 8 ∧
         (∀ j ∈ joined ++ [mine], ∀ k ∈ joined ++ [mine],
           coreOf k.thread = benchOf n * 8 + (coreOf j.thread + if down then 1 else 7) % 8 →
             ∃ y ∈ new, y.thread = j.thread ∧ y.kind = .store (readMem s.pkg.mem (tile k) len.toNat) ∧ y.todo = [] ∧ y.replied = true ∧
               y.acc = (List.range (len.toNat / 64)).map fun m =>
                 (⟨tile j + 64 * m, 64, 64 * m⟩, coreOf j.thread, (s.pkg.seqs.get 0 (coreOf j.thread) + m) % 2 ^ 20, s.pkg.ecur)) ∧
         (∀ j ∈ joined ++ [mine],
           let w := witOf (coreOf j.thread) ((s.pkg.seqs.get 0 (coreOf j.thread) + len.toNat / 64 - 1) % 2 ^ 20)
           (t.thr j.thread).pc = (s.thr j.thread).pc + 4 ∧ (j.w ≠ 0 → (t.thr j.thread).rw j.w = w) ∧
           (t.thr j.thread).fw = (mergeValid s.pkg.ecur (s.thr j.thread).fw w).1 ∧
           (t.thr j.thread).os = (if j.thread = n then s.me.os else (s.thr j.thread).os - 1) ∧
           ∀ m, (t.thr j.thread).rg m = (s.thr j.thread).rg m) ∧
         ∀ m, (∀ j ∈ joined ++ [mine], j.thread ≠ m) → t.thr m = s.thr m) ∧
     (fits → free → joined.length = 7 → (∃ j ∈ joined, j.down ≠ down ∨ j.len ≠ len.toNat) → ((joined ++ [mine]).map (·.thread)).Nodup →
       ∃ t, exec i s = .next t ∧ (t.pkg.bench (benchOf n)).rotate = [] ∧ t.pkg.mem = s.pkg.mem ∧ t.flight = s.flight ∧
         (∀ j ∈ joined ++ [mine], (t.thr j.thread).pc = (s.thr j.thread).pc + 4 ∧ (j.w ≠ 0 → (t.thr j.thread).rw j.w = 0) ∧
           (t.thr j.thread).tstat.getLsbD 7 = true ∧ (t.thr j.thread).fw = (s.thr j.thread).fw ∧
           (t.thr j.thread).os = (if j.thread = n then s.me.os else (s.thr j.thread).os - 1) ∧
           ∀ m, (t.thr j.thread).rg m = (s.thr j.thread).rg m) ∧
         ∀ m, (∀ j ∈ joined ++ [mine], j.thread ≠ m) → t.thr m = s.thr m) ∧
     (s.canTrap n → (∀ j ∈ joined, j.thread ≠ n) →
       let at_ := fun (x : Nat) => word (shelfOf (coreOf n) + x)
       (off.toNat % 64 ≠ 0 → Traps i s .align off) ∧
       (off.toNat % 64 = 0 → len.toNat % 64 ≠ 0 ∨ len.toNat < 64 ∨ 4096 < len.toNat → Traps i s .align len) ∧
       (off.toNat % 64 = 0 → len.toNat % 64 = 0 → 64 ≤ len.toNat → len.toNat ≤ 4096 →
         (s.me.sup = false → off.toNat < 0x8000 → 0x3800 < end_ → Traps i s .shelfPerm (at_ (max off.toNat 0x3800))) ∧
         (0x5F000 < end_ → 0x8000 ≤ off.toNat → Traps i s .shelfPerm (at_ (max off.toNat 0x5F000))))))

/-- R177-R181, R236, R237, R246, R254, R262: the scan cycle and the stamps. `cwait` suspends until cycle C + n, C the cycle at issue and n
between 1 and 65,535, and goes on with WARN where its class is not running; `rdcyc`, `rdhor` and `rdvis` read C, H and V; `hwait` waits until
H exceeds g[a], and answers 0 with WARN where it never could; `tsmin` lowers TS and `tsrd` reads it; `stset` and `pub` write the
smaller of g[b] and TS as the stamp of a region once OS = 0; `stchk` answers the age, and `stchk.x` traps STALE beyond the
limit.

Completes: cwait, rdcyc, hwait, rdhor, rdvis, tsmin, tsrd, stset, stchk, stchkX, pub. -/
def Obligations.CycleAndStamps : Prop :=
  ∀ (d a b : BitVec 6) (s : State), s.replaying = false → s.ready [.g d.toNat, .g a.toNat, .g b.toNat] →
    let x := s.me.rg a.toNat
    let y := s.me.rg b.toNat
    let n := s.cur
    let cyc := fun (k : Nat) => if (s.pkg.cls k).started = true then (s.pkg.cls k).cyc else allOnes
    let H := s.nodeH n
    let V := s.nodeV n
    let waitN := if x.toNat = 0 then 1 else min x.toNat 65535
    let C := (s.pkg.cls s.me.cls).cyc
    let least := if y.toNat < s.me.ts.toNat then y else s.me.ts
    let r := bits x 0 8
    let ten := s.tenantOf n
    let g := s.pkg.region ten r
    let age := if g.kind = 0 ∨ (s.pkg.cls g.cls).started = false then allOnes
      else if ((s.pkg.cls g.cls).cyc - g.stamp).toInt < 0 then 0 else (s.pkg.cls g.cls).cyc - g.stamp
    let bWarn := b != 0 || bits x 8 56 != 0
    let stamped := fun (u : State) => (u.flush 640).upd fun p => (p.nextSeq 640).2.wr (regionAddr ten r + 16) least
    let sleeps := fun (c : Nat) => ∀ k, s.maySuspend k →
      Suspends (.cwait d a b) s k (s.me.pc + 4) 6 ((c + waitN) % 65536) ((c + waitN) % 2 ^ 64) s.pkg
    ((∀ c, s.me.stall ≠ some (.cycle c)) →
      ((s.pkg.cls s.me.cls).started = true → sleeps C.toNat ∧ (∀ why, s.mayPass = some why → Stalls (.cwait d a b) s (.cycle C.toNat))) ∧
      ((s.pkg.cls s.me.cls).started = false → Does (.cwait d a b) s s [] true fun _ => True)) ∧
    (s.me.stall = some (.cycle C.toNat) → (s.pkg.cls s.me.cls).started = true → sleeps C.toNat) ∧
    Answers (.rdcyc d a b) s (s.noted 0x1681 (cyc (bits x 0 3))) d.toNat (cyc (bits x 0 3)) (b != 0) ∧
    (s.me.ts.toNat ≤ x.toNat → Answers (.hwait d a b) s s d.toNat 0 true) ∧
    (x.toNat < s.me.ts.toNat → x.toNat < H → Answers (.hwait d a b) s s d.toNat 1 (b != 0)) ∧
    (x.toNat < s.me.ts.toNat → H ≤ x.toNat → Stalls (.hwait d a b) s .generation) ∧
    Answers (.rdhor d a b) s (s.noted 0x1683 (word H)) d.toNat (word H) (a != 0 || b != 0) ∧
    Answers (.rdvis d a b) s (s.noted 0x1684 (word V)) d.toNat (word V) (a != 0 || b != 0) ∧
    (∃ t, exec (.tsmin d a b) s = .next t ∧ SameRest s t ∧
      t.me = { s.me.after s 4 (d != 0 || b != 0) with ts := if x.toNat < s.me.ts.toNat then x else s.me.ts }) ∧
    Answers (.tsrd d a b) s s d.toNat s.me.ts (a != 0 || b != 0) ∧
    (s.canTrap n → g.kind = 0 → Traps (.stset d a b) s .stale (word r)) ∧
    (s.canTrap n → g.kind = 1 → Traps (.stset d a b) s .xlatPerm (word r)) ∧
    (g.kind ≠ 0 → g.kind ≠ 1 → s.me.os ≠ 0 → Stalls (.stset d a b) s .ownStores) ∧
    (g.kind ≠ 0 → g.kind ≠ 1 → s.me.os = 0 →
      Does (.stset d a b) s (stamped s) [] (d != 0 || bits x 8 56 != 0 || decide (least ≠ y)) fun _ => True) ∧
    Answers (.stchk d a b) s (s.noted 0x1701 age) d.toNat age bWarn ∧
    (age ≠ allOnes → age.toNat ≤ g.limit → Answers (.stchkX d a b) s (s.noted 0x1702 age) d.toNat age bWarn) ∧
    (s.canTrap n → age = allOnes ∨ g.limit < age.toNat →
      ∃ t, exec (.stchkX d a b) s = .next t ∧ Entered (s.me.wg d.toNat age) (t.thr n) .stale s.me.pc (word r) ∧
        SameBut n (s.noted 0x1702 age) t) ∧
    (g.kind ≠ 2 → Answers (.pub d a b) s s d.toNat allOnes true) ∧
    (g.kind = 2 → s.me.os ≠ 0 → Stalls (.pub d a b) s .ownStores) ∧
    (g.kind = 2 → s.me.os = 0 →
      let k := s.pkg.cls g.cls
      Answers (.pub d a b) s ((stamped s).upd fun p => { p with pubs := if p.pubs.contains (ten, r) then p.pubs else (ten, r) :: p.pubs })
        d.toNat (if k.started = false then allOnes else if k.cutDone = some k.cyc.toNat then k.cyc + 1 else k.cyc) (decide (least ≠ y)))

/-! ### Tasks and messages -/

/-- R131, R157, R161-R163, R165, R262, R296, R301, R303, R304: children and joins. `spawn` writes the child's record in the
core's lowest free slot and puts it at the newest end of the hardware deque, or hands it to the thief that waits; with JN it
first counts the child in the join block. `join` takes JWIT at once where COUNT is 0, or writes its record to WAITER and suspends once OL
and OS are 0; that a `join` which runs again holds a block whose WAITER is its own record is the model's choice (log 76), and so is the byte that ctl.tval names where a block is not permitted (log 42).
`yield` writes a READY record to the oldest end of the deque.

R159, R164, R173, R281, R296: `exit`. A task without attached ops ends DONE: its slot is free again, its thread is free, and the
join block of its link has one child less and the merge of its witness. A task with a live attached op suspends until the last
one has ended. A thread without a task, a steward's, goes on: the model's reading (log 12).

Completes: spawn, join, yield, exit. -/
def Obligations.TaskFlow : Prop :=
  (∀ (d a b : BitVec 6) (s : State), s.replaying = false → ∀ k, s.me.task = some k →
     let x := s.me.rg a.toNat
     let c := s.me.rg b.toNat
     let n := s.cur
     let B := (s.me.rx 4).toNat
     let home := fun (y : Nat) => 0x800 + homeOf y
     let ran := fun (y : Word) => y.toNat % 32 = 0 ∧ shelfBase ≤ y.toNat ∧ y.toNat < shelfBase + 0x10000000 ∧
       ∃ ps, s.passes .atomic y 32 32 ps s
     (s.ready [.g a.toNat, .g b.toNat, .x 0, .x 1, .x 2, .x 3, .x 4] →
       let w := d != 0 || bits c 5 59 != 0
       let child : Rec :=
         { fail := false, pre := false, entry := k.entry, bud := k.bud, resume := x.toNat % 2 ^ 48, key := 0, state := 0, gen := k.gen
           dom := bits c 2 2, cls := k.cls, pri := bits c 0 2, job := k.job, stamp := s.me.ts
           link := if c.getLsbD 4 then B else 0, args := [s.me.rx 0, s.me.rx 1, s.me.rx 2, s.me.rx 3] }
       (s.canTrap n → x.getLsbD 0 = true → Traps (.spawn d a b) s .align x) ∧
       (x.getLsbD 0 = false → ∀ slot, s.pkg.freeSlot (coreOf n) = some slot →
         let born := fun (u : State) => u.upd fun p =>
           ((p.takeSlot slot).putRecord slot child).onCore (coreOf n) fun y => { y with spawned := slot :: y.spawned }
         let counted := ((s.served (home B) (1 + s.waitingAt (homeOf B)) n).flush (homeOf B)).upd fun p =>
           ((p.nextSeq (homeOf B)).2.wr B (p.rd B + 1)).wr (B + 8) (p.rd (B + 8))
         let start := if c.getLsbD 4 then counted else s
         (c.getLsbD 4 = true → ran (s.me.rx 4)) →
           (s.pkg.thiefFor (coreOf n) k.tenant child.dom = none →
             Does (.spawn d a b) s ((born start).upd fun p => p.pushNewest (coreOf n) slot) [] w fun _ => True) ∧
           (∀ thief, s.pkg.thiefFor (coreOf n) k.tenant child.dom = some thief →
             Does (.spawn d a b) s
               (((born start).writeLog ⟨0x05, n, 0, word ((s.freeThread thief).getD (4 * thief))⟩).upd fun p =>
                 ((p.onCore (coreOf n) fun y => { y with steals := y.steals.erase thief }).onCore thief fun y => { y with thief := none }).candidate
                   thief slot k.tenant s.tick false true) [] w fun _ => True)) ∧
       (x.getLsbD 0 = false → c.getLsbD 4 = false → s.pkg.freeSlot (coreOf n) = none → (∀ y, s.me.stall ≠ some (.pool y)) →
         Stalls (.spawn d a b) s (.pool s.tick))) ∧
     (s.ready [.w d.toNat, .g a.toNat] →
       let h := homeOf x.toNat
       let idle := ∀ y ∈ s.flight, ∀ e ∈ y.acc, e.2.1 ≠ h
       let jw := s.pkg.rd (x.toNat + 8)
       let marked := s.pkg.wr (x.toNat + 16) (word k.slot)
       let sleeps := fun (p : Pkg) => s.maySuspend k → p.genAt (benchOf n) k.tenant k.job = some k.gen →
         let q := s.parked k s.me.pc 2 0 p
         q.rd x.toNat ≠ 0 → q.rd (x.toNat + 16) = word k.slot → Suspends (.join d a b) s k s.me.pc 2 0 0 p
       (s.me.stall ≠ some (.joining x.toNat) →
         (ran x → idle → s.pkg.rd x.toNat = 0 →
           Does (.join d a b) s (((s.noted 0x1401 1).served (home x.toNat) (1 + s.waitingAt h) n).upd fun p => (p.nextSeq h).2.wr (x.toNat + 8) 0)
             [.w d.toNat] (b != 0) fun t => GotW t d.toNat jw) ∧
         (ran x → idle → s.pkg.rd x.toNat ≠ 0 → s.pkg.rd (x.toNat + 16) = 0 ∨ s.pkg.rd (x.toNat + 16) = word k.slot →
           sleeps marked ∧
           ∀ why, s.mayPass = some why → ∃ t, exec (.join d a b) s = .next t ∧ t.pkg.mem = marked.mem ∧
             t.me = { s.me with stall := some (.joining x.toNat) } ∧ ∀ m, m ≠ n → t.thr m = s.thr m) ∧
         (ran x → idle → s.pkg.rd x.toNat ≠ 0 → s.pkg.rd (x.toNat + 16) ≠ 0 → s.pkg.rd (x.toNat + 16) ≠ word k.slot → Stalls (.join d a b) s .waiters) ∧
         (s.canTrap n → x.toNat % 32 ≠ 0 → Traps (.join d a b) s .align x) ∧
         (s.canTrap n → x.toNat % 32 = 0 → x.toNat < shelfBase ∨ shelfBase + 0x10000000 ≤ x.toNat → Traps (.join d a b) s .xlatPerm x)) ∧
       (s.me.stall = some (.joining x.toNat) → sleeps s.pkg)) ∧
     (s.maySuspend k → s.me.stopDue = false → (s.pkg.core (slotCore k.slot)).memLen = 0 →
       (s.pkg.core (slotCore k.slot)).hwDeque.length < 64 →
       ∃ t, exec (.yield d a b) s = .next t ∧ (t.thr n).task = none ∧ (∀ m, m ≠ n → t.thr m = s.thr m) ∧
         t.pkg.mem = (s.parked k (s.me.pc + 4) 0 0 s.pkg).mem ∧
         (t.pkg.core (slotCore k.slot)).hwDeque = (s.pkg.core (slotCore k.slot)).hwDeque ++ [k.slot] ∧ t.pkg.sleepers = s.pkg.sleepers) ∧
     (∀ why, s.mayPass = some why → Stalls (.yield d a b) s why ∧ Stalls (.exit d a b) s why)) ∧
  (∀ (d a b : BitVec 6) (s : State), s.replaying = false → s.mayPass = none →
     (s.me.task = none → Does (.exit d a b) s s [] (d != 0 || a != 0 || b != 0) fun _ => True) ∧
     ∀ k, s.maySuspend k →
       let done := fun (p : Pkg) => (p.putRecord k.slot { p.record k.slot with state := 8, key := 0 }).mem
       let seen := s.pkg.looked k
       let gone := fun (t : State) => (t.thr s.cur).task = none ∧ (∀ m, m ≠ s.cur → t.thr m = s.thr m) ∧
         (t.pkg.core (slotCore k.slot)).pool = (s.pkg.core (slotCore k.slot)).pool.erase (slotIndex k.slot) ∧
         t.pkg.passes.get 0 s.cur = s.pkg.passes.get 0 s.cur + 1 ∧ ∀ m, (t.thr s.cur).rg m = s.me.rg m
       (s.pkg.holdsLive k.tenant k.slot = true → Suspends (.exit d a b) s k s.me.pc 7 0 0 s.pkg) ∧
       (s.pkg.opsOf k.tenant k.slot = [] → k.slot ≠ 0 → (s.pkg.core (slotCore k.slot)).launches = [] →
         (k.link = 0 → ∃ t, exec (.exit d a b) s = .next t ∧ gone t ∧ t.pkg.mem = done seen) ∧
         (let B := k.link
          let jw := seen.rd (B + 8)
          (∀ y ∈ s.flight, ∀ e ∈ y.acc, e.2.1 ≠ homeOf B) →
          B ≠ 0 → 2 ≤ (seen.rd B).toNat ∨ (seen.rd B = 1 ∧ seen.rd (B + 16) = 0) → validWit jw = true →
          (mergeValid s.pkg.ecur jw s.me.fw).2 = false →
           ∃ t, exec (.exit d a b) s = .next t ∧ gone t ∧
             t.pkg.mem = done ((seen.wr B (seen.rd B - 1)).wr (B + 8) (mergeValid s.pkg.ecur jw s.me.fw).1))))

/-- R149, R159, R166-R170, R262, R293: messages and blocked bits. `send` builds the message with the sender's core and job in
its header, TS and the send word, and posts it while its mailbox has room; it waits where it has none, and `send.try` answers 0.
`recv` suspends on TAG. The blocked-bit forms answer the old bit and set, clear or leave it, and those that write it let the benches that
hold work look again. That they answer 0 where the task table cannot be reached is the model's reading (log 41); the steward hears of it
(R399).

Completes: send, sendTry, recv, tbset, tbclr, tbrd. -/
def Obligations.Messages : Prop :=
  ∀ (d a b : BitVec 6) (s : State), s.replaying = false →
    let n := s.cur
    let v := s.me.rv a.toNat
    let lane := fun (i : Nat) => word (elem 64 v i)
    let h := lane 0
    let dest := bits h 0 9
    let warn := b != 0 || bits h 38 10 != 0 || bits h 48 16 != 0
    let header := (h &&& 0x3FFFFFFFFF#64) ||| word (s.me.job * 2 ^ 48 + coreOf n % 512 * 2 ^ 38)
    let gen := (s.me.task.map (·.gen)).getD 0
    let posted := fun (u : State) => u.upd fun p =>
      p.post1 (s.tenantOf n) s.ticks header s.me.ts (word (gen * 2 ^ 56 + s.ticks % 2 ^ 56)) [lane 3, lane 4, lane 5, lane 6, lane 7] s.me.cls
    let used := s.pkg.occupied dest (bits h 19 2)
    let x := s.me.rg a.toNat
    (s.ready [.g d.toNat, .v a.toNat] →
      (s.canTrap n → s.pkg.inMap (s.tenantOf n) (dest / 8) = false →
        Traps (.send d a b) s .shelfPerm (word dest) ∧ Traps (.sendTry d a b) s .shelfPerm (word dest)) ∧
      (s.pkg.inMap (s.tenantOf n) (dest / 8) = true →
        (used < 15 → Answers (.send d a b) s (posted s) d.toNat 1 warn ∧ Answers (.sendTry d a b) s (posted (s.noted 0x1481 1)) d.toNat 1 warn) ∧
        (used = 15 →
          let waiting := 1 + (s.threads.filter fun y => y.1 != n && y.2.stall == some (.mailbox dest (bits h 19 2))).length +
            (s.pkg.offers.filter fun o => o.msg.dest == dest && o.msg.pri == bits h 19 2).length
          Answers (.send d a b) s (posted (s.served (0x800 + dest) waiting n)) d.toNat 1 warn ∧
          Answers (.sendTry d a b) s (posted ((s.noted 0x1481 1).served (0x800 + dest) waiting n)) d.toNat 1 warn) ∧
        (16 ≤ used → Stalls (.send d a b) s (.mailbox dest (bits h 19 2)) ∧ Answers (.sendTry d a b) s (s.noted 0x1481 0) d.toNat 0 warn))) ∧
    (s.ready [.g a.toNat, .g 1] →
      let g1 := s.me.rg 1
      let core := coreOf n
      let mineShelf := shelfOf core ≤ g1.toNat ∧ g1.toNat + 64 ≤ shelfOf core + 0x5F000
      (s.canTrap n → g1.toNat % 64 ≠ 0 → Traps (.recv d a b) s .align g1) ∧
      (s.canTrap n → g1.toNat % 64 = 0 → ¬mineShelf → Traps (.recv d a b) s .shelfPerm g1) ∧
      (g1.toNat % 64 = 0 → mineShelf → 16 ≤ (s.pkg.core core).waiters.length → Stalls (.recv d a b) s .waiters) ∧
      (g1.toNat % 64 = 0 → mineShelf → (s.pkg.core core).waiters.length < 16 → ∀ k, s.maySuspend k →
        s.pkg.mailFor core (s.tenantOf n) (bits x 0 16) k.job = none → (∀ y ∈ s.flight, ∀ e ∈ y.acc, e.2.1 ≠ core) →
        Suspends (.recv d a b) s k (s.me.pc + 4) 5 (bits x 0 16) (bits x 0 16) s.pkg)) ∧
    (s.ready [.g d.toNat, .g a.toNat] →
      let ten := s.tenantOf n
      let warn := b != 0 || bits x 10 54 != 0
      let va := s.pkg.entryVa ten (bits x 0 10)
      let i := bits x 0 10
      let lost := s.updBy .hub fun p => p.lost (dieOf n) va
      (s.pkg.entryAddr ten i .atomic = none → Answers (.tbset d a b) s lost d.toNat 0 warn ∧ Answers (.tbclr d a b) s lost d.toNat 0 warn) ∧
      (s.pkg.entryAddr ten i .load = none → Answers (.tbrd d a b) s lost d.toNat 0 warn) ∧
      (∀ e, s.pkg.entryAddr ten i .load = some e →
        Answers (.tbrd d a b) s (s.upd fun p => p.used ten va .load) d.toNat (flag ((s.pkg.rd e).getLsbD 61)) warn) ∧
      ∀ e, s.pkg.entryAddr ten i .atomic = some e → (∀ y ∈ s.flight, ∀ p ∈ y.acc, p.2.1 ≠ homeOf e) →
        let w := s.pkg.rd e
        let put := fun (y : Word) => s.upd fun p => (((p.nextSeq (homeOf e)).2.performAs none (e + 7) 1 e 8 y.toNat).stir ten).used ten va .atomic
        Answers (.tbset d a b) s (put (w ||| 0x2000000000000000#64)) d.toNat (flag (w.getLsbD 61)) warn ∧
        Answers (.tbclr d a b) s (put (w &&& ~~~0x2000000000000000#64)) d.toNat (flag (w.getLsbD 61)) warn)

/-- R171-R173, R219, R262, R308: cancel. It writes the job's next generation to the tenant's table, gives it to the issuing task where
it is of that job, leaves each bench of the map with the old one and goes on with g[d] held; with the last bench's acknowledgement, a
CANCEL_BROADCAST, g[d] takes the generation. `ccheck` answers whether the running task's generation is old, and `ccheck.x` then traps
CANCEL.

Completes: cancel, ccheck, ccheckX, cancelBroadcast. -/
def Obligations.Cancel : Prop :=
  ∀ (d a b : BitVec 6) (s : State), s.replaying = false → s.ready [.g d.toNat, .g a.toNat] →
    let n := s.cur
    let ten := s.tenantOf n
    let job := bits (s.me.rg a.toNat) 0 16
    let warn := b != 0 || bits (s.me.rg a.toNat) 16 48 != 0
    (∀ D e old, s.pkg.desc ten = some D → s.pkg.place ten (D.gtbase + job) .store = some e →
      (∀ y ∈ s.flight, ∀ p ∈ y.acc, p.2.1 ≠ homeOf e) → s.pkg.generation ten job = some old → s.pkg.assisted ten 3 = false →
      (∃ c, c < 64 ∧ s.pkg.inMap ten c = true) →
      let G := (old + 1) % 256
      ∃ t, exec (.cancel d a b) s = .next t ∧
        t.pkg.mem = ((s.pkg.perform none e 1 G).used ten (D.gtbase + job) .store).mem ∧
        t.pkg.cancels = s.pkg.cancels ++ [⟨n, d.toNat, ten, job, G⟩] ∧
        t.me = Thread.after { s.me.mark [.g d.toNat] with
          task := s.me.task.map fun (y : Task) => if y.job = job then { y with gen := G } else y } s 4 warn ∧
        (∀ m, m ≠ n → t.thr m = s.thr m) ∧
        (∀ c, c < 64 → s.pkg.inMap ten c = true → (s.pkg.bench c).gens.get 0 (ten * 65536 + job) = 0 →
          t.pkg.genAt c ten job = some old)) ∧
    (∀ (c : Nat) (m : CancelWait), s.pkg.cancels = [m] → m.tenant = ten → m.job = job → c < 64 → s.pkg.inMap ten c = true →
      (s.pkg.bench c).gens.get 0 (ten * 65536 + job) ≠ 0 → (ten, job) ∉ s.pkg.cancelHeld →
      (∀ z ∈ s.pkg.sleepers, z.tenant = ten → (s.pkg.record z.slot).job ≠ job) →
      ∃ t, exec (.cancelBroadcast ten job c) s = .next t ∧ t.pkg.mem = s.pkg.mem ∧ t.pkg.sleepers = s.pkg.sleepers ∧
        t.pkg.genAt c ten job = s.pkg.generation ten job ∧ (∀ i, i ≠ m.thread → t.thr i = s.thr i) ∧
        ((∀ y, y < 64 → y ≠ c → s.pkg.inMap ten y = true → (s.pkg.bench y).gens.get 0 (ten * 65536 + job) = 0) →
          t.pkg.cancels = [] ∧ t.thr m.thread = ((s.thr m.thread).wg m.d (word m.gen)).unmark (.g m.d)) ∧
        ((∃ y, y < 64 ∧ y ≠ c ∧ s.pkg.inMap ten y = true ∧ (s.pkg.bench y).gens.get 0 (ten * 65536 + job) ≠ 0) →
          t.pkg.cancels = [m] ∧ t.thr m.thread = s.thr m.thread)) ∧
    (s.me.task = none → Answers (.ccheck d a b) s s d.toNat 0 (a != 0 || b != 0) ∧ Answers (.ccheckX d a b) s s d.toNat 0 (a != 0 || b != 0)) ∧
    ∀ k g, s.me.task = some k → s.pkg.genAt (benchOf n) k.tenant k.job = some g →
      (g = k.gen →
        Answers (.ccheck d a b) s (s.noted 0x1581 0) d.toNat 0 (a != 0 || b != 0) ∧
        Answers (.ccheckX d a b) s (s.noted 0x1582 0) d.toNat 0 (a != 0 || b != 0)) ∧
      (g ≠ k.gen →
        let seen := fun (u : State) => if k.seen then u else u.writeLog ⟨0x07, n, g * 65536 + k.job, 0⟩
        let knows := { s.me with task := some { k with seen := true } }
        (∃ t, exec (.ccheck d a b) s = .next t ∧ t.me = (knows.wg d.toNat 1).after s 4 (a != 0 || b != 0) ∧
          SameBut n (seen (s.noted 0x1581 1)) t) ∧
        (s.canTrap n → ∃ t, exec (.ccheckX d a b) s = .next t ∧
          Entered (knows.wg d.toNat 1) (t.thr n) .cancel s.me.pc (word k.job) ∧
          SameBut n (seen (s.noted 0x1582 1)) t))

/-! ### Commands and tokens -/

/-- R39, R44, R187-R192, R200-R202, R211, R262: a push. Where the core has a free slot of the engine and room in its FIFO, the
op enters the core's lowest free slot, QUEUED, owned by the running task and under its TS, with the four words of the form; the
command enters the FIFO; OC or OT counts it unless it is detached; and g[d] is its token. Words that break a rule that is judged
at the push leave an op that has ended FAULTED, out of the FIFO. A push without a slot or without room, or while the engines stop (R286),
waits, and `cq.try` answers 0; one with its count at 63 waits. That a detached push waits too at 63 is the model's choice (log 53), and so is which of several
failing conditions is recorded (log 89).

Completes: cq, cqTry, copy, copyRed, copyMc, bwl, bmm, bdr, bclr. -/
def Obligations.Push : Prop :=
  ∀ (d : BitVec 6) (x : BitVec 3) (g : BitVec 6) (q slot : Nat) (det clr raw mode : Bool) (tile rop : Nat) (s : State) (k : Task),
    s.replaying = false → s.me.task = some k → s.cur < 2048 → q < 4 → slot < 8 → tile < 4 → rop < 16 →
    s.ready [.g d.toNat, .g g.toNat, .x x.toNat, .x (x.toNat + 1), .x (x.toNat + 2), .x (x.toNat + 3)] →
    let n := s.cur
    let core := coreOf n
    let X := fun (i : Nat) => s.me.rx (x.toNat + i)
    let count := fun (t : Thread) (beryl : Bool) => if beryl then t.ot else t.oc
    let pushes := fun (i : Instr) (cmd w1 w2 w3 : Word) =>
      let beryl := decide (8 ≤ bits cmd 0 4) && decide (bits cmd 0 4 ≤ 10)
      (count s.me beryl = 63 → Stalls i s .counter) ∧
      (count s.me beryl ≠ 63 → ∀ key, s.pkg.freeOp core beryl = some key → (s.pkg.core core).fifo.length < 16 →
        s.pkg.halting (core / 8) = false →
        let tok := tokenOf cmd k.job (s.pkg.gens.get 1 key) key
        let made := fun (o : Op) => o.cmd = cmd ∧ o.w1 = w1 ∧ o.w2 = w2 ∧ o.w3 = w3 ∧ o.token = tok ∧ o.owner = .task k.tenant k.slot ∧
          o.stamp = s.me.ts ∧ o.thread = some n
        let done := fun (t : State) => GotG t d.toNat tok ∧ t.me.pc = s.me.pc + 4 ∧ (∀ r, r ≠ d.toNat → t.me.rg r = s.me.rg r) ∧
          (∀ y, y ≠ key → t.pkg.op y = s.pkg.op y) ∧ (∀ m, m ≠ n → t.thr m = s.thr m) ∧ t.pkg.mem = s.pkg.mem ∧ t.flight = s.flight
        (pushFault cmd w1 w2 w3 = none →
          ∃ t o, exec i s = .next t ∧ done t ∧ t.pkg.op key = some o ∧ made o ∧ o.state = 0 ∧
            (t.pkg.core core).fifo = (s.pkg.core core).fifo ++ [.op key] ∧
            count t.me beryl = count s.me beryl + (if cmd.getLsbD 8 then 0 else 1)) ∧
        (∀ c r a, pushFault cmd w1 w2 w3 = some (c, r, a) → beryl = true ∨ w3.getLsbD 63 = false →
          (∀ z ∈ s.pkg.sleepers, z.state ≠ 4 ∧ z.state ≠ 7) → Cmd.op key ∉ (s.pkg.core core).fifo →
          (∀ y ∈ s.flight, y.actor = .op key → y.acc = []) →
          ∃ t o, exec i s = .next t ∧ done t ∧ t.pkg.op key = some o ∧ made o ∧ o.state = 5 ∧ o.cause = c ∧ o.reason = r ∧ o.faddr = a ∧
            o.witn = 0 ∧ (t.pkg.core core).fifo = (s.pkg.core core).fifo ∧ count t.me beryl = count s.me beryl))
    let room := fun (beryl : Bool) => (s.pkg.freeOp core beryl).isSome = true ∧ (s.pkg.core core).fifo.length < 16 ∧
      s.pkg.halting (core / 8) = false
    let copyCmd := fun (kind r : Nat) => CmdFields.word { kind := kind, rop := r, det := det, queue := q, pri := k.pri }
    let fmtOf := fun (lo dflt : Nat) (also : List Nat) =>
      if s.me.pp = true ∧ bits s.me.pfx lo 3 ∈ also then bits s.me.pfx lo 3 else dflt
    let planeOf := fun (f : Nat) => if s.me.pp = true ∧ f = 4 then bits s.me.pfx 1 2 else 0
    let N := min (s.me.rg g.toNat).toNat 1023
    let acc := s.me.pp && s.me.pfx.getLsbD 4
    let fa := fmtOf 8 3 [4]
    let fb := fmtOf 5 3 [4]
    let fd := if raw then 0 else fmtOf 8 0 [1, 2, 5]
    pushes (.cq d x) (X 0) (X 1) (X 2) (X 3) ∧
    (room (decide (8 ≤ bits (X 0) 0 4) && decide (bits (X 0) 0 4 ≤ 10)) → (∀ key, s.pkg.freeOp core (decide (8 ≤ bits (X 0) 0 4) && decide (bits (X 0) 0 4 ≤ 10)) = some key → tokenOf (X 0) k.job (s.pkg.gens.get 1 key) key ≠ 0) →
      pushes (.cqTry d x) (X 0) (X 1) (X 2) (X 3)) ∧
    pushes (.copy d x det (BitVec.ofNat 2 q)) (copyCmd 0 0) (X 0) (X 1) (X 2) ∧
    pushes (.copyRed d x det (BitVec.ofNat 2 q) (BitVec.ofNat 4 rop)) (copyCmd 1 rop) (X 0) (X 1) (X 2) ∧
    pushes (.copyMc d x det (BitVec.ofNat 2 q)) (copyCmd 2 0) (X 0) (X 1) (X 2) ∧
    pushes (.bwl d x g (BitVec.ofNat 2 q) (BitVec.ofNat 3 slot) det)
      (CmdFields.word { kind := 8, n := N, slot := slot, fmt := fb, det := det, queue := q, pri := k.pri })
      (X 0) (X 1 + word (1024 * planeOf fb)) (X 2) ∧
    pushes (.bmm d x g (BitVec.ofNat 2 q) (BitVec.ofNat 3 slot) (BitVec.ofNat 2 tile) det)
      (CmdFields.word { kind := 9, n := N, slot := slot, tile := tile, fmt := fa, acc := acc, det := det, queue := q, pri := k.pri })
      (X 0) (X 1 + word (64 * planeOf fa)) (X 2) ∧
    pushes (.bdr d x g (BitVec.ofNat 2 q) clr raw (BitVec.ofNat 2 tile) mode det)
      (CmdFields.word { kind := 10, n := N, tile := tile, fmt := fd, clr := clr, raw := raw, mode := mode, det := det, queue := q, pri := k.pri })
      (X 0) (X 1) (X 2) ∧
    pushes (.bclr d x g (BitVec.ofNat 2 q) clr raw (BitVec.ofNat 2 tile) mode det)
      (CmdFields.word { kind := 10, tile := tile, fmt := fd, clr := clr, raw := raw, only := true, mode := mode, det := det, queue := q, pri := k.pri })
      0 0 0 ∧
    (let beryl := decide (8 ≤ bits (X 0) 0 4) && decide (bits (X 0) 0 4 ≤ 10)
     count s.me beryl ≠ 63 → ¬room beryl →
      Answers (.cqTry d x) s (s.noted 0x1801 0) d.toNat 0 false ∧
      ((∀ y z, s.me.stall ≠ some (.fifo y z)) → Stalls (.cq d x) s (.fifo s.tick (if beryl then 1 else 0))))

/-- R183-R185, R190, R205-R208, R262: the token instructions. Each checks its token by the order of R184. The waits answer STATE
and WITN of an ended op, which its owner reaps: its slot is free and its generation one on; `twait` of a live one suspends and
`twait.s` stalls. `tpoll` reads state, DET and PRI; `tcancel` answers what it did; `tdet` and `tadopt` change owner and DET,
`tpri` the priority; `tfrec` reads the fault record; `qfence` enters its fence in the FIFO. What `tcancel` of a running op
answers and when is the model's choice (log 50). R286: an op whose engine is stopped is named by its token too, and a cancel ends it at its
PROG (the model's reading, log 93).

Completes: twait, twaitS, tpoll, tcancel, tdet, tadopt, tpri, tfrec, qfence. -/
def Obligations.Tokens : Prop :=
  ∀ (d a b : BitVec 6) (s : State), s.replaying = false → s.cur < 2048 → s.ready [.g d.toNat, .g a.toNat, .g b.toNat, .w b.toNat] →
    let tok := s.me.rg a.toNat
    let n := s.cur
    let bWarn := b != 0
    let formed := bits tok 59 5 = 0 ∧ bits tok 22 2 = 0 ∧ bits tok 12 4 < 2 ∧ bits tok 0 12 < (if bits tok 12 4 = 0 then 768 else 64) ∧
      bits tok 24 16 ≠ 0
    let mapped := s.pkg.inMap (s.tenantOf n) (bits tok 16 6) = true
    let own := bits tok 40 16 = s.me.job
    let slot := bits tok 16 6 * 1024 + if bits tok 12 4 = 0 then bits tok 0 12 else 768 + bits tok 0 12
    let key := s.pkg.opKey (s.tenantOf n) slot
    let fresh := s.pkg.gens.get 1 slot = bits tok 24 16
    let all := [Instr.twait d a b, .twaitS d a b, .tpoll d a b, .tcancel d a b, .tdet d a b, .tadopt d a b, .tpri d a b, .tfrec d a b]
    let live := fun (o : Op) => o.state < 4
    let mine := fun (o : Op) => ∃ k, s.me.task = some k ∧ o.owner = .task k.tenant k.slot
    let reaped := (s.served (engineSite key) 1 n).upd fun p => p.reap key
    let waited := fun (o : Op) (t : State) => GotG t d.toNat (word o.state) ∧ GotW t b.toNat o.witn
    let polled := fun (o : Op) => word (o.state + (if o.cmd.getLsbD 8 then 8 else 0) + 16 * bits o.cmd 6 2)
    let cmdBits := fun (u : State) (f : Word → Word) => u.upd fun p => p.onOp key fun o => { o with cmd := f o.cmd }
    (s.canTrap n → ∀ i ∈ all,
      (¬formed → Traps i s (.token 4) tok) ∧ (formed → ¬mapped → Traps i s .shelfPerm tok) ∧
      (formed → mapped → ¬own → Traps i s (.token 3) tok)) ∧
    (formed → mapped → own → ¬fresh ∨ s.pkg.tokenOp key = none →
      (s.canTrap n → ∀ i ∈ [Instr.twait d a b, .twaitS d a b, .tfrec d a b], Traps i s (.token 1) tok) ∧
      Answers (.tpoll d a b) s (s.noted 0x1A82 7) d.toNat 7 bWarn ∧
      (s.me.stall ≠ some .token → Answers (.tcancel d a b) s (s.noted 0x1B00 0) d.toNat 0 bWarn) ∧
      Answers (.tdet d a b) s (s.noted 0x1B01 0) d.toNat 0 bWarn ∧
      Answers (.tadopt d a b) s (s.noted 0x1B02 0) d.toNat 0 bWarn ∧
      Answers (.tpri d a b) s (s.noted 0x1B03 0) d.toNat 0 false) ∧
    (formed → mapped → own → fresh → ∀ o, s.pkg.tokenOp key = some o →
      (¬live o →
        (mine o → Does (.twait d a b) s reaped [.g d.toNat, .w b.toNat] false (waited o) ∧
          Does (.twaitS d a b) s reaped [.g d.toNat, .w b.toNat] false (waited o) ∧
          (isOut key = false → reaped.pkg.op key = none ∧ reaped.pkg.gens.get 1 key = if bits tok 24 16 = 65535 then 1 else bits tok 24 16 + 1)) ∧
        (¬mine o → Does (.twait d a b) s s [.g d.toNat, .w b.toNat] false (waited o) ∧
          Does (.twaitS d a b) s s [.g d.toNat, .w b.toNat] false (waited o)) ∧
        (s.me.stall ≠ some .token → Answers (.tcancel d a b) s (s.noted 0x1B00 0) d.toNat 0 bWarn) ∧
        (s.me.stall = some .token → Answers (.tcancel d a b) s s d.toNat 2 bWarn) ∧
        Answers (.tpri d a b) s (s.noted 0x1B03 0) d.toNat 0 false) ∧
      (live o →
        (∀ k, s.maySuspend k → Suspends (.twait d a b) s k s.me.pc 4 (bits tok 0 16) key s.pkg) ∧
        Stalls (.twaitS d a b) s .token ∧
        (s.me.stall = some .token → exec (.tcancel d a b) s = .next s) ∧
        (s.me.stall ≠ some .token →
          (o.state ≤ 1 → o.homes = [] → o.claim = none → o.w3.getLsbD 63 = false ∨ isCopy key = false → mine o →
            (∀ z ∈ s.pkg.sleepers, z.state ≠ 4 ∧ z.state ≠ 7) → (∀ y ∈ s.flight, y.actor = .op key → y.acc = []) →
            ∃ t u, exec (.tcancel d a b) s = .next t ∧ GotG t d.toNat 1 ∧ t.me.pc = s.me.pc + 4 ∧ t.pkg.op key = some u ∧ u.state = 6 ∧
              u.cause = 0x0F ∧ u.witn = 0 ∧ u.token = o.token ∧ t.pkg.mem = s.pkg.mem) ∧
          (isOut key = true → 2 ≤ o.state → o.homes = [] → o.claim = none → o.w3.getLsbD 63 = false ∨ isCopy key = false → mine o →
            (isCopy key = true ∨ o.state = 3) → (∀ z ∈ s.pkg.sleepers, z.state ≠ 4 ∧ z.state ≠ 7) →
            (∀ y ∈ s.flight, y.actor = .op key → y.acc = []) →
            ∃ t u, exec (.tcancel d a b) s = .next t ∧ GotG t d.toNat 2 ∧ t.me.pc = s.me.pc + 4 ∧ t.pkg.op key = some u ∧ u.state = 6 ∧
              u.cause = 0x0F ∧ u.prog = o.prog ∧ t.pkg.mem = s.pkg.mem) ∧
          (isOut key = false → 2 ≤ o.state → isCopy key = true → o.finished = false ∨ o.stopping = true →
            exec (.tcancel d a b) s = .next (((s.noted 0x1B00 2).updBy (.op key) fun p => p.onOp key fun o => { o with stopping := true }).setMe
              { s.me with stall := some .token })) ∧
          (isOut key = false → o.state = 2 → isCopy key = false → Answers (.tcancel d a b) s (s.noted 0x1B00 3) d.toNat 3 bWarn)) ∧
        (let v := setBits tok 57 2 (bits (s.me.rg b.toNat) 0 2)
         Answers (.tpri d a b) s (cmdBits (s.noted 0x1B03 v) fun c => setBits c 6 2 (bits (s.me.rg b.toNat) 0 2)) d.toNat v false)) ∧
      Answers (.tpoll d a b) s (s.noted 0x1A82 (polled o)) d.toNat (polled o) bWarn ∧
      (¬mine o → Answers (.tdet d a b) s (s.noted 0x1B01 0) d.toNat 0 bWarn) ∧
      (mine o →
        let v := tok ||| 0x100000000000000#64
        (o.counted = false ∨ o.thread = none →
          Answers (.tdet d a b) s ((s.noted 0x1B01 v).upd fun p => p.onOp key fun o => { o with cmd := o.cmd ||| 0x100#64, counted := false })
            d.toNat v bWarn) ∧
        (o.counted = true → o.thread = some n →
          ∃ t u, exec (.tdet d a b) s = .next t ∧ GotG t d.toNat v ∧ t.me.pc = s.me.pc + 4 ∧ t.pkg.op key = some u ∧
            u.cmd = o.cmd ||| 0x100#64 ∧ u.counted = false ∧ u.owner = o.owner ∧
            (if isCopy key then t.me.oc = s.me.oc - 1 ∧ t.me.ot = s.me.ot else t.me.ot = s.me.ot - 1 ∧ t.me.oc = s.me.oc))) ∧
      (let at_ := s.served (engineSite key) 1 n
       let v := tok &&& ~~~0x100000000000000#64
       let free := o.cmd.getLsbD 8 = true ∧ ((∃ y z, o.owner = .task y z) ∨ ∃ y, o.owner = .tenant y)
       (¬free → Answers (.tadopt d a b) s (at_.noted 0x1B02 0) d.toNat 0 bWarn) ∧
       (free → ∀ k, s.me.task = some k →
         Answers (.tadopt d a b) s ((at_.noted 0x1B02 v).upd fun p => p.onOp key fun o =>
           { o with owner := .task k.tenant k.slot, cmd := o.cmd &&& ~~~0x100#64, counted := false }) d.toNat v bWarn)) ∧
      let status := word (o.prog * 2 ^ 32 + o.flags * 2 ^ 20 + o.state * 2 ^ 16 + o.reason * 256 + o.cause)
      let rec_ := fun (v : Word) => Answers (.tfrec d a b) s (s.noted 0x1B81 v) d.toNat v false
      (b = 0 → rec_ status) ∧ (b = 1 → rec_ o.faddr) ∧ (b = 2 → ¬live o → rec_ o.witn) ∧ (b = 3 → rec_ o.token)) ∧
    (let mask := bits tok 0 8
     let w := d != 0 || b != 0 || bits tok 8 56 != 0
     (mask = 0 → Does (.qfence d a b) s s [] true fun _ => True) ∧
     (mask ≠ 0 → (s.pkg.core (coreOf n)).fifo.length < 16 →
       Does (.qfence d a b) s (s.upd fun p => p.onCore (coreOf n) fun c => { c with fifo := c.fifo ++ [.fence mask n] }) [] w fun _ => True) ∧
     (mask ≠ 0 → 16 ≤ (s.pkg.core (coreOf n)).fifo.length → (∀ y z, s.me.stall ≠ some (.fifo y z)) →
       Stalls (.qfence d a b) s (.fifo s.tick 2)))

/-! ### Engines -/

/-- R191, R204, R205, R211, R279, R280: COMMAND_ENQUEUE. The oldest command of a core's FIFO enters its queue. A copy joins the
core's queue of its number; a Beryl op joins the bench's, an ARB step, and asks for leave when it needs it and stands at the
head; a fence marks the queues it names and holds what comes after behind the commands that are ahead.

R191, R296, R346: a push, or a spawn, that has waited 2^20 ticks takes ENGINE_STARVED, with TVAL the drawer that the core's
oldest waiting copy waits on, 0 for a Beryl push, or the address of the core's first record slot. One that has not waited as
long goes on waiting, and so does one that has room by now, and a fence. That an op which a stop of its engine found SUSPENDED before its
start stands QUEUED, or in LEAVE, in its queue again is R286's.

Completes: commandEnqueue, engineStarved, spawnStarved. -/
def Obligations.EnqueueAndStarved : Prop :=
  (∀ (core k : Nat) (rest : List Cmd) (s : State), s.replaying = false → (s.pkg.bench (core / 8)).halting = none → k < 65536 →
     let b := core / 8
     let Q := fun (u : State) (q : Nat) => (u.pkg.core core).queues.get [] q
     let B := fun (u : State) (q : Nat) => (u.pkg.bench b).bqueues.get [] q
     let moved := fun (t : State) => (t.pkg.core core).fifo = rest ∧ t.pkg.mem = s.pkg.mem ∧ t.threads = s.threads ∧ t.flight = s.flight
     ((s.pkg.core core).fifo = .op k :: rest → ∀ o, s.pkg.op k = some o →
       (isCopy k = true → s.pkg.berylHeads b = [] →
         ∃ t, exec (.commandEnqueue core) s = .next t ∧ moved t ∧ Q t o.queue = Q s o.queue ++ [.op k] ∧
           (∀ q, q ≠ o.queue → Q t q = Q s q) ∧ t.pair = s.pair ∧
           t.pkg.op k = some { o with place := 1, state := if o.state = 3 ∧ o.stopped = false then (if o.kind = 9 then 1 else 0) else o.state }) ∧
       (isCopy k = false →
         ∃ t u, exec (.commandEnqueue core) s = .next t ∧ moved t ∧ B t o.queue = B s o.queue ++ [.op k] ∧
           (∀ q, q ≠ o.queue → B t q = B s q) ∧ t.pkg.op k = some u ∧ u.place = 1 ∧
           t.pair = (s.served (0x1000 + b) (s.pkg.entering b (2 ^ o.queue)) (0x10000 + k)).pair ∧
           ((∀ q, B s q = []) → o.behind = [] → o.state = 0 → o.kind ≤ 9 → o.leaveHeld = 0 → o.leaveAsked = none →
             u.state = 1 ∧ u.leaveAsked = some s.pkg.arrival))) ∧
     (∀ mask n, mask < 256 → (s.pkg.core core).fifo = .fence mask n :: rest →
       ∃ t, exec (.commandEnqueue core) s = .next t ∧ moved t ∧
         t.pkg.fences.get [] s.pkg.fenceN = s.pkg.aheadOf core mask ∧ t.pkg.fenceN = s.pkg.fenceN + 1 ∧ t.pkg.ops = s.pkg.ops ∧
         (∀ q, q < 4 → Q t q = if mask.testBit q then Q s q ++ [.marker s.pkg.fenceN] else Q s q) ∧
         (∀ q, q < 4 → B t q = if mask.testBit (4 + q) then B s q ++ [.marker s.pkg.fenceN] else B s q) ∧
         t.pair = (if mask < 16 then s else s.served (0x1000 + b) (s.pkg.entering b (mask / 16)) n).pair)) ∧
  (∀ (n : Nat) (s : State),
     let traps := fun (i : Instr) (tval : Word) =>
       ∃ t, exec i s = .next t ∧ Entered (s.thr n) (t.thr n) .starved (s.thr n).pc tval ∧ SameBut n s t
     (∀ since e, (s.thr n).stall = some (.fifo since e) →
       let blocked := s.pkg.freeOp (coreOf n) (e == 1) = none ∨ 16 ≤ (s.pkg.core (coreOf n)).fifo.length ∨
         s.pkg.halting (coreOf n / 8) = true
       (s.canTrap n → since + 2 ^ 20 ≤ s.tick → e ≠ 2 → blocked →
         traps (.engineStarved n) (if e = 0 then s.pkg.starvedOn (coreOf n) else 0)) ∧
       (s.tick < since + 2 ^ 20 ∨ e = 2 ∨ ¬blocked → exec (.engineStarved n) s = .next s)) ∧
     (∀ since, (s.thr n).stall = some (.pool since) →
       (s.canTrap n → since + 2 ^ 20 ≤ s.tick → s.pkg.freeSlot (coreOf n) = none →
         traps (.spawnStarved n) (word (shelfOf (coreOf n) + 0x4000))) ∧
       (s.tick < since + 2 ^ 20 ∨ s.pkg.freeSlot (coreOf n) ≠ none → exec (.spawnStarved n) s = .next s)))

/-- R131, R137, R186, R191-R199, R202-R204, R290, R296, R383: the steps of an op. Its descriptor read, a copy holds its plan, with the
destinations of its list or the drawer it claims from, and asks for leave from 64 KiB on; a descriptor that breaks R193 ends it FAULTED.
The governor grants the first request that fits its limit, in the order of PRI, then arrival. An engine starts its ready head of the lowest
PRI, and a drawer copy claims the slot at TAIL then, or later where it had to wait. A chunk reads its elements, and their homes accept the
writes of every destination, each line with its next number, and perform them before the copy goes on; of a reducing copy they are left
for the homes to apply. With its last chunk done a copy is finished, and a cancel stops it at the end of a chunk.

A finished op ends DONE, or CANCELLED, with its witness: of three homes or more an epoch witness. It posts the slot it claimed, adds its
signal (a target that is not there makes it FAULTED), wakes who waits on its token, and is reaped where no task owns it: a join block gets
its witness, the tenant's orphan handler a message.

The model's own: FADDR 0 of a misaligned stride and BAD_DESC of a misaligned descriptor address (log 48), the order of causes (log 89), PROG
of a chunk whose writes are accepted (log 107).

Completes: copyDescRead, leaveGrant, opStart, copyChunk, copyClaimResume, opEnd. -/
def Obligations.OpSteps : Prop :=
  ∀ (k : Nat) (s : State), s.replaying = false → k < 65536 → (s.pkg.bench (opBench k)).halting = none → ∀ o, s.pkg.op k = some o →
    let b := opBench k
    let pri := fun (j : Nat) => ((s.pkg.op j).map (·.pri)).getD 4
    let reaches := fun (i : Instr) (P : State → Op → Prop) => ∃ t u, exec i s = .next t ∧ t.pkg.op k = some u ∧ P t u
    let still := fun (t : State) => t.threads = s.threads ∧ t.flight = s.flight
    let noWrites := ∀ y ∈ s.flight, y.actor = .op k → y.acc = []
    let noSignal := isCopy k = false ∨ o.w3.getLsbD 63 = false
    let noWaiters := ∀ z ∈ s.pkg.sleepers, z.state ≠ 4 ∧ z.state ≠ 7
    let taskOwned := ∃ x y, o.owner = .task x y
    let plain := o.claim = none ∧ o.homes.length ≤ 2 ∧ noSignal ∧ taskOwned ∧ noWaiters ∧ noWrites
    let W := homesWit s.pkg.ecur o.homes
    let faults := fun (i : Instr) (c r : Nat) (a : Word) (v : State) =>
      reaches i fun t u => u.state = 5 ∧ u.cause = c ∧ u.reason = r ∧ u.faddr = a ∧ u.witn = W ∧ t.pkg.mem = v.pkg.mem
    let found := fun (v : State) (xs : List (Use × Word × Nat)) (as : List Nat) (ls : List (Leaf × Use)) =>
      v.engineFind k o xs = .ok as ls ∧ v.pkg.errorAt xs as = none ∧ ∀ a ∈ as, isForeign a = false
    let used := fun (v : State) (ls : List (Leaf × Use)) (n : Nat) => { v.useOp k o ls with free := v.free + n }
    let inside := fun (c : CopyPlan) (D : Drawer) => c.count = 0 ∨ (0 ≤ c.span.1 ∧ c.span.2 + c.esz ≤ (D.size * 64 : Int))
    let claimed := fun (a : Nat) (D : Drawer) =>
      (s.pkg.putDrawer a { D with tail := (D.tail + 1) % D.slots, free := D.free - 1, claimed := D.claimed + 1 }).mem
    (isCopy k = true → o.place = 1 → o.state = 0 → o.descRead = false → s.pkg.isHead k = true → s.satisfied (s.pkg.bench b).nodeV o.w2 = true →
      (o.w1.toNat % 64 ≠ 0 → plain → faults (.copyDescRead k) 0x01 6 0 s) ∧
      (o.w1.toNat % 64 = 0 → ∀ as ls, found s (wordReads o.w1 8) as ls →
        let hd := as.map fun a => word (readMem s.pkg.mem a 8)
        let dctl := hd.getD 2 0
        let v := used s ls 8
        let m := 2 * (bits dctl 0 4 + 1)
        (badDesc o.kind (bits o.cmd 22 4) hd = true → plain → faults (.copyDescRead k) 0x01 6 0 v) ∧
        (badDesc o.kind (bits o.cmd 22 4) hd = false → ∀ bs ms, found v (wordReads (o.w1 + 64) m) bs ms →
          let w := used v ms m
          let dst := hd.getD 1 0
          let c : CopyPlan := { src := hd.getD 0 0, esz := 2 ^ bits dctl 4 3, drawer := none
                                dims := dimsOf ((hd ++ bs.map fun a => word (readMem v.pkg.mem a 8)).drop 8), bases := [dst] }
          let plans := fun (c : CopyPlan) (w : State) =>
            (c.misaligned = none → reaches (.copyDescRead k) fun t u =>
              still t ∧ t.pkg.mem = w.pkg.mem ∧ u.descRead = true ∧ u.plan = some c ∧
                u.state = (if 65536 ≤ c.count * c.esz * c.bases.length then 1 else 0) ∧
                u.leaveAsked = if 65536 ≤ c.count * c.esz * c.bases.length then some s.pkg.arrival else o.leaveAsked) ∧
            (∀ a, c.misaligned = some a → plain → faults (.copyDescRead k) 0x03 0 a w)
          let off := (dst.toNat - shelfBase) % 0x80000
          let inDesc := shelfBase ≤ dst.toNat ∧ dst.toNat < shelfBase + 0x10000000 ∧ 0x5F000 ≤ off ∧ off < 0x60000 ∧
            w.pkg.inMap o.tenant ((dst.toNat - shelfBase) / 0x80000 / 8) = true
          let D := w.pkg.drawer dst.toNat
          (o.kind ≠ 2 → dctl.getLsbD 8 = false → plans c w) ∧
          (o.kind = 2 → dst.toNat % 8 = 0 → ∀ ds ns, found w (wordReads dst (bits dctl 16 6 + 1)) ds ns →
            plans { c with bases := ds.map fun a => word (readMem w.pkg.mem a 8) } (used w ns (bits dctl 16 6 + 1))) ∧
          (o.kind = 2 → dst.toNat % 8 ≠ 0 → plain → faults (.copyDescRead k) 0x03 0 dst w) ∧
          (o.kind ≠ 2 → dctl.getLsbD 8 = true →
            (dst.toNat % 64 ≠ 0 → plain → faults (.copyDescRead k) 0x03 0 dst w) ∧
            (dst.toNat % 64 = 0 → ¬inDesc → plain → faults (.copyDescRead k) 0x06 0 dst w) ∧
            (dst.toNat % 64 = 0 → inDesc → ¬inside c D → plain → faults (.copyDescRead k) 0x01 6 0 w) ∧
            (dst.toNat % 64 = 0 → inDesc → inside c D → plans { c with drawer := some dst.toNat, bases := [0] } w))))) ∧
    (∀ n, o.leaveAsked = some n → (∀ i, i < 16 → s.pkg.settleHeads (16 * (b / 16) + i) = s.pkg) →
      let g := s.pkg.pgov.get pgovReset (b / 16)
      let fits := fun (d pri : Nat) =>
        let limit := if pri = 0 then bits g 16 12 else bits g 16 12 - bits g 28 12
        bits g 40 12 + d ≤ limit ∨ (limit < d ∧ bits g 40 12 = 0)
      let demand := if o.kind = 9 then o.n / 16 else if o.kind = 8 then 8 else 4
      let asked := s.pkg.requests (b / 16)
      (k, o.pri, n, demand) ∈ asked → fits demand o.pri →
      (∀ x ∈ asked, x.2.2.1 < n → o.pri < x.2.1) →
      (∀ x ∈ asked, x ≠ (k, o.pri, n, demand) → fits x.2.2.2 x.2.1 → (∀ y ∈ asked, y.2.2.1 < x.2.2.1 → x.2.1 < y.2.1) →
        o.pri < x.2.1 ∨ (o.pri = x.2.1 ∧ n < x.2.2.1)) →
      reaches (.leaveGrant (b / 16)) fun t u => still t ∧ t.pkg.mem = s.pkg.mem ∧ u = { o with leaveAsked := none, leaveHeld := demand } ∧
        bits (t.pkg.pgov.get pgovReset (b / 16)) 40 12 = (bits g 40 12 + demand) % 2 ^ 12 ∧
        bits (t.pkg.pgov.get pgovReset (b / 16)) 0 40 = bits g 0 40) ∧
    (s.pkg.settleHeads b = s.pkg →
      let begun := { o with state := 2, place := 2, leaveAsked := none, stopped := false }
      (isCopy k = true → k ∈ (s.pkg.copyHeads b).filter s.pkg.ready →
        (∀ j ∈ (s.pkg.copyHeads b).filter s.pkg.ready, j = k ∨ pri k < pri j) →
        let left := fun (t : State) => .op k ∉ (t.pkg.core (opCore k)).queues.get [] o.queue
        ((∀ c, o.plan = some c → c.drawer = none) →
          reaches (.opStart b 0) fun t u => still t ∧ t.pkg.mem = s.pkg.mem ∧ t.pair = s.pair ∧ u = begun ∧ left t) ∧
        (∀ c a, o.plan = some c → c.drawer = some a → o.claim = none →
          let D := s.pkg.drawer a
          D.en = true → inside c D → D.free ≠ 0 →
          reaches (.opStart b 0) fun t u => still t ∧ t.pkg.mem = claimed a D ∧ left t ∧
            t.pair = (s.served (0x800 + homeOf a) (1 + s.waitingAt (homeOf a)) (0x10000 + k)).pair ∧
            u = { begun with claim := some a, plan := some { c with bases := [word (D.base + D.tail * D.size * 64)] } })) ∧
      (isCopy k = false → (s.pkg.berylHeads b).filter s.pkg.ready = [k] →
        let tile := (s.pkg.bench b).tiles.get Tile.init o.tile
        (o.kind = 8 ∨ (o.kind = 9 ∧ tile.f32 = o.cmd.getLsbD 9) ∨ (o.kind = 10 ∧ (o.cmd.getLsbD 20 = false ∨ rawMisaligned o tile = none)) →
          reaches (.opStart b 1) fun t u => still t ∧ t.pkg.mem = s.pkg.mem ∧ t.pair = s.pair ∧
            u = begun ∧ .op k ∉ (t.pkg.bench b).bqueues.get [] o.queue) ∧
        (o.kind = 9 → tile.f32 ≠ o.cmd.getLsbD 9 → plain → faults (.opStart b 1) 0x01 8 0 s) ∧
        (∀ a, o.kind = 10 → o.cmd.getLsbD 20 = true → rawMisaligned o tile = some a → plain → faults (.opStart b 1) 0x03 0 a s))) ∧
    (∀ c, isCopy k = true → o.plan = some c → o.place = 2 → o.state = 2 → o.finished = false → o.stopped = false → o.chunks = [] →
      (s.writesOut k = false → o.stopping = false → c.chunks ≤ o.prog →
        exec (.copyChunk k) s = .next (s.updBy (.op k) fun p => p.onOp k fun o => { o with finished := true })) ∧
      (s.writesOut k = false → o.stopping = true → o.issued ≤ o.prog →
        exec (.copyChunk k) s = .next ((s.writeLog ⟨0x0B, engineSite k, k % 1024, word o.prog⟩).updBy (.op k) fun p =>
          p.onOp k fun o => { o with finished := true })) ∧
      (∀ y a n h q e x, s.flight = [y] → y.thread = 0x10000 + k → y.kind = .store x → y.todo = [] → y.replied = true →
        y.acc = [(⟨a, n, 0⟩, h, q, e)] → isForeign a = false → s.pkg.plainAt a →
        ∃ t, exec (.copyChunk k) s = .next t ∧ t.flight = [] ∧ t.threads = s.threads ∧ t.pkg.ops = s.pkg.ops ∧
          readMem t.pkg.mem a n = x % 2 ^ (8 * n) ∧ ∀ z, z < a ∨ a + n ≤ z → t.pkg.mem.get 0 z = s.pkg.mem.get 0 z) ∧
      (s.writesOut k = false → o.stopping = false → o.prog < c.chunks → c.drawer = none ∨ o.claim ≠ none → c.bases ≠ [] → s.copyTurn k o = true →
        s.releaseRoom 0 = true → ∀ as ls, found s (c.accesses (o.kind == 1) o.prog) as ls →
        let v := s.useOp k o ls
        let B := c.bases.length
        let m := min 64 (c.count - 64 * o.prog)
        let S := fun (j : Nat) => as.getD (j * (B + 1)) 0
        let D := fun (j i : Nat) => as.getD (j * (B + 1) + 1 + i) 0
        let dsts := (List.range m).flatMap fun j => (List.range B).map (D j)
        let lines := (dsts.map (· / 64)).eraseDups
        let number := fun (l : Nat) =>
          let q := s.pkg.seqs.get 0 (homeOf (64 * l))
          let i := ((lines.takeWhile (· ≠ l)).filter fun x => homeOf (64 * x) = homeOf (64 * l)).length
          if i = 0 then q else (q + i) % 2 ^ 20
        let apart := (∀ a ∈ dsts, v.pkg.plainAt a) ∧
          ∀ j i d, j < m → i < j → d < B → D i d + c.esz ≤ S j ∨ S j + c.esz ≤ D i d
        (o.kind ≠ 1 → reaches (.copyChunk k) fun t u => u.prog = o.prog + 1 ∧ t.pkg.mem = v.pkg.mem ∧ t.threads = s.threads ∧
          ∃ y, t.flight = s.flight ++ [y] ∧ y.thread = 0x10000 + k ∧ y.todo = [] ∧ y.replied = true ∧ y.stamp = o.stamp ∧
            (∀ x ∈ y.acc, x.1.addr ∈ dsts ∧ x.1.len = c.esz ∧ x.2.1 = homeOf x.1.addr ∧ x.2.2.2 = s.pkg.ecur) ∧
            (dsts.Nodup → (∀ x ∈ y.acc, x.2.2.1 = number (x.1.addr / 64)) ∧
              u.homes = lines.foldl (fun hs l => addHome (homeOf (64 * l)) (number l) hs) o.homes) ∧
            (apart → ∀ j i, j < m → i < B → (∀ j' i', j' < m → i' < B → j < j' ∨ (j = j' ∧ i < i') → D j' i' ≠ D j i) →
              ∃ x ∈ y.acc, x.1.addr = D j i ∧ y.partData x.1 = readMem v.pkg.mem (S j) c.esz)) ∧
        (o.kind = 1 → reaches (.copyChunk k) fun t u => u.prog = o.prog ∧ t.pkg.mem = v.pkg.mem ∧ still t ∧
          ∃ y, u.chunks = [y] ∧ y.chunk = o.prog ∧ y.lines = lines ∧ y.retry = [] ∧ y.acked = [] ∧ y.elems.map (·.1) = dsts ∧
            (apart → B = 1 → ∀ j, j < m → y.elems[j]? = some (D j 0, readMem v.pkg.mem (S j) c.esz))))) ∧
    (∀ c a, o.plan = some c → c.drawer = some a → o.state = 3 → o.place = 2 → o.claim = none → o.pageReq = none → o.stopping = false →
      let D := s.pkg.drawer a
      (D.en = true → inside c D → D.free ≠ 0 →
        reaches (.copyClaimResume k) fun t u => still t ∧ u.state = 2 ∧ u.claim = some a ∧
          u.plan = some { c with bases := [word (D.base + D.tail * D.size * 64)] } ∧ t.pkg.mem = claimed a D) ∧
      (D.en = true → ¬inside c D → plain → faults (.copyClaimResume k) 0x01 6 0 s) ∧
      (D.en = false → plain → faults (.copyClaimResume k) 0x06 0 (word a) s)) ∧
    (o.state < 4 → o.finished = true → noWrites →
      let st := if isCopy k && o.stopping then 6 else 4
      let ends := fun (P : State → Op → Prop) => reaches (.opEnd k) fun t u =>
        u.state = st ∧ u.cause = (if st = 6 then 0x0F else 0) ∧ u.reason = 0 ∧ u.faddr = o.faddr ∧ u.leaveHeld = 0 ∧ P t u
      let reaped := fun (P : State → Prop) => ∃ t, exec (.opEnd k) s = .next t ∧ t.pkg.op k = none ∧
        t.pkg.gens.get 1 k = (if s.pkg.gens.get 1 k = 65535 then 1 else s.pkg.gens.get 1 k + 1) ∧ P t
      (plain → ends fun t u => u.witn = W ∧ t.pkg.mem = s.pkg.mem ∧
        ∀ n, o.thread = some n → o.counted = true →
          (t.thr n).oc = (if isCopy k then (s.thr n).oc - 1 else (s.thr n).oc) ∧ (t.thr n).ot = if isCopy k then (s.thr n).ot else (s.thr n).ot - 1) ∧
      (3 ≤ o.homes.length → o.claim = none → noSignal → taskOwned → noWaiters →
        ends fun t u => u.witn = epochWit s.pkg.ecur ∧ t.pair = (s.dated (engineSite k)).pair ∧ t.pkg.mem = s.pkg.mem) ∧
      (∀ a, o.claim = some a → o.posted = false → o.homes.length ≤ 2 → noSignal → taskOwned → s.pkg.sleepers = [] →
        let D := s.pkg.drawer a
        D.claimed ≠ 0 →
        ends fun t u => u.witn = W ∧ u.posted = true ∧
          t.pair = (s.served (0x800 + homeOf a) (1 + s.waitingAt (homeOf a)) (0x10000 + k)).pair ∧
          t.pkg.mem = (s.pkg.putDrawer a { D with claimed := D.claimed - 1, filled := D.filled + 1 }).mem ∧
          t.pkg.slotWits.get 0 (slotWitKey a ((D.tail + D.slots - D.claimed % D.slots) % D.slots)) = W) ∧
      (isCopy k = true → o.w3.getLsbD 63 = true → o.kind ≤ 2 → o.claim = none → o.homes.length ≤ 2 → taskOwned → noWaiters →
        let core := bits o.w3 0 9
        let ctr := bits o.w3 9 3
        let gone := fun (c r : Nat) => reaches (.opEnd k) fun t u => u.state = 5 ∧ u.cause = c ∧ u.reason = r ∧ u.faddr = 0 ∧ u.witn = W ∧
          t.pkg.mem = s.pkg.mem
        (s.pkg.inMap o.tenant (core / 8) = true → (s.pkg.core core).rgen = bits o.w3 16 16 →
          ends fun t u => u.witn = W ∧ (t.pkg.core core).signals.get 0 ctr = min (2 ^ 32 - 1) ((s.pkg.core core).signals.get 0 ctr + 1)) ∧
        (s.pkg.inMap o.tenant (core / 8) = false → gone 0x06 0) ∧
        (s.pkg.inMap o.tenant (core / 8) = true → (s.pkg.core core).rgen ≠ bits o.w3 16 16 → gone 0x0C 2)) ∧
      (∀ z, s.pkg.sleepers = [z] → z.state = 4 → z.key = k → z.tenant = o.tenant → o.claim = none → o.homes.length ≤ 2 → noSignal → taskOwned →
        let r := s.pkg.record z.slot
        r.state ≠ 10 → r.bud = false → (s.pkg.useGen (slotCore z.slot / 8) z.tenant r.job).outdated z.tenant z.slot = false →
        ends fun t u => u.witn = W ∧ t.pkg.sleepers = [] ∧
          (∃ y ∈ (t.pkg.core (slotCore z.slot)).ready, y.slot = z.slot ∧ y.tenant = z.tenant) ∧
          t.pkg.mem = ((s.pkg.useGen (slotCore z.slot / 8) z.tenant r.job).putRecord z.slot { r with state := 0, key := 0 }).mem) ∧
      (o.claim = none → o.homes.length ≤ 2 → noSignal → noWaiters →
        (o.owner = .gone → reaped fun t => t.pkg.mem = s.pkg.mem ∧ t.pair = (s.served (engineSite k) 1 (0x10000 + k)).pair) ∧
        (∀ ten, o.owner = .tenant ten →
          (s.pkg.entryOf ten 1023 = none → reaped fun t => t.pkg.mem = s.pkg.mem ∧ t.pkg.orphans.get 0 ten = s.pkg.orphans.get 0 ten + 1) ∧
          (∀ e, s.pkg.entryOf ten 1023 = some e →
            let h := word (o.job * 2 ^ 48 + opCore k * 2 ^ 38 + e.pri * 2 ^ 19 + 1023 * 2 ^ 9 + e.home)
            s.pkg.occupied (bits h 0 9) (bits h 19 2) < 15 →
            reaped fun t => t.pkg.mem = s.pkg.mem ∧ ∃ y, t.pkg.messages = s.pkg.messages ++ [y] ∧ y.tenant = ten ∧ y.header = h ∧
              y.stamp = o.stamp ∧ y.pay = [o.token, word (o.prog * 2 ^ 32 + o.flags * 2 ^ 20 + st * 2 ^ 16 + (if st = 6 then 0x0F else 0)),
                o.faddr, W, o.token])) ∧
        (∀ ten B, o.owner = .block ten B →
          let jw := s.pkg.rd (B + 8)
          (∀ y ∈ s.flight, ∀ e ∈ y.acc, e.2.1 ≠ homeOf B) → 2 ≤ (s.pkg.rd B).toNat ∨ (s.pkg.rd B = 1 ∧ s.pkg.rd (B + 16) = 0) →
          validWit jw = true → (mergeValid s.pkg.ecur jw W).2 = false →
          reaped fun t => t.pkg.mem = ((s.pkg.wr B (s.pkg.rd B - 1)).wr (B + 8) (mergeValid s.pkg.ecur jw W).1).mem)))

/-- R71-R77, R200-R202, R275, R286, R289-R291: the work of Beryl ops and of reducing copies. The rows of A enter the buffer of a
multiply one by one; BERYL_OP_COMPLETE loads one weight column, adds both blocks of a multiply to the tile, has the homes accept one row of a
drain and perform it, ends a drain, with E of a RAW W48 tile at EXP, or clears. PROG of a finished multiply is 2, as R272's table shows, and
that of a clear stays: the model's reading (log 49).

R71-R73: a block of a multiply adds to each element the exact sum of its 32 products, scaled by the two scale bytes. A W48 tile takes the
least exponent from its own on at which every sum, rounded to nearest even, has 48 bits; if none up to 127 does, the sums are clamped at
127. An F32 tile adds the exact product sum with one rounding.

A reducing chunk is applied at the home of each of its lines once, and its record answers a repeat; a chunk acknowledged everywhere
closes in order. The order in which elements of one address are read and applied is the model's choice (log 62).

Completes: opStart, berylOpComplete, reduceApply, applyRetry, chunkClose. -/
def Obligations.EngineWork : Prop :=
  ∀ (k : Nat) (s : State), s.replaying = false → k < 65536 → (s.pkg.bench (opBench k)).halting = none → ∀ o, s.pkg.op k = some o →
    let b := opBench k
    let Bn := s.pkg.bench b
    let reaches := fun (i : Instr) (P : State → Op → Prop) =>
      ∃ t u, exec i s = .next t ∧ t.pkg.op k = some u ∧ t.threads = s.threads ∧ t.flight = s.flight ∧ P t u
    let q4 := bits o.cmd 10 3 == 4
    let found := fun (v : State) (j : Nat) (as : List Nat) (ls : List (Leaf × Use)) =>
      let xs := operandReads q4 o.w1 o.w2 o.w3 j
      v.engineFind k o xs = .ok as ls ∧ v.pkg.errorAt xs as = none ∧ ∀ a ∈ as, isForeign a = false
    (let v := s.updBy .hub fun p => p.settleHeads b
     isCopy k = false → v.pkg.op k = some o → (v.pkg.berylHeads b).filter v.pkg.ready = [] → v.pkg.nextReader b = some k →
      ∀ as ls, found v o.rows.length as ls →
        reaches (.opStart b 1) fun t u => u = { o with rows := o.rows ++ [v.kvecOf q4 as] } ∧ t.pkg.mem = (v.useOp k o ls).pkg.mem) ∧
    (isCopy k = false → o.place = 2 → o.state = 2 → o.finished = false → o.stopped = false → s.writesOut k = true →
      exec (.berylOpComplete k) s = .next (s.flushOf (.op k))) ∧
    (isCopy k = false → o.place = 2 → o.state = 2 → o.finished = false → o.stopped = false → s.writesOut k = false →
      (o.kind = 10 → o.cmd.getLsbD 18 = false → s.releaseRoom 0 = true →
        let T := Bn.tiles.get Tile.init o.tile
        let raw := o.cmd.getLsbD 20
        let fmt := bits o.cmd 10 3
        let z := if raw then (if T.f32 then 4 else 8) else if fmt = 1 ∨ fmt = 2 then 2 else 4
        let m := fun (j : Nat) => T.elems.get 0 (512 * o.prog + j)
        let exact := fun (j : Nat) => if T.f32 then f32.value (m j).toNat else .fin (decide (m j < 0)) (m j).natAbs T.e
        let val := fun (j : Nat) =>
          if raw then (if T.f32 then ((m j).toNat, 0) else (ofSigned 64 (m j), 0))
          else if fmt = 1 then bf16.ofVal 0 (exact j)
          else if fmt = 2 then f16.ofVal 0 (exact j)
          else if fmt = 5 then (ofSigned 32 (toInt 0 (-(2 ^ 31)) (2 ^ 31 - 1) (exact j)).1, (toInt 0 (-(2 ^ 31)) (2 ^ 31 - 1) (exact j)).2)
          else if T.f32 then ((m j).toNat, 0)
          else f32.ofVal 0 (exact j)
        let flags := (List.range o.n).foldl (fun f j => f ||| statusFlags (val j).2) 0
        let writes := fun (xs : List (Word × Nat)) (n : Nat) (P : State → Op → Access → Prop) =>
          ∀ as ls, s.engineFind k o (xs.map fun x => (.store, x.1, n)) = .ok as ls → (∀ a ∈ as, isForeign a = false) →
            ∃ t u y, exec (.berylOpComplete k) s = .next t ∧ t.pkg.op k = some u ∧ t.threads = s.threads ∧ t.flight = s.flight ++ [y] ∧
              t.pkg.mem = (s.useOp k o ls).pkg.mem ∧ y.thread = 0x10000 + k ∧ y.todo = [] ∧ y.replied = true ∧
              y.acc.map (fun x => (x.1.addr, x.1.len, x.2.1)) = as.map (fun a => (a, n, homeOf a)) ∧
              (∀ i x, y.acc[i]? = some x → y.partData x.1 = (xs.getD i (0, 0)).2 % 2 ^ (8 * n)) ∧ P t u y
        (o.prog < 32 → o.n ≠ 0 →
          writes ((List.range o.n).map fun j => (o.w1 + word o.prog * o.w2 + word (j * z), (val j).1)) z fun _ u _ =>
            u.prog = o.prog + 1 ∧ u.flags = o.flags ||| flags ∧ u.finished = false) ∧
        (o.prog = 32 → raw = true → T.f32 = false →
          writes [(o.w3, ofSigned 64 T.e)] 8 fun t u _ => u.prog = 32 ∧ u.flags = o.flags ∧ u.finished = true ∧
            (t.pkg.bench b).tiles.get Tile.init o.tile = if o.cmd.getLsbD 19 then ⟨o.cmd.getLsbD 21, -128, []⟩ else T)) ∧
      (o.kind = 8 → ∀ as ls, found s o.prog as ls →
        reaches (.berylOpComplete k) fun t u => u = { o with prog := o.prog + 1, finished := decide (o.n ≤ o.prog + 1) } ∧
          t.pkg.mem = (s.useOp k o ls).pkg.mem ∧
          (t.pkg.bench b).wslots.get ⟨[], []⟩ o.slot = (Bn.wslots.get ⟨[], []⟩ o.slot).load o.prog (s.kvecOf q4 as) ∧
          o.slot ∈ (t.pkg.bench b).wdirty) ∧
      (o.kind = 9 →
        let r := Bn.multiply o o.rows
        reaches (.berylOpComplete k) fun t u => u = { o with prog := 2, flags := o.flags ||| r.2, finished := true, rows := [] } ∧
          t.pkg.mem = s.pkg.mem ∧ t.pkg.bench b = r.1) ∧
      (o.kind = 10 → o.cmd.getLsbD 18 = true →
        reaches (.berylOpComplete k) fun t u => u = { o with finished := true } ∧ t.pkg.mem = s.pkg.mem ∧
          (t.pkg.bench b).tiles.get Tile.init o.tile = ⟨o.cmd.getLsbD 21, -128, []⟩) ∧
      (o.kind = 10 → o.cmd.getLsbD 18 = false → o.prog = 32 → o.cmd.getLsbD 20 = false ∨ (Bn.tiles.get Tile.init o.tile).f32 = true →
        reaches (.berylOpComplete k) fun t u => u = { o with finished := true } ∧ t.pkg.mem = s.pkg.mem ∧
          (t.pkg.bench b).tiles.get Tile.init o.tile =
            if o.cmd.getLsbD 19 then ⟨o.cmd.getLsbD 21, -128, []⟩ else Bn.tiles.get Tile.init o.tile)) ∧
    (∀ (rows : List KVec), o.n ≤ 512 →
      let T := Bn.tiles.get Tile.init o.tile
      let w := Bn.wslots.get ⟨[], []⟩ o.slot
      let r := Bn.multiply o rows
      let U := r.1.tiles.get Tile.init o.tile
      let row := fun (i : Nat) => rows.getD i ⟨[], 0, 0⟩
      let prod := fun (c i j : Nat) =>
        ((List.range 32).map fun x => (row i).vals.getD (32 * c + x) 0 * w.cells.get 0 (64 * j + 32 * c + x)).sum
      let scale := fun (c i j : Nat) => (if c = 0 then (row i).e0 else (row i).e1 : Int) + w.exps.get 0 (2 * j + c) - 64
      let at_ := fun (X : Tile) (i j : Nat) => X.elems.get 0 (512 * i + j)
      let stepW48 := fun (X Y : Tile) (c fl : Nat) (moved clamped : Bool) =>
        let lo := min (-128) X.e
        let sum := fun (i j : Nat) => at_ X i j * 2 ^ (X.e - lo).toNat + if j < o.n then prod c i j * 2 ^ (scale c i j - lo).toNat else 0
        let near := fun (v m e : Int) =>
          let unit : Int := 2 ^ (e - lo).toNat
          2 * (v - m * unit).natAbs ≤ unit ∧ (2 * (v - m * unit).natAbs = unit → m % 2 = 0)
        let fits := fun (e : Int) => ∀ i j, i < 32 → j < 512 → ∃ m, near (sum i j) m e ∧ -(2 ^ 47) ≤ m ∧ m < 2 ^ 47
        Y.f32 = false ∧
        (∀ e, X.e ≤ e → e ≤ 127 → fits e → (∀ f, X.e ≤ f → f < e → ¬fits f) →
          Y.e = e ∧ (∀ i j, i < 32 → j < 512 → near (sum i j) (at_ Y i j) e) ∧ (moved = true ↔ e ≠ X.e) ∧ clamped = false ∧
            ((fl = 1 ∧ ∃ i j, i < 32 ∧ j < 512 ∧ sum i j ≠ at_ Y i j * 2 ^ (e - lo).toNat) ∨
              (fl = 0 ∧ ∀ i j, i < 32 → j < 512 → sum i j = at_ Y i j * 2 ^ (e - lo).toNat))) ∧
        ((∀ e, X.e ≤ e → e ≤ 127 → ¬fits e) →
          Y.e = 127 ∧ fl = 3 ∧ moved = true ∧ clamped = true ∧
            ∀ i j, i < 32 → j < 512 → ∃ m, near (sum i j) m 127 ∧ at_ Y i j = max (-(2 ^ 47)) (min (2 ^ 47 - 1) m))
      let stepF32 := fun (X Y : Tile) (c fl : Nat) =>
        let sum := fun (i j : Nat) =>
          f32.add 0 (f32.value (at_ X i j).toNat) (.fin (decide (prod c i j < 0)) (prod c i j).natAbs (scale c i j))
        Y.f32 = true ∧ (∀ i j, i < 32 → j < o.n → at_ Y i j = (sum i j).1) ∧ (∀ i j, i < 32 → o.n ≤ j → j < 512 → at_ Y i j = at_ X i j) ∧
          ∀ x, fl.testBit x = true ↔ ∃ i j, i < 32 ∧ j < o.n ∧ (statusFlags (sum i j).2).testBit x = true
      (T.f32 = false → ∃ M f0 f1 m0 m1 c0 c1, stepW48 T M 0 f0 m0 c0 ∧ stepW48 M U 1 f1 m1 c1 ∧ r.2 = f0 ||| f1 ∧
        r.1.renorm = (Bn.renorm + m0.toNat + m1.toNat) % 2 ^ 32 ∧ r.1.clamp = (Bn.clamp + c0.toNat + c1.toNat) % 2 ^ 16) ∧
      (T.f32 = true → ∃ M f0 f1, stepF32 T M 0 f0 ∧ stepF32 M U 1 f1 ∧ r.2 = f0 ||| f1 ∧ r.1.renorm = Bn.renorm ∧ r.1.clamp = Bn.clamp) ∧
      (∀ x, x ≠ o.tile → r.1.tiles.get Tile.init x = Bn.tiles.get Tile.init x) ∧ r.1.wslots = Bn.wslots) ∧
    (∀ c line, o.chunks.find? (fun c => c.lines.contains line) = some c →
      let h := homeOf (64 * line)
      let known := s.pkg.applied.find? fun r => r.1 == s.pkg.identity k && r.2.1 == c.chunk && r.2.2.1 == line
      let acked := fun (q : Nat) => o.chunks.map fun y =>
        if y.chunk = c.chunk then { y with lines := y.lines.erase line, acked := y.acked ++ [(h, q)] } else y
      let retried := o.chunks.map fun y => if y.chunk = c.chunk then { y with lines := y.lines.erase line, retry := y.retry ++ [line] } else y
      (∀ r, known = some r → reaches (.reduceApply k line) fun t u =>
        u = { o with chunks := acked r.2.2.2.1 } ∧ t.pkg.mem = s.pkg.mem ∧ t.pkg.applied = s.pkg.applied) ∧
      (known = none → s.pkg.recordSpace h k c.chunk = none → reaches (.reduceApply k line) fun t u =>
        u = { o with chunks := retried } ∧ t.pkg.mem = s.pkg.mem ∧ t.pkg.applied = s.pkg.applied) ∧
      (known = none → ∀ part, s.pkg.recordSpace h k c.chunk = some part → ∀ a x, c.elems.filter (fun e => e.1 / 64 == line) = [(a, x)] →
        (∀ y ∈ s.flight, ∀ z ∈ y.acc, z.2.1 ≠ h) → s.pkg.plainAt a →
        let z := 2 ^ ropSize (bits o.cmd 22 4)
        a % 64 + z ≤ 64 →
        let r := reduceNew (bits o.cmd 22 4) (readMem s.pkg.mem a z) x
        let q := s.pkg.seqs.get 0 h
        reaches (.reduceApply k line) fun t u => u = { o with chunks := acked q, flags := o.flags ||| statusFlags r.2 } ∧
          readMem t.pkg.mem a z = r.1 % 2 ^ (8 * z) ∧ (∀ y, y < a ∨ a + z ≤ y → t.pkg.mem.get 0 y = s.pkg.mem.get 0 y) ∧
          t.pkg.applied = (s.pkg.identity k, c.chunk, line, q, part) :: s.pkg.applied ∧
          t.pair = (s.served (0x800 + h) (s.waitingAt h) (0x10000 + k)).pair)) ∧
    (∀ line, exec (.applyRetry k line) s = .next (s.updBy (.op k) fun p => p.onOp k fun o =>
      { o with chunks := o.chunks.map fun c =>
          if line ∈ c.retry then { c with retry := c.retry.erase line, lines := c.lines ++ [line] } else c })) ∧
    (∀ c rest, o.chunks = c :: rest → c.lines = [] → c.retry = [] →
      reaches (.chunkClose k) fun t u => u.prog = o.prog + 1 ∧ u.chunks = rest ∧ t.pkg.mem = s.pkg.mem ∧
        ∀ r ∈ t.pkg.applied, r.1 = s.pkg.identity k → r.2.1 ≠ c.chunk) ∧
    (∀ c rest, o.chunks = c :: rest → c.lines ≠ [] ∨ c.retry ≠ [] → exec (.chunkClose k) s = .next s)

/-! ### Dispatch and messages -/

/-- R159, R160, R167, R173, R262, R297, R299, R301, R302, R304: THREAD_DISPATCH and CANDIDATE_FORWARD. The lowest free thread of
a core takes the first candidate of R301's order. A record starts with the registers of R297 and its state RUNNING; a record of
an older generation ends as cancelled; a message makes a record of its entry in the core's lowest free slot, with the payload
and the header in the registers. A woken record that has waited 256 ticks at a core without a free thread goes to a free core of its
domain on whose bench its job is not stopped, a DISPATCH entry.

R303, R309, R372: the steps of a thief and ageing. A core idle for 32 ticks asks the cores of `victimsOf` in its tenant's map, one after another:
the request waits at its victim, of which eight may wait; it goes to the next after 2,048 ticks, and after the last one the thief
waits 4,096 ticks and starts again. A thief that has work withdraws. A candidate of rank 3 is aged after 2^16 ticks.

That a dispatch with no tie writes no DISPATCH entry is the model's reading (log 25).

Completes: threadDispatch, candidateForward, thiefStart, stealRequest, stealWithdraw, thiefBackoffEnd, candidateAgeing. -/
def Obligations.DispatchAndStealing : Prop :=
  (∀ (core n t : Nat) (s : State), s.replaying = false → (s.pkg.bench (core / 8)).tenant = some t →
     (s.tenantRuns t = false → exec (.threadDispatch core) s = .next s) ∧ (s.tenantRuns t = true →
     let b := core / 8
     let quiet := fun (m : Nat) => (s.pkg.bench (benchOf m)).trctl.getLsbD 63 = false ∧ (s.pkg.bench (benchOf m)).tbuf = []
     let started := fun (u : State) (m pc slot job gen : Nat) (stamp : Word) (gs : List Word) =>
       let T := u.thr m
       T.pc = word pc ∧ T.tstat = 0 ∧ T.prog = 0 ∧ T.ts = stamp ∧ T.fw = 0 ∧ T.ol = 0 ∧ T.os = 0 ∧ T.oc = 0 ∧ T.ot = 0 ∧ T.busy = [] ∧
         (∀ i, T.rg (i + 1) = gs.getD i 0) ∧ (∀ i, T.rv i = 0) ∧ (∀ i, i ≠ 0 → T.rk i = 0) ∧ (∀ i, T.rw i = 0) ∧ (∀ i, T.rx i = 0) ∧
         (∃ k, T.task = some k ∧ k.tenant = t ∧ k.slot = slot ∧ k.job = job ∧ k.gen = gen ∧ k.seen = false) ∧
         ∀ y, y ≠ m → u.thr y = s.thr y
     let seen := fun (job : Nat) => s.pkg.used t (s.pkg.genAddr t job) .load
     let runs := fun (i : Instr) (m slot : Nat) (P : State → Prop) =>
       let r := s.pkg.record slot
       let p := seen r.job
       quiet m → r.pre = false → s.pkg.genAt (benchOf m) t r.job = some r.gen → p.record slot = r →
         ∃ u, exec i s = .next u ∧ started u m r.resume slot r.job r.gen r.stamp r.args ∧
           u.pkg.mem = (p.putRecord slot { r with state := 1, key := 0 }).mem ∧ P u
     let cs := s.pkg.candidates core
     (∀ l x, firstOf l = some x → x ∈ l ∧ ∀ y ∈ l, keyLess y.key x.key = false) ∧
     (s.freeThread core = some n → ∀ x, firstOf cs = some x → tied cs x = false →
       (∀ r, x.pick = .ready r → runs (.threadDispatch core) n r.slot fun u =>
         (u.pkg.core core).ready = (s.pkg.core core).ready.erase r ∧ u.pair = s.pair) ∧
       (∀ slot rest, x.pick = .deque slot → (s.pkg.core core).hwDeque = slot :: rest → runs (.threadDispatch core) n slot fun u =>
         (u.pkg.core core).hwDeque = rest ∧ u.pair = s.pair) ∧
       (∀ r g, x.pick = .ready r → (let R := s.pkg.record r.slot
         s.pkg.genAt b t R.job = some g → g ≠ R.gen → R.link = 0 → r.slot ≠ 0 → s.pkg.opsOf t r.slot = [] →
         (s.pkg.core (slotCore r.slot)).launches = [] → (seen R.job).record r.slot = R →
           ∃ u, exec (.threadDispatch core) s = .next u ∧ u.threads = s.threads ∧
             u.pkg.mem = ((seen R.job).putRecord r.slot { R with state := 9, key := 0 }).mem ∧
             (u.pkg.core (slotCore r.slot)).pool = (s.pkg.core (slotCore r.slot)).pool.erase (slotIndex r.slot) ∧
             u.pair.log = ⟨0x07, n, g * 65536 + R.job, 2⟩ :: s.pair.log)) ∧
       (∀ m e slot, x.pick = .message m → s.pkg.oldMessage m = false → s.pkg.entryOf t m.entry = some e → s.pkg.freeSlot core = some slot →
         quiet n → s.pkg.genAt b t m.job = some m.gen →
         ∃ u, exec (.threadDispatch core) s = .next u ∧ started u n e.addr slot m.job m.gen m.stamp (m.pay ++ [m.header]) ∧
           (u.pkg.core core).mail.get [] m.pri = ((s.pkg.core core).mail.get [] m.pri).filter fun y => y.id != m.id)) ∧
     (s.freeThread core = none ∨ firstOf cs = none → exec (.threadDispatch core) s = .next s) ∧
     (∀ thief r key since, s.freeThread core = none → s.freeThread thief = some n → thief ≠ core →
       let v := s.pkg.bench (thief / 8)
       v.gated = false → v.switching = false → v.tenant = some t → s.pkg.candidates thief = [] →
       cs = [⟨key, since, .ready r⟩] → r.handed = false → max since (s.pkg.core core).started + 256 ≤ s.tick →
       stealLevel core thief ≤ (let d := (s.pkg.record r.slot).dom; if d = 3 then 2 else d) →
       s.pkg.jobStopped (thief / 8) t (s.pkg.record r.slot).job = false →
       runs (.candidateForward core r.slot thief) n r.slot fun u =>
         (u.pkg.core core).ready = (s.pkg.core core).ready.erase r ∧ u.pair.log = ⟨0x04, n, 0, word r.slot⟩ :: s.pair.log))) ∧
  (∀ (c : Nat) (s : State),
     let ok := fun (v : Nat) => (s.pkg.bench (v / 8)).gated = false ∧
       ∃ t, (s.pkg.bench (c / 8)).tenant = some t ∧ s.pkg.inMap t (v / 8) = true
     let still := fun (u : State) => u.threads = s.threads ∧ u.pkg.mem = s.pkg.mem ∧ u.pair = s.pair
     let asks := fun (i : Instr) (vs : List Nat) => ∃ u, exec i s = .next u ∧ still u ∧
       (∀ pre v rest, vs = pre ++ v :: rest → (∀ y ∈ pre, ¬ok y) → ok v → (u.pkg.core c).thief = some ⟨rest, some v, false, s.tick⟩) ∧
       ((∀ y ∈ vs, ¬ok y) → (u.pkg.core c).thief = some ⟨[], none, true, s.tick⟩)
     ((s.pkg.core c).thief = none → s.idleCore c = true → ∃ u, exec (.thiefStart c) s = .next u ∧ still u ∧
       (u.pkg.core c).thief = some ⟨victimsOf c, none, false, s.tick⟩) ∧
     (∀ f, (s.pkg.core c).thief = some f → f.asked = none → f.backoff = false →
       (s.idleCore c = true → s.tick < f.since + 32 → exec (.thiefStart c) s = .next s) ∧
       (s.idleCore c = true → f.since + 32 ≤ s.tick → asks (.thiefStart c) f.victims) ∧
       (s.idleCore c = false → ∃ u, exec (.thiefStart c) s = .next u ∧ still u ∧ (u.pkg.core c).thief = none)) ∧
     (c < 512 → ∀ i, i < 7 → (victimsOf c).getD i 0 = c / 8 * 8 + (c % 8 + 1 + i) % 8) ∧
     (c < 512 → ∀ v, v ∈ victimsOf c ↔ v < 512 ∧ v ≠ c) ∧
     (∀ f v, (s.pkg.core c).thief = some f → f.asked = some v →
       let ws := (s.pkg.core v).steals
       (c ∉ ws → ws.length < 8 → (s.pkg.bench (v / 8)).switching = false → ok v →
         ∃ u, exec (.stealRequest c) s = .next u ∧ still u ∧ (u.pkg.core v).steals = ws ++ [c] ∧
           (u.pkg.core c).thief = some { f with since := s.tick }) ∧
       (c ∉ ws → 8 ≤ ws.length ∨ (s.pkg.bench (v / 8)).switching = true ∨ ¬ok v → asks (.stealRequest c) f.victims) ∧
       (c ∈ ws → exec (.stealRequest c) s = .next s) ∧
       (s.idleCore c = true → s.tick < f.since + 2048 ∨ c ∉ ws → exec (.stealWithdraw c) s = .next s) ∧
       (s.idleCore c = true → f.since + 2048 ≤ s.tick → c ∈ ws → asks (.stealWithdraw c) f.victims) ∧
       (s.idleCore c = false → ∃ u, exec (.stealWithdraw c) s = .next u ∧ still u ∧ (u.pkg.core c).thief = none ∧
         (u.pkg.core v).steals = ws.erase c)) ∧
     (∀ f, (s.pkg.core c).thief = some f → f.backoff = true →
       (s.idleCore c = true → s.tick < f.since + 4096 → exec (.thiefBackoffEnd c) s = .next s) ∧
       (s.idleCore c = true → f.since + 4096 ≤ s.tick → asks (.thiefBackoffEnd c) (victimsOf c)) ∧
       (s.idleCore c = false → ∃ u, exec (.thiefBackoffEnd c) s = .next u ∧ still u ∧ (u.pkg.core c).thief = none)) ∧
     (∀ slot, ∃ u, exec (.candidateAgeing c slot) s = .next u ∧ still u ∧
       (u.pkg.core c).ready = (s.pkg.core c).ready.map (fun x => if x.slot = slot ∧ x.since + 65536 ≤ s.tick then { x with aged := true } else x) ∧
       (∀ i, i ≠ 0 → (u.pkg.core c).mail.get [] i = ((s.pkg.core c).mail.get [] i).map fun m =>
         if m.id = slot ∧ m.came + 65536 ≤ s.tick then { m with aged := true } else m)))

/-- R209, R262, R344, R347, R350, R352, R353, R376, R388, R389: what takes a task off its thread or breaks in on it. TASK_FAIL
ends a task that is parked on a double fault, or that has S = 1 for 10 µs after a pre-emption was due, as FAILED, with a failure message
to the orphan handler, whose acceptance frees the slot; PREEMPT saves the context and leaves a READY record with PRE = 1, a STOP entry;
INTERRUPT enters INT with the source as TVAL; a doorbell and a notice make one pending; an idle that reaches its limit answers 0, or 1
where an interrupt is pending by then; a sample goes to the trace buffer once the sample period has passed. The model's own: that TF is
clear after TASK_FAIL (log 20), the SRC of the failure message (log 43), a doorbell as a HOSTIN entry (log 26), the core at which a
pre-empted record is ready (log 22), and which stalls an interrupt breaks (log 19).

Completes: taskFail, preempt, interrupt, hostDoorbell, stewardNotice, idleTimeout, traceSample. -/
def Obligations.BreakIn : Prop :=
  ∀ (n : Nat) (s : State), s.replaying = false →
    let x := s.thr n
    let others := fun (u : State) => ∀ m, m ≠ n → u.thr m = s.thr m
    let noWrites := ∀ y ∈ s.flight, y.actor = .thread n → y.acc = []
    (∀ k c, x.task = some k → noWrites →
      (x.park = some .doubleFault ∧ s.onyx.dbgOpen = false ∧ c = 0x10) ∨
        (x.park ≠ some .doubleFault ∧ x.park ≠ some .debugger ∧ x.preemptDue = true ∧ x.sup = true ∧ x.dueAt + 16000 ≤ s.tick ∧ c = 0x0E) →
      x.ol = 0 → s.storesOwed n = 0 → s.pkg.opsOf k.tenant k.slot = [] → k.link = 0 → k.slot ≠ 0 → (s.pkg.core (slotCore k.slot)).launches = [] →
      let R := s.pkg.record k.slot
      let q := s.pkg.endRecord k.tenant k.slot 10
      let pool := fun (u : State) => (u.pkg.core (slotCore k.slot)).pool
      let freed := fun (u : State) => pool u = (pool s).erase (slotIndex k.slot)
      let failed := fun (u : State) => exec (.taskFail n) s = .next u ∧ (u.thr n).task = none ∧ (u.thr n).tf = false ∧
        (u.thr n).park = none ∧ others u ∧ u.pkg.mem = (s.pkg.putRecord k.slot { R with state := 10, key := 0 }).mem
      (q.entryOf k.tenant 1023 = none → ∃ u, failed u ∧ freed u ∧ u.pkg.failures = s.pkg.failures + 1 ∧ u.pkg.messages = s.pkg.messages) ∧
      (∀ e, q.entryOf k.tenant 1023 = some e →
        let header := headerOf R.job (slotCore k.slot) 1 false e.pri 1023 e.home
        let tells := fun (m : Message) => m.tenant = k.tenant ∧ m.header = header ∧ m.stamp = R.stamp ∧
          m.pay = [word k.slot, word c, x.epc, x.cause2, x.tval2]
        let used := s.pkg.occupied (bits header 0 9) (bits header 19 2)
        (used < 15 → ∃ u m, failed u ∧ freed u ∧ u.pkg.messages = s.pkg.messages ++ [m] ∧ tells m ∧ u.pkg.offers = s.pkg.offers) ∧
        (15 ≤ used → ∃ u m, failed u ∧ pool u = pool s ∧ u.pkg.messages = s.pkg.messages ∧ tells m ∧
          u.pkg.offers = s.pkg.offers ++ [⟨m, some k.slot⟩]))) ∧
    (∀ k d a, x.task = some k → s.canPreempt n = true → s.pkg.desc k.tenant = some d → (s.withdraw n).pkg.place k.tenant (saveArea d k.slot) .store = some a →
      x.stopDue = false → s.pair.role = 0 → noWrites →
      ∃ u, exec (.preempt n) s = .next u ∧ (u.thr n).task = none ∧ (u.thr n).preemptDue = false ∧ others u ∧
        u.pair.log = ⟨0x08, n, bits x.prog 0 4, x.pc⟩ :: s.pair.log ∧
        u.pkg.mem = (((s.pkg.putContext a x).used k.tenant (saveArea d k.slot) .store).putRecord k.slot
          { (s.as n).suspension k x.pc 0 0 with pre := true }).mem ∧
        ∃ y ∈ (u.pkg.core (slotCore k.slot)).ready, y.slot = k.slot ∧ y.tenant = k.tenant) ∧
    (∀ k, x.task = some k → s.canPreempt n = false → exec (.preempt n) s = .next s) ∧
    (∀ v, x.irqNow = true → x.irq = some v → x.sup = false → (x.park = none ∨ ∃ r, x.park = some (.page r)) → x.preemptDue = false →
      (x.task.isSome = true ∨ isSteward n = true) → s.canTrap n →
      ∃ u, exec (.interrupt n) s = .next u ∧
        Entered { x with irq := none, irqTen := none, park := none, os := s.storesOwed n } (u.thr n) .int x.pc v ∧ others u ∧ u.pkg.mem = s.pkg.mem) ∧
    (∀ ten, exec (.hostDoorbell ten n) s = .next (let u := s.writeLog ⟨0x0C, 0x1100, 8, word (0x8000 + 8 * n)⟩
      if x.irq.isSome then u else u.setThr n { x with irq := some 1, irqTen := some ten })) ∧
    exec (.stewardNotice n) s = .next (if x.irq.isSome then s else s.setThr n { x with irq := some 2, irqTen := none }) ∧
    (∀ l d w, x.stall = some (.idle (some l) d w) →
      (s.tick < l → exec (.idleTimeout n) s = .next s) ∧
      (l ≤ s.tick → x.irqNow = false → ∃ u, exec (.idleTimeout n) s = .next u ∧ (u.thr n).pc = x.pc + 4 ∧ (u.thr n).rg d = 0 ∧
        (∀ r, r ≠ d → (u.thr n).rg r = x.rg r) ∧ (u.thr n).stall = none ∧ others u ∧ u.pkg.mem = s.pkg.mem) ∧
      (∀ v, l ≤ s.tick → x.irqNow = true → x.irq = some v →
        (s.canTrap n → ∃ u, exec (.idleTimeout n) s = .next u ∧ others u ∧ u.pkg.mem = s.pkg.mem ∧
          Entered { (x.wg d 1).dropPrefix.warn (w || x.pp) with pc := x.pc + 4, prog := 0, irq := none, irqTen := none } (u.thr n)
            .int (x.pc + 4) v) ∧
        (x.isBusy [.g 63] = true → exec (.idleTimeout n) s = .next s))) ∧
    (∀ k, x.task = some k →
      let B := s.pkg.bench (benchOf n)
      let due := B.samples.get 0 n + 1024 * bits B.trctl 48 12
      (B.trctl.getLsbD 63 = true → B.trctl.getLsbD 60 = true → due ≤ s.tick → B.tlost = 0 → B.tbuf.length < 512 →
        (∀ y d, B.tenant = some y → s.pkg.desc y = some d → d.trsize = 0) →
        ∃ u, exec (.traceSample n) s = .next u ∧ u.threads = s.threads ∧ u.pkg.mem = s.pkg.mem ∧
          (u.pkg.bench (benchOf n)).samples.get 0 n = s.tick ∧
          (u.pkg.bench (benchOf n)).tbuf = B.tbuf ++ [[word (3 * 2 ^ 60 + s.ticks % 2 ^ 56),
            word (k.job * 2 ^ 48 + coreOf n * 2 ^ 39 + n % 4 * 2 ^ 37 + (k.sender.getD 0x1FF) * 2 ^ 28 + k.tag * 2 ^ 12), x.pc, x.tstat]]) ∧
      (B.trctl.getLsbD 63 = false ∨ B.trctl.getLsbD 60 = false ∨ s.tick < due → exec (.traceSample n) s = .next s))

/-- R166, R167, R169, R173, R262, R295, R296, R305, R306, R308, R379: MESSAGE_ARRIVAL, CANCEL_BROADCAST and LAUNCH_RECORD. A
message comes after those that its sender sent before it; one for an entry that is not valid is refused and counted; one that a waiting
task matches is written at the task's address and wakes it; else it stands in its mailbox. A new generation reaches a bench, and a suspended task of the old one ends as
cancelled there. A launch creates a record on each core that it names; a bad one is counted.

Completes: messageArrival, cancelBroadcast, launchRecord, badlnchClear. -/
def Obligations.Arrivals : Prop :=
  ∀ (s : State), s.replaying = false →
    let still := fun (u : State) => u.threads = s.threads ∧ u.flight = s.flight
    (∀ id m, s.pkg.messages.find? (fun m => m.id == id) = some m → s.pkg.overtakes m = true → exec (.messageArrival id) s = .next s) ∧
    (∀ id m, s.pkg.messages.find? (fun m => m.id == id) = some m → s.pkg.overtakes m = false → s.pkg.inMap m.tenant (m.dest / 8) = true →
      let c := m.dest
      let K := s.pkg.core c
      let box := K.mail.get [] m.pri
      let gone := fun (u : State) => u.pkg.messages = s.pkg.messages.filter fun x => x.id != id
      let came := { m with since := s.ticks, came := s.tick, arrival := s.pkg.arrival }
      let seen := s.pkg.noteEntry (c / 128) m.tenant m.entry
      let suits := fun (w : Waiter) => m.wt && w.tenant == m.tenant && w.tag == m.tag && w.job == m.job &&
        !((s.pkg.bench (c / 8)).stopped.contains (m.tenant * 65536 + m.job))
      (s.pkg.entryOf m.tenant m.entry = none →
        ∃ u, exec (.messageArrival id) s = .next u ∧ still u ∧ gone u ∧ (u.pkg.core c).refuse = (K.refuse + 1) % 65536 ∧
          (u.pkg.core c).mail = K.mail ∧ u.pkg.mem = seen.mem) ∧
      ((s.pkg.entryOf m.tenant m.entry).isSome = true →
        (16 ≤ box.length → exec (.messageArrival id) s = .next s) ∧
        (box.length < 16 → K.waiters.find? suits = none →
          ∃ u, exec (.messageArrival id) s = .next u ∧ still u ∧ gone u ∧ (u.pkg.core c).mail.get [] m.pri = box ++ [came] ∧
            (∀ i, i ≠ m.pri → (u.pkg.core c).mail.get [] i = K.mail.get [] i) ∧ u.pkg.mem = seen.mem) ∧
        (box.length < 16 → ∀ w, K.waiters.find? suits = some w → (∀ y ∈ s.flight, ∀ e ∈ y.acc, e.2.1 ≠ c) →
          ∀ z, s.pkg.sleepers.find? (fun z => z.slot == w.slot) = some z →
          let at_ := seen.useGen (c / 8) m.tenant m.job
          let R := at_.record w.slot
          let q := (at_.perform none ((R.args.head?.getD 0).toNat) 64 (wordsNat ([m.header, m.stamp, m.sendWord] ++ m.pay))).putRecord w.slot
            { R with stamp := if m.stamp.toNat < R.stamp.toNat then m.stamp else R.stamp }
          let woken := q.useGen (slotCore w.slot / 8) z.tenant (q.record w.slot).job
          at_.oldMessage m = false → (q.record w.slot).bud = false → (q.record w.slot).state ≠ 10 → woken.outdated z.tenant w.slot = false →
            ∃ u, exec (.messageArrival id) s = .next u ∧ still u ∧ gone u ∧
              (u.pkg.core c).waiters = K.waiters.filter (fun y => y.slot != w.slot) ∧
              u.pkg.mem = (woken.putRecord w.slot { q.record w.slot with state := 0, key := 0 }).mem ∧
              u.pkg.sleepers = s.pkg.sleepers.filter (fun y => y.slot != w.slot) ∧
              (u.pkg.core (slotCore w.slot)).ready.map (·.slot) = (s.pkg.core (slotCore w.slot)).ready.map (·.slot) ++ [w.slot]))) ∧
    (∀ tenant job bench g, (s.pkg.bench bench).gens.get 0 (tenant * 65536 + job) ≠ 0 → s.pkg.cancelHeld.contains (tenant, job) = false →
      s.pkg.generation tenant job = some g →
      (∀ m ∈ s.pkg.cancels, m.tenant ≠ tenant ∨ m.job ≠ job) →
      let old := (s.pkg.sleepers.filter fun z =>
        let r := s.pkg.record z.slot
        z.tenant == tenant && slotCore z.slot / 8 == bench && r.job == job && r.gen != g && r.state != 10 &&
          (z.state == 12 || (decide (2 ≤ z.state) && decide (z.state ≤ 7)))).map (·.slot)
      let reached := fun (u : State) => (u.pkg.bench bench).gens.get 0 (tenant * 65536 + job) = 0 ∧ u.threads = s.threads
      (old = [] → ∃ u, exec (.cancelBroadcast tenant job bench) s = .next u ∧ reached u ∧ u.pkg.mem = s.pkg.mem ∧ u.pair = s.pair) ∧
      (∀ slot, old = [slot] → 0 < slot → slot < 2 ^ 48 → (s.pkg.record slot).link = 0 → s.pkg.opsOf tenant slot = [] →
        (s.pkg.core (slotCore slot)).launches = [] →
        ∃ u, exec (.cancelBroadcast tenant job bench) s = .next u ∧ reached u ∧
          u.pkg.mem = (s.pkg.putRecord slot { s.pkg.record slot with state := 9, key := 0 }).mem ∧
          (u.pkg.core (slotCore slot)).pool = (s.pkg.core (slotCore slot)).pool.erase (slotIndex slot) ∧
          u.pkg.sleepers = s.pkg.sleepers.filter (fun z => z.slot != slot) ∧
          u.pair.log = ⟨0x07, 0x1080 + bench, g * 65536 + job, word (slot * 65536 + 3)⟩ :: s.pair.log)) ∧
    (∀ tenant w offset bytes,
      let ws := (List.range 8).map fun i => word (bytesNat bytes / 2 ^ (64 * i))
      let entry := bits (ws.getD 0 0) 54 10
      let formed := bytes.length = 64 ∧ offset % 64 = 0 ∧ offset < 0xFC0
      let reserved := (ws.getD 0 0).getLsbD 48 || bits (ws.getD 2 0) 8 56 != 0
      let seen := s.pkg.noteEntry 0 tenant entry
      let counted := fun (p : Pkg) => ∃ u, exec (.launchRecord tenant w offset bytes) s = .next u ∧ still u ∧ u.pkg.mem = p.mem ∧
        u.pkg.badlnch.get 0 (4 * tenant + w) = (s.pkg.badlnch.get 0 (4 * tenant + w) + 1) % 2 ^ 32
      (¬formed ∨ reserved = true → counted s.pkg) ∧ (formed → reserved = false → s.pkg.entryOf tenant entry = none → counted seen) ∧
      (formed → reserved = false → ∀ e c slot, s.pkg.entryOf tenant entry = some e → seen.entryOf tenant entry = some e → s.pkg.launchCores tenant ws = [c] →
        s.pkg.freeSlot c = some slot → (s.pkg.core c).hwDeque.length < 64 →
        ∃ u, exec (.launchRecord tenant w offset bytes) s = .next u ∧
          u.pkg.mem = ((seen.useGen (c / 8) tenant e.job).putRecord slot (launchRec e entry ((seen.genAt (c / 8) tenant e.job).getD 0) 0 ws)).mem ∧
          (u.pkg.core c).hwDeque = slot :: (s.pkg.core c).hwDeque ∧ slotIndex slot ∈ (u.pkg.core c).pool ∧
          u.pair.log = ⟨0x0C, 0x1100, 64, word (0x1000 * w + offset)⟩ :: s.pair.log) ∧
      ∃ u, exec (.badlnchClear tenant w) s = .next u ∧ still u ∧ u.pkg.mem = s.pkg.mem ∧ u.pkg.badlnch.get 0 (4 * tenant + w) = 0 ∧
        ∀ j, j ≠ 4 * tenant + w → u.pkg.badlnch.get 0 j = s.pkg.badlnch.get 0 j)

/-! ### The host, pages and tenants -/

/-- R19, R20, R176, R262, R371, R374, R376-R380, R395: the host. Every host write is a HOSTIN entry. An answer closes its
request and acts on it, and an entry that the host made present is one of its own making (a free value, log 10); an unknown
answer is counted. An image write lands where the tenant's windows are and nowhere else, one with poisoned data is dropped and counted, and
a read gives the windows' bytes, or BADLNCH at the status line of a launch window. Firmware does what a configuration
request asks within what its register or entry may hold. The PCIe port answers with retry until it is ready, a second after
PERST# is released at the latest.

The model's own: the address that the entry of a configuration request names is a free value (log 10), answers, image writes and
configuration requests are HOSTIN entries (log 26), M2 takes the 128 bytes of a descriptor (log 58), how the host's event shows BAR 0 and
poisoned data (log 98), and a watchpoint hand-off at the mailbox's request (log 120).

Completes: hostAnswer, hostImageAccess, configMailboxRequest, perstRelease, pcieConfigRequest. -/
def Obligations.HostRequests : Prop :=
  ∀ (s : State), s.replaying = false →
    let hostIn := fun (n : Nat) (v : Word) => s.writeLog ⟨0x0C, 0x1100, n, v⟩
    (∀ t seq ans,
      let known := s.pkg.svcOpen.find? fun x => x.1 == t && x.2.1 == seq.toNat
      let base := hostIn 16 (word 0x6000)
      (known = none → exec (.hostAnswer t seq ans) s = .next (base.updBy .hub fun p => { p with svcDropped := p.svcDropped + 1 })) ∧
      (∀ x r, known = some x → (∀ y ∈ s.pkg.svcWait, y.1 ≠ t) → x.2.2.1 = 0 → s.pkg.reqs.find? (fun r => r.id == x.2.2.2) = some r → r.id = x.2.2.2 →
        ∃ u, exec (.hostAnswer t seq ans) s = .next u ∧ u.pair = base.pair ∧ u.pkg.svcOpen = s.pkg.svcOpen.erase x ∧
          u.pkg.reqs = s.pkg.reqs.filter (fun q => q.id != r.id) ∧
          (let e := s.pkg.rd r.entry
           (e.getLsbD 0 = true → u.pkg.mem = s.pkg.mem) ∧
           (e.getLsbD 0 = false → ans ≠ 0 → u.pkg.mem = (s.pkg.wr r.entry (setBits e 2 1 1)).mem) ∧
           (e.getLsbD 0 = false → ans = 0 → e.getLsbD 52 = false → u.pkg.mem = (s.pkg.wr r.entry (Config.hostEntry s.free ||| 1)).mem)) ∧
          ∀ n, (u.thr n).park = if (s.thr n).park = some (.page r.id) then none else (s.thr n).park) ∧
      (∀ x, known = some x → (∀ y ∈ s.pkg.svcWait, y.1 ≠ t) → x.2.2.1 = 3 →
        ∃ u, exec (.hostAnswer t seq ans) s = .next u ∧ u.pkg.svcOpen = s.pkg.svcOpen.erase x ∧ u.pkg.mem = s.pkg.mem ∧ u.threads = s.threads ∧
          u.pkg.cancelHeld = s.pkg.cancelHeld.filter (fun y => y != (t, x.2.2.2)) ∧
          ∀ b, (u.pkg.bench b).gens.get 0 (t * 65536 + x.2.2.2) =
            if ans.getLsbD b then (s.pkg.bench b).gens.get 0 (t * 65536 + x.2.2.2) else 0)) ∧
    (∀ t off n, ∃ l, exec (.hostImageAccess t off n none) s =
        .next { s with outputs := s.outputs ++ [.hostRead l], free := s.free + 4096 } ∧ l.length = n ∧ ∀ i, i < n →
      (off + i < 0x1000000 → l.getD i 0 = if s.pkg.imageByte t (off + i) then s.pkg.mem.get 0 (imageBase + (off + i)) else 0) ∧
      (∀ w j, w < 4 → j < 64 → off + i = 0x1000FC0 + 0x1000 * w + j →
        l.getD i 0 = if j < 4 then BitVec.ofNat 8 (s.pkg.badlnch.get 0 (4 * t + w) / 2 ^ (8 * j)) else 0)) ∧
    (∀ t off n bs, bs.length ≠ n → exec (.hostImageAccess t off n (some bs)) s = .next (s.updBy .hub fun p => { p with poisoned := p.poisoned + 1 })) ∧
    (∀ t off bs, bs ≠ [] → ∃ u, exec (.hostImageAccess t off bs.length (some bs)) s = .next u ∧ u.pair = (hostIn bs.length (word off)).pair ∧
      u.threads = s.threads ∧
      (s.pkg.rangeInWindows t off bs.length = true → (∀ i, i < bs.length → u.pkg.mem.get 0 (imageBase + off + i) = bs.getD i 0) ∧
        ∀ a, a < imageBase + off ∨ imageBase + off + bs.length ≤ a → u.pkg.mem.get 0 a = s.pkg.mem.get 0 a) ∧
      ((∀ i, i < bs.length → s.pkg.imageByte t (off + i) = false) → u.pkg.mem = s.pkg.mem)) ∧
    (let base := hostIn 256 Config.mailbox
     let does := fun (r : CfgReq) (f : Pkg → Pkg) => exec (.configMailboxRequest r) s = .next (base.updBy .hub f)
     (∀ e on, does (.rtag e on) fun p => { p with rtags := p.rtags.set false e on }) ∧
     (∀ port mac, does (.portMac port mac) fun p =>
       { p with ports := p.ports.set Port.init port { p.ports.get Port.init port with mac := some (BitVec.ofNat 48 mac) } }) ∧
     (∀ t rs, does (.policy t rs) fun p => { p with policies := p.policies.set [] t rs }) ∧
     (∀ i f, i < 1024 → does (.filter i f) fun p => { p with filters := p.filters.set none i (some f) }) ∧
     (∀ i g, i < 256 → g.windows.length ≤ 16 → does (.gate i g) fun p => { p with gates := p.gates.set none i (some g) }) ∧
     (∀ i g, 256 ≤ i ∨ 16 < g.windows.length → exec (.configMailboxRequest (.gate i g)) s = .next base) ∧
     (∀ i h t, i < 256 → 2 ≤ h → h ≤ 64 → 1000000 ≤ t → t ≤ 1000000000 →
       does (.recovery i h t) fun p => { p with recoveries := p.recoveries.set none i (some ⟨h, t, none, [], 0⟩) }) ∧
     (∀ port g, port < 10 → gatesFit g = true → does (.gateList port g) fun p =>
       { p with ports := p.ports.set Port.init port ((p.ports.get Port.init port).change s.time g) }) ∧
     (∀ port g, 10 ≤ port ∨ gatesFit g = false → exec (.configMailboxRequest (.gateList port g)) s = .next base) ∧
     (∀ port c f v, port < 8 → does (.preempt port c f v) fun p =>
       { p with ports := p.ports.set Port.init port { p.ports.get Port.init port with preemptable := c, fragment := f, verify := v } }) ∧
     (∀ e port, e < 256 → port.getD 0 < 10 → does (.split e port) fun p => { p with splits := p.splits.set none e port }) ∧
     (∀ i v, i < 1024 → does (.ingress i 0 v) fun p => p.wr (imageBase + 0xF00000 + 32 * i) (v &&& 0x87FF3FFF00003FFF#64)) ∧
     (∀ e v, e < 256 → v.getLsbD 63 = true → does (.egress e 0 v) fun p => p.wr (imageBase + 0xF08000 + 64 * e) (v &&& 0x87FFFFFFF00007FF#64)) ∧
     (∀ e v, e < 256 → v.getLsbD 63 = false → ∃ u, exec (.configMailboxRequest (.egress e 0 v)) s = .next u ∧
       u.pkg.rd (imageBase + 0xF08000 + 64 * e) = v &&& 0x87FFFFFFF00007FF#64 ∧ u.pkg.snaps = s.pkg.snaps.filter fun x => x.entry != e) ∧
     (∀ v, let m := if 32 ≤ bits v 0 16 ∧ bits v 0 16 ≤ 320 then bits v 0 16 else s.pair.mper
       exec (.configMailboxRequest (.rcfg v)) s = .next { base with pair := { base.pair with mper := m } }) ∧
     (∀ n, exec (.configMailboxRequest (.handOff n)) s = .next (if (s.thr n).irq.isSome then base else
       base.setThr n { s.thr n with irq := some 3, irqTen := none })) ∧
     (∀ t d, d.valid = false → does (.tenant t d) fun p => { p with descs := p.descs.set none t none }) ∧
     (∀ t d, d.valid = true → s.accepts t d = true → ∃ u, exec (.configMailboxRequest (.tenant t d)) s = .next u ∧
       u.pkg.desc t = some d ∧ u.onyx.m.get [] 2 = sha256 (s.onyx.measure 2 ++ descBytes d) ∧ u.pkg.mem = s.pkg.mem) ∧
     (∀ t d, d.valid = true → s.accepts t d = false → exec (.configMailboxRequest (.tenant t d)) s = .next base)) ∧
    exec .perstRelease s = .next { s with perst := true, perstAt := s.tick } ∧
    (s.perst = false → exec .pcieConfigRequest s = .next s) ∧
    (s.perst = true → s.pcieReady = true ∨ s.perstAt + 1600000000 ≤ s.tick →
      ∃ u, exec .pcieConfigRequest s = .next u ∧ u.pcieReady = true ∧ u.outputs = s.outputs ++ [.config false] ∧ u.pkg = s.pkg)

/-- R257, R268, R375: RELEASE_BUFFER_SEND. The oldest host or peer store goes out once the horizon of its writer's class is past its
stamp and a ready standby has the log through its acceptance; until then none behind it does. A standby discards it. A thread's store of
four bytes to 0x1FFF_FFFF_0000 + 4v passes the buffer too, and goes out as vector v of its tenant. That a log acknowledged through the
acceptance itself lets the store go is the model's choice (log 35).

Completes: releaseBufferSend. -/
def Obligations.ReleaseBuffer : Prop :=
  ∀ (h : Held) (rest : List Held) (s : State), s.released = h :: rest →
    let due := h.stamp.toNat < s.pkg.horizons.get 0 h.cls ∧ (s.pair.role = 1 → s.pair.ready = true → h.pos ≤ s.pair.lack)
    let out := match h.vector with
      | some v => Output.interrupt v
      | none => if h.addr < 0x200000000000 then Output.hostWrite h.addr h.bytes else .peerWrite h.addr h.bytes
    (∀ (n cls a v : Nat) (stamp : Word), s.tenantOf n < 8 → v < 256 → a = 0x1FFFFFFF0000 + 4 * v → ∀ (th : Option (Nat × Nat)) (x : Nat),
      (s.write (.thread n) th cls stamp a 4 x).released = s.released ++ [⟨a, byteList x 4, cls, stamp, s.lwr, some (256 * s.tenantOf n + v)⟩]) ∧
    (¬due → exec .releaseBufferSend s = .next s) ∧
    (due → s.pair.role = 2 → exec .releaseBufferSend s = .next { s with released := rest }) ∧
    (due → s.pair.role ≠ 2 → exec .releaseBufferSend s = .next { s with released := rest, outputs := s.outputs ++ [out] })

/-- R330, R331, R333, R334, R337-R342: the pager. A request of a policy page gets a zeroed frame under the policy's permissions,
one of the spare tier the bytes of the stretch that its entry names, and one of no policy BAD; every held requester walks again.
A shootdown leaves no TLB or walk-cache entry of its range once nothing under an old one is on its way. A page moves to a spare
shelf; a page that migrates is held until nothing is on its way to it, and then moves, and a fifth move within 1 ms settles it
for 16 ms. A package asks for a move once the other's accesses of the last 100 µs exceed its own by 256.

The model's own: which frame a page gets (log 10), the bytes of a page that comes from the other package, and of its images (log 87), and
the count of the other package's accesses (log 119) are free values.

Completes: pageMapped, pageRefused, shootdown, spareShelfMove, migrationMove, settleExpiry. -/
def Obligations.Paging : Prop :=
  ∀ (s : State),
    let released := fun (u : State) (id : Nat) => u.pkg.reqs = s.pkg.reqs.filter (fun q => q.id != id) ∧
      ∀ n, (u.thr n).park = if (s.thr n).park = some (.page id) then none else (s.thr n).park
    let cleared := fun (u : State) (t va len : Nat) =>
      (∀ c k, keyCovers t va len k = true →
        (u.tlbs.get [] c).get none k = none ∧ (u.tlb2.get [] c).get none k = none ∧ (u.walks.get [] c).get none k = none) ∧
      (∀ c k, keyCovers t va len k = false → (u.tlbs.get [] c).get none k = (s.tlbs.get [] c).get none k ∧
        (u.tlb2.get [] c).get none k = (s.tlb2.get [] c).get none k ∧ (u.walks.get [] c).get none k = (s.walks.get [] c).get none k) ∧
      ∀ n, { u.thr n with fence := 0 } = { s.thr n with fence := 0 }
    let num := fun (b : Bool) => if b then 1 else 0
    let f := (Config.poolFrame s.free).val * 65536
    (∀ id r, s.pkg.reqs.find? (fun r => r.id == id) = some r → (s.pkg.rd r.entry).getLsbD 0 = false → s.pkg.assisted r.tenant 0 = false →
      ((s.pkg.rd r.entry).getLsbD 52 = false →
        (∀ g, s.pkg.policyOf r.tenant r.va = some g → r.level = 3 →
          ∃ u, exec (.pageMapped id) s = .next u ∧ released u id ∧
            u.pkg.mem = ((s.pkg.wr r.entry (word (f + 3 + 4 * num g.r + 8 * num g.w + 16 * num g.x + 32 * num g.u))).zero f 65536).mem ∧
            exec (.pageRefused id) s = .next s) ∧
        (s.pkg.policyOf r.tenant r.va = none →
          ∃ u, exec (.pageRefused id) s = .next u ∧ released u id ∧
            u.pkg.mem = (s.pkg.wr r.entry (setBits (s.pkg.rd r.entry) 2 1 1)).mem ∧ exec (.pageMapped id) s = .next s)) ∧
      ((s.pkg.rd r.entry).getLsbD 52 = true → ∀ leaf, s.pkg.spareBack r.tenant r.va = some leaf → r.level = 3 →
        let x := (bits (s.pkg.rd r.entry) 18 9, bits (s.pkg.rd r.entry) 16 2)
        let q := s.pkg.wr r.entry (leaf f)
        ∃ u, exec (.pageMapped id) s = .next u ∧ released u id ∧
          u.pkg.mem = (q.perform none f 65536 (readMem q.mem (shelfOf x.1 + 0x10000 + 0x10000 * x.2) 65536)).mem ∧
          u.pkg.spares = s.pkg.spares.filter fun y => y.2.2 != x)) ∧
    (∀ t va len, len ≠ 0 →
      (s.quiet t = false → exec (.shootdown t va len) s = .next s) ∧
      (s.quiet t = true → ∃ u, exec (.shootdown t va len) s = .next u ∧ cleared u t va len ∧ u.pkg = s.pkg)) ∧
    (∀ t va core i e at_, core < 512 → i < 4 → (s.pkg.bench (core / 8)).gated = true → s.quiet t = true →
      (∀ x ∈ s.pkg.spares, ¬(x.2.2.1 = core ∧ x.2.2.2 = i)) → s.pkg.walk t (va / 65536 * 65536) = .leaf e at_ 3 →
      isForeign (pteAddr e) = false →
      (e.getLsbD 53 = true → exec (.spareShelfMove t va core i) s = .next s) ∧
      (e.getLsbD 53 = false → ∃ u, exec (.spareShelfMove t va core i) s = .next u ∧ cleared u t (va / 65536 * 65536) 65536 ∧
        u.pkg.mem = ((s.pkg.perform none (shelfOf core + 0x10000 + 0x10000 * i) 65536 (readMem s.pkg.mem (pteAddr e) 65536)).wr at_
          (word (2 ^ 52 + core * 2 ^ 18 + i * 2 ^ 16))).mem ∧
        u.pkg.spares = (t, va / 65536, core, i) :: s.pkg.spares)) ∧
    (∀ t va e at_, s.pkg.walk t (va / 65536 * 65536) = .leaf e at_ 3 →
      let page := va / 65536 * 65536
      let m := (s.pkg.moves.get none (pageKey t (va / 65536))).getD ⟨[], none, !isForeign (pteAddr e)⟩
      let recent := m.times.filter fun x => decide (s.time < x + 8000000)
      let moved := fun (u : State) (here : Bool) => exec (.migrationMove t va) s = .next u ∧
        u.pkg.moves.get none (pageKey t (va / 65536)) = some ⟨s.time :: recent, m.settled, here⟩ ∧
        u.pkg.migrants = s.pkg.migrants.erase (t, page) ∧ cleared u t page 65536
      let entry := fun (a : Nat) => s.pkg.wr at_ ((e &&& ~~~0x3FFFFFFFFF00#64) ||| word a)
      let asked := { s with free := s.free + 1 }
      let due := m.here = false ∨ s.pkg.usesOf s.time (pageKey t (va / 65536)) + 256 < Config.peerAccesses s.free
      ((t, page) ∉ s.pkg.migrants → s.pkg.assisted t 4 = true → exec (.migrationMove t va) s = .next s) ∧
      ((t, page) ∉ s.pkg.migrants → s.pkg.assisted t 4 = false →
        (¬due ∨ e.getLsbD 54 = false ∨ e.getLsbD 53 = true ∨ m.settled.isSome = true → exec (.migrationMove t va) s = .next asked) ∧
        (due → e.getLsbD 54 = true → e.getLsbD 53 = false → m.settled = none →
          (recent.length < 4 → ∃ u, exec (.migrationMove t va) s = .next u ∧ u.pkg.migrants = (t, page) :: s.pkg.migrants ∧
            u.pkg.mem = s.pkg.mem ∧ u.threads = s.threads ∧ u.outputs = s.outputs) ∧
          (4 ≤ recent.length → ∃ u, exec (.migrationMove t va) s = .next u ∧ u.pkg.mem = (s.pkg.wr at_ (setBits e 55 1 1)).mem ∧
            u.pkg.moves.get none (pageKey t (va / 65536)) = some { m with settled := some s.time }))) ∧
      ((t, page) ∈ s.pkg.migrants →
        (s.quiet t = false ∨ s.releasing (pteAddr e) = true → exec (.migrationMove t va) s = .next s) ∧
        (s.quiet t = true → s.releasing (pteAddr e) = false →
          (m.here = true → ∃ u frame, moved u false ∧ u.pkg.mem = (entry (0x200000000000 + frame * 65536)).mem ∧
            (∀ p, (p = s.pkg ∨ ∃ mark ∈ s.marks, mark.image = some p) →
              .peerWrite (0x200000000000 + frame * 65536) ((List.range 65536).map fun j => p.mem.get 0 (pteAddr e + j)) ∈ u.outputs)) ∧
          (m.here = false → ∃ u body, moved u true ∧ body.length = 65536 ∧ u.pkg.mem = ((entry f).perform none f 65536 (bytesNat body)).mem)))) ∧
    (∀ t va m x e at_ l, s.pkg.moves.get none (pageKey t (va / 65536)) = some m → m.settled = some x →
      s.pkg.walk t (va / 65536 * 65536) = .leaf e at_ l →
      (s.time < x + 128000000 → exec (.settleExpiry t va) s = .next s) ∧
      (x + 128000000 ≤ s.time → ∃ u, exec (.settleExpiry t va) s = .next u ∧ u.pkg.mem = (s.pkg.wr at_ (setBits e 55 1 0)).mem ∧
        u.pkg.moves.get none (pageKey t (va / 65536)) = some { m with times := [], settled := none }))

/-- R245, R286-R288, R326, R327, R352, R357, R358, R388: stamp regions, the locked L2 region and tenant switches. A region's KIND makes
it valid where R245 lets it, and a valid one's base and length stay. A switch gives the bench's segments 10 µs, then pre-empts them, and
waits until none runs there; then the outgoing tenant's state is put away and the incoming one's is brought back: ops to and from
the journal, weight slots and tiles, the blocks of the shelves that the tenant has written, mailboxes, signal counters, `ctl.tvec` and
`ctl.tstk`; `ctl.trctl` and `ctl.trptr` are cleared. A switch area of either tenant that cannot be reached ends the switch with the
outgoing tenant there, and the steward hears of it.

The model's own: the event's number 0x21 (log 60), the bytes of the engine save area (log 88), and that spare pages leave the bench's
shelves first (log 118).

Completes: stampRegionWrite, l2LockEnable, l2LockDisable, l2LockDone, tenantSwitch. -/
def Obligations.RegionsAndSwitch : Prop :=
  ∀ (s : State), s.replaying = false →
    (∀ t r v, t < 8 → r < 256 →
      let a := regionAddr t r
      let g := s.pkg.region t r
      let kind := bits v 62 2
      let len := bits v 0 32
      let w1 := word (bits v 59 3 * 2 ^ 59 + bits v 0 48)
      let stores := fun (w : Nat) (P : State → Prop) => ∃ u, exec (.stampRegionWrite t r w v) s = .next u ∧ u.threads = s.threads ∧ P u
      (g.kind = 0 → stores 0 fun u => u.pkg.rd a = word (bits v 0 48)) ∧
      (g.kind ≠ 0 → stores 0 fun u => u.pkg.mem = s.pkg.mem) ∧
      (g.kind = 0 → kind = 0 ∨ s.pkg.regionOk t kind g.base len = false → stores 1 fun u => u.pkg.rd (a + 8) = w1) ∧
      (g.kind = 0 → kind ≠ 0 → s.pkg.regionOk t kind g.base len = true → stores 1 fun u =>
        u.pkg.rd (a + 8) = w1 ||| word (kind * 2 ^ 62) ∧ u.pkg.rd (a + 16) = 0 ∧
        (kind = 1 → ∀ x, g.base ≤ x → x < g.base + len → u.pkg.mem.get 0 x = 0)) ∧
      (g.kind ≠ 0 → stores 1 fun u => u.pkg.rd (a + 8) =
        setBits (s.pkg.rd (a + 8)) 62 2 (if kind = 0 ∨ kind = g.kind ∨ s.pkg.regionOk t kind g.base g.len = true then kind else 0)) ∧
      stores 2 (fun u => u.pkg.rd (a + 16) = v) ∧ stores 3 fun u => u.pkg.rd (a + 24) = word (bits v 32 32 * 2 ^ 32)) ∧
    (let lock := s.pkg.l2lk
     let put := fun (v : Word) => s.updBy .hub fun p => { p with l2lk := v }
     (∀ v, v.getLsbD 63 = true → lock.getLsbD 62 = false → lock.getLsbD 63 = false →
       let fits := 1 ≤ bits v 56 4 ∧ bits v 56 4 ≤ 12 ∧ bits v 21 25 * 2 ^ 21 + bits v 56 4 * 2 ^ 23 ≤ 0x3C00000000
       (fits → exec (.l2LockEnable v) s = .next (put ((v &&& 0x0F003FFFFFE00000#64) ||| 0xC000000000000000#64))) ∧
       (¬fits → exec (.l2LockEnable v) s = .next (put (v &&& 0x0F003FFFFFE00000#64)))) ∧
     (∀ v, lock.getLsbD 62 = true ∨ lock.getLsbD 63 = true → exec (.l2LockEnable v) s = .next s) ∧
     (lock.getLsbD 63 = true → lock.getLsbD 62 = false → exec .l2LockDisable s = .next (put (setBits lock 62 2 1))) ∧
     (lock.getLsbD 62 = true → exec .l2LockDone s = .next (put (setBits lock 62 1 0))) ∧
     (lock.getLsbD 62 = false → exec .l2LockDone s = .next s)) ∧
    (∀ b into, b < 64 → s.welcome b into = true → (s.pkg.bench b).tenant ≠ into → (∀ y ∈ s.pkg.spares, y.2.2.1 / 8 ≠ b) →
      (∀ n, n ∈ s.busyThreads b → let B := s.pkg.bench b
        let late := B.switching = true ∧ B.switchAt + 16000 ≤ s.tick
        ∃ u, exec (.tenantSwitch b into) s = .next u ∧ (late → (u.thr n).preemptDue = true) ∧ (¬late → u.threads = s.threads) ∧
          (B.switching = false → (u.pkg.bench b).switchAt = s.tick) ∧
          (u.pkg.bench b).switching = true ∧ (u.pkg.bench b).target = into ∧ (u.pkg.bench b).tenant = B.tenant ∧ u.pkg.mem = s.pkg.mem) ∧
      (s.busyThreads b = [] → s.pkg.benchOps b = [] →
        let B := s.pkg.bench b
        let begun := (s.beginSwitch b into).beginHalt b
        let keeps := ∃ u, exec (.tenantSwitch b into) s = .next u ∧ (u.pkg.bench b).tenant = B.tenant ∧
          (u.pkg.bench b).switching = false ∧ u.pkg.mem = s.pkg.mem ∧ u.threads = s.threads ∧
          u.outputs = s.outputs ++ [.steward (b / 16) 0x21 (word b)]
        (∀ t d, B.tenant = some t → s.pkg.desc t = some d → s.pkg.areaOk t b d .store = false → keeps) ∧
        (∀ t d, into = some t → s.pkg.desc t = some d → s.pkg.areaOk t b d .load = false → keeps) ∧
        (s.pkg.areaReady b .store B.tenant = true → s.pkg.areaReady b .load into = true → ∃ out u,
          (B.tenant = none → out = begun) ∧
          (∀ t, B.tenant = some t → s.pkg.desc t = none → out = begun.updBy .hub fun p => p.onBench b (Bench.vacate t)) ∧
          (∀ t d, B.tenant = some t → s.pkg.desc t = some d → ∃ v, (∀ k, begun.stopEngines b t (.next s) k = k v) ∧
            out = ((v.drain b true).saveEngine b t d).updBy .hub fun p => ((List.range 8).foldl (fun (p : Pkg) i =>
              ((p.spillDeque (8 * b + i)).saveCore t b (8 * b + i) d).putAway t (8 * b + i)) p).onBench b (Bench.vacate t)) ∧
          (B.tenant.isSome = true → (out.pkg.bench b).trctl = 0 ∧ (out.pkg.bench b).trptr = 0 ∧ (out.pkg.bench b).tbuf = []) ∧
          (let turned := (out.swapVectors b B.tenant into).freshCaches b
           (into = none → u = turned.switchDone b) ∧
           ∀ t d, into = some t → s.pkg.desc t = some d → ∃ v, (∀ k, turned.switchIn b t d (.next s) k = k v) ∧ u = v.switchDone b) ∧
          exec (.tenantSwitch b into) s = .next u ∧ (u.pkg.bench b).tenant = into ∧ (u.pkg.bench b).switching = false ∧
          (u.pkg.bench b).target = none ∧ ∀ n, benchOf n = b → n < 2048 →
            (∀ t, into = some t → ((u.thr n).tvec, (u.thr n).tstk) = s.pkg.vecs.get (0, 0) (t * 4096 + n)) ∧
            (into = none → (u.thr n).tvec = 0 ∧ (u.thr n).tstk = 0) ∧
            ∀ t, B.tenant = some t → u.pkg.vecs.get (0, 0) (t * 4096 + n) = ((s.thr n).tvec, (s.thr n).tstk)))) ∧
    (∀ (p : Pkg) t b c d x, x + 0x70000 ≤ shelfOf c ∨ shelfOf c + 0x80000 ≤ x →
      let blocks := p.dirtyBlocks c (p.bench b).restored
      ((∀ o, o < 0x70000 → p.place t (switchAt d c o) .store = some (x + o)) → ∃ r : Pkg,
        p.saveCore t b c d = r.usedArea t c d .store ∧ r.cores = p.cores ∧
        (∀ n ∈ blocks, ∀ j, j < 4096 → r.mem.get 0 (x + 4096 * n + j) = p.mem.get 0 (shelfOf c + 4096 * n + j)) ∧
        (∀ n, n < 96 → (readMem r.mem (x + 0x61020) 16).testBit n = ((readMem p.mem (x + 0x61020) 16).testBit n || decide (n ∈ blocks))) ∧
        ((∀ i, i < 8 → (p.core c).signals.get 0 i < 2 ^ 32) → ∀ i, i < 8 → readMem r.mem (x + 0x61000 + 4 * i) 4 = (p.core c).signals.get 0 i) ∧
        ∀ pri e, pri < 4 → e < 16 → readMem r.mem (x + 0x60000 + 1024 * pri + 64 * e) 64 =
          match ((p.core c).mail.get [] pri)[e]? with
          | some m => wordsNat m.words % 2 ^ 512
          | none => 0) ∧
      ((∀ o, o < 0x70000 → p.place t (switchAt d c o) .load = some (x + o)) → ∀ now tick,
        (p.away.get Away.init (t * 512 + c)).sleepers = [] → (p.away.get Away.init (t * 512 + c)).core.waiters = [] →
        let mask := readMem p.mem (x + 0x61020) 16
        ∃ r : Pkg, p.bringBack t c now tick d = r.usedArea t c d .load ∧
          (∀ n, n < 96 → readMem r.mem (shelfOf c + 4096 * n) 4096 = if mask.testBit n then
            maskBytes (blockMask n) (shelfOf c + 4096 * n) (readMem p.mem (x + 4096 * n) 4096) 4096 else 0) ∧
          (∀ i, i < 8 → (r.core c).signals.get 0 i = readMem p.mem (x + 0x61000 + 4 * i) 4) ∧
          ((∀ n, n < 96 → mask.testBit n = false ∧ readMem p.mem (shelfOf c + 4096 * n) 4096 = 0) → ∀ pri, pri < 4 →
            ((r.core c).mail.get [] pri).map Message.words = (List.range 16).filterMap fun e =>
              let ws := (List.range 8).map fun i => p.rd (x + 0x60000 + 1024 * pri + 64 * e + 8 * i)
              if ws.getD 0 0 = 0 then none else some ws)) ∧
      (p.putAway t c).core c = { Core.init with
        rgen := (p.core c).rgen, refuse := (p.core c).refuse, stalegen := (p.core c).stalegen, dasel := (p.core c).dasel } ∧
      ((p.putAway t c).away.get Away.init (t * 512 + c)).core.pool = (p.core c).pool) ∧
    (∀ b t d, let B := s.pkg.bench b
      let kept := fun (p : Pkg) => p.engAway.get ⟨[], [], none⟩ (8 * b + t)
      (B.wdirty ≠ [] ∨ B.tdirty ≠ [] → s.pkg.engineLost t b d .store = none →
        let p := (s.saveEngine b t d).pkg
        (kept p).bytes = some s.free ∧ (∀ i ∈ B.wdirty, (kept p).wslots.get ⟨[], []⟩ i = B.wslots.get ⟨[], []⟩ i) ∧
        (∀ i ∈ B.tdirty, (kept p).tiles.get Tile.init i = B.tiles.get Tile.init i) ∧ (p.bench b).wslots = [] ∧ (p.bench b).tiles = []) ∧
      ((kept s.pkg).bytes = none → ((s.loadEngine b t d).pkg.bench b).wslots = [] ∧ ((s.loadEngine b t d).pkg.bench b).tiles = []) ∧
      ∀ n, (kept s.pkg).bytes = some n → s.pkg.engineLost t b d .load = none →
        (∀ j, j < 12 → readMem s.pkg.mem ((s.pkg.place t (engineAt d b j) .load).getD 0) 65536 = bytesNat (areaBytes n j)) →
        ((s.loadEngine b t d).pkg.bench b).wslots = (kept s.pkg).wslots ∧ ((s.loadEngine b t d).pkg.bench b).tiles = (kept s.pkg).tiles) ∧
    (∀ t b d i a, i < 832 → b < 64 → let key := 1024 * b + i
      (∀ o k, o.ended = false → o.homes.length < 3 → s.pkg.place t (journalAt d b i) .store = some a →
        let w := homesWit s.pkg.ecur o.homes
        let ws := o.halt.journal w
        ∃ u, s.stopOp t d (key, o) (.next s) k = k u ∧ u.pkg.op key = none ∧
          u.pkg.op (outKey t key) = some { o.halt with witn := w, written := ws } ∧ u.threads = s.threads ∧
          u.pkg.mem = ((s.pkg.perform none a 64 (wordsNat ws)).used t (journalAt d b i) .store).mem) ∧
      ∀ o k, s.pkg.place t (journalAt d b i) .load = some a → s.pkg.op (outKey t key) = some o → ¬(o.ended = true ∧ o.owner = .gone) →
        o.written = (List.range 8).map (fun j => s.pkg.rd (a + 8 * j)) → s.pkg.rd (a + 48) ≠ 0 →
        ∃ u, s.resumeSlot t b d i (.next s) k = k u ∧ u.pkg.op key = some o ∧ u.pkg.op (outKey t key) = none ∧ u.threads = s.threads) ∧
    (∀ b into, s.welcome b into = false ∨ 64 ≤ b → exec (.tenantSwitch b into) s = .next s)

/-! ### The scan cycle -/

/-- R232-R238, R252, R254, R262, R309, R316: package time and the classes. An offset of 10 µs or less is slewed and a greater
one steps T; the cycle starts that a forward step passes are not taken, and SKIP counts them. A class starts 10 µs after it is
enabled at the earliest, and stopped it reads as all ones and its STOPPED and CYCLE records are ready. A budgeted task whose account is
at 0 has 10 µs of grace. The epoch advances every 400 ticks; V rises to the least epoch that is outstanding, on a standby to the last V of
a HEART whose accesses are performed, and each Hk to the least stamp of its class's work.

The model's own: HOLD leaves SYNC 0 (log 8), and no class starts before T has once been synchronized (log 108).

Completes: timeCorrection, holdoverEntry, classStart, classStop, budgetExhausted, budgetGraceEnd, epochAdvance,
visibilityPublish, horizonPublish. -/
def Obligations.TimeAndClasses : Prop :=
  ∀ (s : State), s.replaying = false →
    (∀ ns : Int, ns.natAbs ≤ 10000 → exec (.timeCorrection ns) s =
      .next { s with hold := false, sync := true, synced := true, slew := 8 * ns }) ∧
    (∀ ns : Int, 10000 < ns.natAbs → (∀ n, n < 8 → (s.pkg.cls n).en = false) →
      ∃ u, exec (.timeCorrection ns) s = .next u ∧ u.hold = false ∧ u.sync = true ∧ u.slew = 0 ∧ u.time = ((s.time : Int) + 8 * ns).toNat ∧
        (∀ n, n < 8 → u.pkg.cls n = { s.pkg.cls n with step := true }) ∧ u.pkg.mem = s.pkg.mem ∧ u.threads = s.threads ∧ u.pair = s.pair) ∧
    (∀ (ns : Int) n, 10000 < ns → n < 8 → (∀ m, m < 8 → m ≠ n → (s.pkg.cls m).en = false) → (s.pkg.cls n).en = true →
      (s.pkg.cls n).started = true →
      let c := s.pkg.cls n
      let time := ((s.time : Int) + 8 * ns).toNat
      let c' := (time - c.phase) / c.period
      c.cyc.toNat < c' → c' < 2 ^ 64 →
        ∃ u, exec (.timeCorrection ns) s = .next u ∧ u.time = time ∧ (u.pkg.cls n).cyc = word c' ∧
          (u.pkg.cls n).skip = (c.skip + (c' - c.cyc.toNat)) % 65536 ∧ (u.pkg.cls n).step = true ∧ u.pkg.mem = s.pkg.mem ∧
          u.threads = s.threads ∧ u.pair.log = ⟨0x0D, 0x1100, n, word c'⟩ :: s.pair.log) ∧
    exec .holdoverEntry s = .next { s with hold := true, sync := false } ∧
    (∀ n v, v.getLsbD 63 = true → (s.pkg.cls n).en = false →
      let c := s.pkg.cls n
      let w := v &&& 0x7FFF00003FFFFFFF#64
      let ok := s.synced = true ∧ 1 ≤ bits v 48 15 ∧ bits v 48 15 ≤ 32000 ∧ bits v 0 30 < bits v 48 15 * 31250 ∧ bits c.pub 0 30 < bits v 48 15 * 31250 ∧
        1000 ≤ bits c.pub 30 30 ∧ bits c.pub 30 30 ≤ bits c.pub 0 30
      ∃ u, exec (.classStart n v) s = .next u ∧ u.threads = s.threads ∧ u.pkg.mem = s.pkg.mem ∧
        (ok → (u.pkg.cls n).per = w ||| 0x8000000000000000#64 ∧ (u.pkg.cls n).started = false ∧
          s.time + 80000 ≤ (u.pkg.cls n).startOf (u.pkg.cls n).first ∧
          ((u.pkg.cls n).first = 0 ∨ (u.pkg.cls n).startOf ((u.pkg.cls n).first - 1) < s.time + 80000)) ∧
        (¬ok → u.pkg.cls n = { c with per := w })) ∧
    (∀ n, (s.pkg.cls n).en = true → ∃ u, exec (.classStop n) s = .next u ∧ (u.pkg.cls n).en = false ∧ (u.pkg.cls n).started = false ∧
      (u.pkg.cls n).cyc = allOnes ∧ u.pkg.horizons.get 0 n = 0 ∧ (∀ m, m ≠ n → u.pkg.cls m = s.pkg.cls m) ∧
      (∀ z ∈ u.pkg.sleepers, z.state = 12 ∨ z ∈ s.pkg.sleepers) ∧ (∀ t, (u.thr t).task = (s.thr t).task) ∧
      ∀ z, s.pkg.sleepers = [z] → (z.state = 11 ∧ z.key = n ∨ z.state = 6 ∧ (s.pkg.record z.slot).cls = n) →
        let r := s.pkg.record z.slot
        let seen := s.pkg.useGen (slotCore z.slot / 8) z.tenant r.job
        r.state ≠ 10 → seen.outdated z.tenant z.slot = false → u.pkg.sleepers = [] ∧
          u.pkg.mem = (seen.putRecord z.slot { r with state := 0, key := 0 }).mem ∧
          (u.pkg.core (slotCore z.slot)).ready = (s.pkg.core (slotCore z.slot)).ready ++
            [⟨z.slot, z.tenant, s.pkg.arrival, true, false, s.tick, false, none⟩]) ∧
    (∀ t e b, s.pkg.budgets.get none (t * 1024 + e) = some b → b.left = 0 → b.grace = false →
      ∃ u, exec (.budgetExhausted t e) s = .next u ∧ u.pkg.budgets.get none (t * 1024 + e) = some ⟨0, true⟩ ∧ u.pkg.mem = s.pkg.mem ∧
        ∀ n k, (s.thr n).task = some k → (s.thr n).stopDue = false → k.tenant = t → k.entry = e → k.bud = true →
          (s.pkg.cls k.cls).started = true → (u.thr n).stopDue = true ∧ (u.thr n).stopAt = s.tick ∧ (u.thr n).pc = (s.thr n).pc) ∧
    (∀ n, (s.thr n).stopDue = true → (s.thr n).task.isSome = true → (s.thr n).isLeaving = false →
      (s.tick < (s.thr n).stopAt + 16000 → exec (.budgetGraceEnd n) s = .next s) ∧
      ((s.thr n).stopAt + 16000 ≤ s.tick → ∃ u, exec (.budgetGraceEnd n) s = .next u ∧ (u.thr n).preemptDue = true ∧
        (∀ m, m ≠ n → u.thr m = s.thr m) ∧ u.pkg = s.pkg)) ∧
    (s.tick < s.epochTick + 400 → exec .epochAdvance s = .next s) ∧
    (s.epochTick + 400 ≤ s.tick → exec .epochAdvance s =
      .next { s.updBy .hub (fun p => { p with ecur := (p.ecur + 1) % 2 ^ 48 }) with epochTick := s.epochTick + 400 }) ∧
    (s.pair.role ≠ 2 → ∃ V, exec .visibilityPublish s = .next (s.updBy .hub fun p => { p with vroot := max p.vroot V }) ∧
      V ≤ s.pkg.ecur ∧ (∀ a ∈ s.flight, ∀ x ∈ a.acc, V ≤ x.2.2.2) ∧ (V = s.pkg.ecur ∨ ∃ a ∈ s.flight, ∃ x ∈ a.acc, V = x.2.2.2)) ∧
    (s.pair.role = 2 →
      let vs := s.pair.pendingV.map s.pairV
      let taken := fun (x : Nat × Nat × Option (List Nat)) => ∃ ids, x.2.2 = some ids ∧ ∀ a ∈ s.flight, a.acc ≠ [] → a.id ∉ ids
      ∃ u, exec .visibilityPublish s = .next u ∧ s.pkg.vroot ≤ u.pkg.vroot ∧ (∀ x ∈ vs, taken x → x.2.1 ≤ u.pkg.vroot) ∧
        (u.pkg.vroot = s.pkg.vroot ∨ ∃ x ∈ vs, taken x ∧ u.pkg.vroot = x.2.1) ∧
        (∀ x, x ∈ u.pair.pendingV ↔ x ∈ vs ∧ ¬taken x) ∧ u.pkg.mem = s.pkg.mem ∧ u.threads = s.threads) ∧
    (∀ x ids, s.pairV x = (x.1, x.2.1, some ids) ↔
      x.2.2 = some ids ∨ x.2.2 = none ∧ x.1 ≤ s.pair.stored ∧ (∀ y ∈ s.pair.inbox, x.1 ≤ y.1) ∧ ids = s.acceptedIds) ∧
    (∀ b, ∃ u, exec (.horizonPublish b) s = .next u ∧ (u.pkg.bench b).nodeV = s.pkg.vroot ∧ (u.pkg.bench b).nodeH = u.pkg.horizons ∧
      (∀ k, k < 8 → (s.pkg.cls k).started = false → u.pkg.horizons.get 0 k = 0) ∧
      (∀ k, k < 8 → (s.pkg.cls k).started = true → ∃ M, u.pkg.horizons.get 0 k = max (s.pkg.horizons.get 0 k) M ∧
        M ≤ (s.pkg.cls k).cyc.toNat + 1 ∧ (∀ x ∈ s.liveStamps k, M ≤ x) ∧ (M = (s.pkg.cls k).cyc.toNat + 1 ∨ M ∈ s.liveStamps k)) ∧
      (∀ k, (∀ n j, (s.thr n).task = some j → j.cls = k → (s.thr n).ts.toNat ∈ s.liveStamps k) ∧
        (∀ m ∈ s.pkg.messages, m.cls = k → m.stamp.toNat ∈ s.liveStamps k) ∧
        (∀ c pri, ∀ m ∈ (s.pkg.core c).mail.get [] pri, m.cls = k → m.stamp.toNat ∈ s.liveStamps k) ∧
        (∀ y o, s.pkg.op y = some o → o.ended = false → o.cls = k → o.stamp.toNat ∈ s.liveStamps k) ∧
        ∀ c, ∀ i ∈ (s.pkg.core c).pool, let r := s.pkg.record (slotAddr c i)
          r.cls = k → r.state ≠ 1 → ¬(8 ≤ r.state ∧ r.state ≤ 10) → r.stamp.toNat ∈ s.liveStamps k) ∧
      u.pkg.mem = s.pkg.mem ∧ u.threads = s.threads)

/-- R240, R242, R245, R247-R251, R256, R262: a scan cycle. A frame of a mapped stream enters the filling bank or counts why not;
a cycle start latches each input region of the class, a LATCH entry with the CRC of its bytes, and releases the class's entries;
the cut-off keeps the bytes and the stamp of an output region; at the instant each entry sends one frame: of the output if it is
committed, else of the one last committed, counted in LATE, or of the fallback where there is none or it is too old; and a split
stream a copy at its second port, each once the port's gates let it. Waiting frames leave one at a time.

The model's own: a frame of a disabled ingress entry is dropped uncounted (log 30), the form of gate lists (log 31), what recovery,
traffic classes and gates do by IEEE 802.1 (log 83), and the order of recovery and gate (log 110).

Completes: frameIngress, cycleStart, pubCutoff, publishInstant, qbvGateOpen. -/
def Obligations.ScanCycle : Prop :=
  ∀ (s : State), s.replaying = false →
    (∀ f : Frame,
      let refused := exec (.frameIngress f) s = .next (s.updBy .hub fun p =>
        { p with ports := p.ports.set Port.init f.port { p.ports.get Port.init f.port with errors := (p.ports.get Port.init f.port).errors + 1 } })
      let right := f.fcsOk = true ∧ f.size ≤ (if f.port < 8 then 1522 else 9022)
      (¬right → refused) ∧ (right → s.pkg.filterFor f = none → exec (.frameIngress f) s = .next s) ∧
      (∀ i q, right → s.pkg.filterFor f = some (i, q) →
        let a := imageBase + 0xF00000 + 32 * i
        let w := s.pkg.rd a
        let G := s.pkg.region (bits w 56 3) (bits w 48 8)
        let fits := G.kind = 1 ∧ G.len = bits w 32 14 ∧ bits w 0 14 + bits w 32 14 ≤ f.payload.length
        let counts := fun (x lo : Nat) (P : State → Prop) => ∃ u, exec (.frameIngress f) s = .next u ∧ u.threads = s.threads ∧
          u.pkg.mem = (s.pkg.wr x (setBits (s.pkg.rd x) lo 32 (bits (s.pkg.rd x) lo 32 + 1))).mem ∧ P u
        (q.maxSdu < f.payload.length → refused) ∧
        (f.payload.length ≤ q.maxSdu → s.pkg.recover q f = none → exec (.frameIngress f) s = .next s) ∧
        (f.payload.length ≤ q.maxSdu → q.recovery = none → w.getLsbD 63 = false → ∃ u, exec (.frameIngress f) s = .next u ∧
          u.pkg.mem = s.pkg.mem ∧ u.pkg.filling = s.pkg.filling ∧ u.threads = s.threads) ∧
        (f.payload.length ≤ q.maxSdu → (s.pkg.recover q f).isSome = true → w.getLsbD 63 = true →
          (s.pkg.gateAt q.gate f.time = false → counts (a + 8) 32 fun u => u.pkg.filling = s.pkg.filling) ∧
          (s.pkg.gateAt q.gate f.time = true → ¬fits → counts (a + 16) 32 fun u => u.pkg.filling = s.pkg.filling) ∧
          (s.pkg.gateAt q.gate f.time = true → fits → counts (a + 8) 0 fun u => u.pkg.filling = s.pkg.filling ++
            [⟨bits w 56 3, bits w 48 8, i, f.time, f.complete, (f.payload.drop (bits w 0 14)).take (bits w 32 14)⟩])))) ∧
    (∀ n, (s.pkg.cls n).en = true →
      let c := s.pkg.cls n
      let C := if c.started then c.cyc.toNat + 1 else c.first
      let start := c.phase + C * c.period
      let began := fun (u : State) => exec (.cycleStart n) s = .next u ∧ (u.pkg.cls n).cyc = word C ∧ (u.pkg.cls n).started = true ∧
        u.threads = s.threads
      let allMade := c.started = true → c.cutDone = some c.cyc.toNat ∧ ∀ x ∈ s.pkg.snaps, ¬(x.cls = n ∧ x.cycle = c.cyc.toNat)
      (s.time < start ∨ ¬allMade → exec (.cycleStart n) s = .next s) ∧
      (start ≤ s.time → allMade → s.pkg.inputRegions n = [] → s.pkg.entriesOf n = [] → s.pkg.sleepers = [] →
        ∃ u, began u ∧ u.pkg.mem = s.pkg.noteTables.mem ∧ u.pair = s.pair) ∧
      (start ≤ s.time → allMade → s.pkg.inputRegions n = [] → s.pkg.entriesOf n = [] → ∀ z, s.pkg.sleepers = [z] →
        let q := s.pkg.noteTables
        let r := q.record z.slot
        let seen := q.useGen (slotCore z.slot / 8) z.tenant r.job
        z.state = 11 ∧ z.key = n ∨ z.state = 6 ∧ r.cls = n ∧ (word C - word z.key).toNat < 2 ^ 63 →
        r.state ≠ 10 → seen.outdated z.tenant z.slot = false →
        ∃ u, began u ∧ u.pkg.sleepers = [] ∧ u.pkg.mem = (seen.putRecord z.slot { r with state := 0, key := 0 }).mem ∧
          (u.pkg.core (slotCore z.slot)).ready = (s.pkg.core (slotCore z.slot)).ready ++
            [⟨z.slot, z.tenant, s.pkg.arrival, true, false, s.tick, false, none⟩]) ∧
      (start ≤ s.time → allMade → s.pkg.inputRegions n = [] → s.pkg.sleepers = [] → ∀ t i e, s.pkg.entriesOf n = [(t, i, e)] →
        e.cyc = true → e.blk = false → e.budget = 0 → s.pkg.inMap t (e.home / 8) = true →
        (∀ l ∈ s.pkg.liveRel, ¬(l.1 = t ∧ l.2.1 = i)) → (∀ l ∈ (s.pkg.core e.home).releases, ¬(l.tenant = t ∧ l.entry = i)) →
        ∃ u, began u ∧ u.pkg.mem = s.pkg.noteTables.mem ∧
          (u.pkg.core e.home).releases = (s.pkg.core e.home).releases ++ [⟨t, i, word C, s.pkg.arrival, s.tick⟩]) ∧
      (start ≤ s.time → allMade → ∀ t r, s.pkg.inputRegions n = [(t, r)] → t < 8 → r < 256 → ∀ f, s.pkg.filling = [f] →
        f.tenant = t → f.region = r → f.complete ≤ start → s.pkg.sleepers = [] → (s.pkg.region t r).base + f.bytes.length ≤ imageBase + 0xFF0000 →
        s.pair.oldBanks = [] →
        let crc := (crc32 f.bytes).setWidth 64
        let p := s.pkg.latch t r start (word C) (some f.bytes)
        p.entriesOf n = [] →
        (∀ j, j < f.bytes.length → p.mem.get 0 ((s.pkg.region t r).base + j) = f.bytes.getD j 0) ∧ p.rd (regionAddr t r + 16) = word C ∧
        ∃ u, began u ∧ u.pkg.filling = [] ∧ u.pkg.mem = p.noteTables.mem ∧
          u.pair.log = ⟨0x01, 0x1100, t * 2 ^ 39 + r * 2 ^ 31 + 1, crc⟩ :: s.pair.log)) ∧
    (∀ n, (s.pkg.cls n).started = true →
      let c := s.pkg.cls n
      let C := c.cyc.toNat
      let due := c.startOf C + c.puboff
      let none_ := ∀ e, e < 256 → s.pkg.takesPart n e = false
      (s.time + c.cut < due → exec (.pubCutoff n) s = .next s) ∧
      (due ≤ s.time + c.cut → c.cutDone ≠ some C → none_ → ∃ u, exec (.pubCutoff n) s = .next u ∧ (u.pkg.cls n).cutDone = some C ∧
        u.pkg.snaps = s.pkg.snaps ∧ u.pkg.mem = s.pkg.mem ∧ u.threads = s.threads) ∧
      (due ≤ s.time + c.cut → c.cutDone ≠ some C → ∀ e, e < 256 → (∀ y, y < 256 → s.pkg.takesPart n y = decide (y = e)) → s.pkg.snaps = [] →
        (let x := s.pkg.egress e
         let G := s.pkg.region x.ten x.region
         (x.ten, x.region) ∈ s.pkg.pubs → ∃ u, exec (.pubCutoff n) s = .next u ∧ (u.pkg.cls n).cutDone = some C ∧ u.pkg.mem = s.pkg.mem ∧
           u.pkg.snaps = [⟨e, x.ten, x.region, n, C, byteList (readMem s.pkg.mem G.base G.len) G.len, G.stamp, s.lwr, true⟩] ∧ (x.ten, x.region) ∉ u.pkg.pubs)) ∧
      (s.time < due ∨ c.cutDone ≠ some C → exec (.publishInstant n) s = .next s) ∧
      (due ≤ s.time → c.cutDone = some C → s.pkg.snapsOf n C = [] → ∃ u, exec (.publishInstant n) s = .next u ∧
        (u.pkg.cls n).lastPub = C ∧ u.outputs = s.outputs ∧ u.pkg.mem = s.pkg.mem ∧ u.threads = s.threads) ∧
      (due ≤ s.time → c.cutDone = some C → ∀ x, s.pkg.snapsOf n C = [x] → s.pkg.takesPart n x.entry = true → s.pkg.sendable x.entry = true →
        s.pair.role ≠ 2 → (∀ y ∈ s.pair.sentCrcs, ¬(y.1 = x.entry ∧ y.2.1 = x.cycle)) → x.entry < 256 →
        let E := s.pkg.egress x.entry
        let a := egressAddr x.entry
        let committed := x.cycle < s.pkg.horizons.get 0 n ∧ (s.pair.role = 1 → s.pair.ready = true → x.pos ≤ s.pair.lack)
        let last := if committed then some (x.bytes, x.stamp) else s.pkg.committed.get none x.entry
        let fit := last.filter fun d => decide ((word x.cycle - d.2).toInt ≤ ((s.pkg.region E.ten E.region).limit : Int))
        let payload := match fit with
          | some d => (d.1 ++ (if E.stp then byteList d.2.toNat 8 else []) ++ List.replicate E.paylen 0#8).take E.paylen
          | none => byteList (readMem s.pkg.mem (imageBase + 0xF10000 + 1536 * x.entry) E.paylen) E.paylen
        let one := fun (u : State) (w lo : Nat) (yes : Bool) =>
          bits (u.pkg.rd (a + w)) lo 32 = (bits (s.pkg.rd (a + w)) lo 32 + if yes then 1 else 0) % 2 ^ 32
        let sent := fun (u : State) (port : Nat) =>
          let body := s.pkg.frameBytes x.entry port x.cycle payload
          let out : SentFrame := ⟨port, x.entry, x.cycle, body ++ byteList (crc32 body).toNat 4⟩
          let q := s.pkg.ports.get Port.init port
          let cls := trafficClass E.pcp
          let clear := sendTime port (portLimit port + 20)
          if q.isOpen cls due (sendTime port (out.bytes.length + 8)) = true ∧ q.othersClosed cls (due - clear) clear = true then .frame out ∈ u.outputs
          else (out, cls, due) ∈ (u.pkg.ports.get Port.init port).waiting
        ∃ u, exec (.publishInstant n) s = .next u ∧ (u.pkg.cls n).lastPub = C ∧ u.threads = s.threads ∧
          u.pkg.committed.get none x.entry = last ∧ one u 24 0 true ∧ one u 24 32 fit.isNone ∧ one u 32 0 (!decide committed) ∧ sent u E.port ∧
          ∀ port, s.pkg.splits.get none x.entry = some port → s.pkg.frameLen x.entry ≤ portLimit port → sent u port)) ∧
    (∀ port, let q := s.pkg.ports.get Port.init port
      let ready := fun (f : SentFrame × Nat × Nat) => f.2.2 ≤ s.time ∧ q.isOpen f.2.1 s.time (sendTime port (f.1.bytes.length + 8)) = true ∧
        q.wireFree port f.2.1 s.time = true
      ((∀ f ∈ q.waiting, ¬ready f) → exec (.qbvGateOpen port) s = .next s) ∧
      ((∃ f ∈ q.waiting, ready f) → ∃ u f, f ∈ q.waiting ∧ ready f ∧ (∀ g ∈ q.waiting, ready g → g.2.1 ≤ f.2.1) ∧
        exec (.qbvGateOpen port) s = .next u ∧ u.outputs = s.outputs ++ [.frame f.1] ∧ u.threads = s.threads ∧
        (u.pkg.ports.get Port.init port).waiting = q.waiting.erase f ∧
        let a := egressAddr f.1.entry + 40
        u.pkg.mem = (if f.2.2 + 320 < s.time then s.pkg.wr a (setBits (s.pkg.rd a) 0 32 (bits (s.pkg.rd a) 0 32 + 1)) else s.pkg).mem))

/-! ### Recovery, power and resets -/

/-- R257-R261, R352, R359, R364, R366, R367, R392, R395: recovery marks, rollback, resets and loss of power. A mark opens with
an image of the journalled state at each multiple of MPER, whatever marks are open, and the oldest closes once everything open
when it opened has crossed it; one that is held for 1 ms pre-empts those who hold it. A machine check restores the last closed
image and forces the entries written since; a full journal, or a restore under way, stops the package instead. A reset leaves
what bring-up leaves; fuses, keys and flash stay.

The model's own: the oldest mark closes first and ctl.rcst counts the closed ones (log 34), one without an image changes no image
(log 112), V, the epoch and the horizons go back with the image (log 70), what is outside the journalled state goes on (log 81), a segment of
the log that the host keeps leaves as it stands (log 97), and zeros after a reset that the spec does not give (log 1).

Completes: recoveryMarkOpen, recoveryMarkClose, markHoldTimeout, machineCheck, packageReset, powerLoss, firmwareRecoveryWrite. -/
def Obligations.Recovery : Prop :=
  ∀ (s : State),
    let due := s.time / (s.pair.mper * 250000) * (s.pair.mper * 250000)
    (due ≤ s.markAt → exec .recoveryMarkOpen s = .next s) ∧
    (s.markAt < due → ∃ m, exec .recoveryMarkOpen s = .next { s with markAt := due, marks := s.marks ++ [m] } ∧
      m.image = (if s.disarmed then none else some s.pkg) ∧
      m.opened = s.tick ∧ m.since = [] ∧ m.msgs = s.pkg.messages.map (·.id) ∧
      (∀ k o, s.pkg.op k = some o → o.place = 2 → o.state = 2 → k ∈ m.ops) ∧ ∀ n, (s.thr n).task.isSome = true → n < 2048 → n ∈ m.threads) ∧
    (s.marks = [] → exec .recoveryMarkClose s = .next s) ∧
    (∀ m r, s.marks = m :: r →
      (m.threads ≠ [] ∨ m.ops ≠ [] ∨ m.msgs ≠ [] → exec .recoveryMarkClose s = .next s) ∧
      (m.threads = [] → m.ops = [] → m.msgs = [] → ∃ u, exec .recoveryMarkClose s = .next u ∧ u.saved = m.image.getD s.saved ∧ u.marks = r ∧
        u.mark = s.mark + 1 ∧ u.savedPos = s.pair.log.length ∧ u.pkg.mem = s.pkg.mem ∧ u.threads = s.threads ∧
        ((∀ t, t < 8 → s.pkg.assisted t 2 = false) → u.pkg = s.pkg ∧ u.outputs = s.outputs) ∧
        (∀ t, t < 8 → s.pkg.assisted t 2 = true → .segment t (s.pair.log.take (s.pair.log.length - s.savedPos)).reverse ∈ u.outputs) ∧
        (m.image = none → u.pair = s.pair) ∧
        (m.image.isSome = true → u.pair.sinceSaved = m.since ++ s.pair.sinceSaved.filter fun x => s.pair.inbox.any fun y => y.1 == x.1))) ∧
    ((∀ m ∈ s.marks, s.tick < m.opened + 1600000) → exec .markHoldTimeout s = .next s) ∧
    (∀ n, let late := ∃ m ∈ s.marks, m.opened + 1600000 ≤ s.tick ∧ n ∈ m.threads
      ∃ u, exec .markHoldTimeout s = .next u ∧ u.pkg = s.pkg ∧ u.marks = s.marks ∧
        (late → (s.thr n).task.isSome = true → (u.thr n).preemptDue = true) ∧ (¬late → u.thr n = s.thr n)) ∧
    (∀ a, s.disarmed = true ∨ s.restoring = true → ∃ u, exec (.machineCheck a) s = .next u ∧ u.stopped = true ∧ u.pkg = s.pkg ∧
      u.threads = s.threads ∧ (s.pair.role = 2 → u.pair.ready = false ∧ u.pair.lost = true)) ∧
    (∀ a, s.disarmed = false → s.restoring = false → ∃ u, exec (.machineCheck a) s = .next u ∧ u.pkg.mem = s.saved.mem ∧
      ((∀ x ∈ s.pkg.benches, x.2.switching = false) → u.pkg = { s.saved with onyx := u.pkg.onyx }) ∧
      u.onyx = { s.saved.onyx with
        lc := s.onyx.lc, unlockCnt := s.onyx.unlockCnt, identity := s.onyx.identity, dbgOpen := s.onyx.dbgOpen, image := s.onyx.image
        recovery := s.onyx.recovery, nonce := s.onyx.nonce } ∧
      u.marks = [] ∧ u.tlbs = [] ∧ u.tlb2 = [] ∧ u.walks = [] ∧ u.flight = [] ∧
      s.tick ≤ u.restoreTill ∧ u.restoreTill ≤ s.tick + (200 + s.journal / 4) * 1600 ∧
      (∀ n, (u.thr n).task = none ∧ (u.thr n).tvec = (s.thr n).tvec ∧ (u.thr n).tstk = (s.thr n).tstk ∧ ∀ r, (u.thr n).rg r = 0) ∧
      u.released = s.released ∧
      u.pair.inbox = s.pair.sinceSaved ++ s.pair.inbox.filter (fun x => !(s.pair.sinceSaved.any fun y => y.1 == x.1)) ∧
      u.pair.rollbk = (s.pair.rollbk + 1) % 65536 ∧ u.outputs = s.outputs) ∧
    (let brought := fun (u : State) => u.pkg = { Pkg.reset with onyx := u.pkg.onyx } ∧ u.threads = [] ∧ u.flight = [] ∧ u.time = 0 ∧ u.onyx.keys = s.onyx.keys ∧
       u.onyx.pending = none ∧ u.onyx.m = [] ∧ u.onyx.image = s.onyx.image ∧ u.onyx.identity = s.onyx.identity ∧
       u.onyx.recovery = !Config.imageVerifies s.onyx.image ∧ u.onyx.busy = [] ∧ u.outputs = s.outputs
     (∃ u, exec .packageReset s = .next u ∧ brought u ∧ u.onyx.lc = s.onyx.lc ∧ u.onyx.unlockCnt = s.onyx.unlockCnt ∧
       u.onyx.dbgOpen = decide (s.onyx.lc = 3) ∧ u.stopped = false) ∧
     (∃ u, exec (.powerLoss 0) s = .next u ∧ brought u ∧ u.onyx.lc = s.onyx.lc ∧ u.onyx.unlockCnt = s.onyx.unlockCnt ∧ u.stopped = true) ∧
     (∀ n, s.onyx.burning = false → (∀ die, s.onyx.serving = some die → bits (s.blockWord die 0) 0 32 ≠ 3) →
       ∃ u, exec (.powerLoss n) s = .next u ∧ brought u ∧ u.onyx.unlockCnt = s.onyx.unlockCnt ∧ u.onyx.lc = s.onyx.lc) ∧
     (∀ die c, s.onyx.serving = some die → s.onyx.pending = some c →
       (s.onyx.burning = true ∨ bits (s.blockWord die 0) 0 32 = 3 ∧ s.onyx.present = 0) →
       (∃ u, exec (.powerLoss 1) s = .next u ∧ brought u ∧ u.onyx.unlockCnt = c ∧ u.onyx.lc = s.onyx.lc) ∧
       ∃ u, exec (.powerLoss 2) s = .next u ∧ brought u ∧ u.onyx.unlockCnt = c ∧ u.onyx.lc = 3)) ∧
    (∀ bs, exec (.firmwareRecoveryWrite bs) s = .next (if s.onyx.recovery && Config.imageVerifies bs then
      s.setOnyx { s.onyx with image := bs, recovery := false } else s))

/-- R307, R340, R382, R383, R386, R395, R396: gating and the resets of a core and of a bench. A bench that has nothing to do and
keeps nothing is gated once its trace buffer is empty, and its engine is cleared; a waking one is ungated. At 115 °C a die is in an
emergency, which ends below 110 °C; during one its highest running bench is gated, whatever it keeps.
A core that is reset loses its threads' registers, RGEN goes up by one, and a task that it ran ends FAILED with cause MCHK, reason RESET,
and its orphan handler hears of it. A bench reset leaves no op there.

The model's own: each lost register holds the zero that it has after bring-up where the spec gives no value (log 1).

Completes: benchGate, benchWake, thermalEmergency, coreReset, benchReset. -/
def Obligations.PowerAndResets : Prop :=
  ∀ (b : Nat) (s : State),
    let B := s.pkg.bench b
    let still := fun (u : State) => u.threads = s.threads ∧ u.pkg.mem = s.pkg.mem ∧ u.pair = s.pair
    let idle := b < 64 ∧ B.gated = false ∧ B.keep = false ∧ B.waking = false ∧ B.switching = false ∧ s.pkg.liveBeryl b = 0 ∧
      s.hasWork b = false
    (idle → B.tbuf ≠ [] → exec (.benchGate b) s = .next (s.drain b true) ∧ ((s.drain b true).pkg.bench b).gated = false) ∧
    (idle → B.tbuf = [] → ∃ u, exec (.benchGate b) s = .next u ∧ still u ∧ (u.pkg.bench b).gated = true ∧ (u.pkg.bench b).tiles = [] ∧
      (u.pkg.bench b).wslots = [] ∧ (u.pkg.bench b).tenant = B.tenant) ∧
    (¬idle → exec (.benchGate b) s = .next s) ∧
    (B.gated = true → B.waking = true → B.tenant = none → (∀ y ∈ s.pkg.spares, y.2.2.1 / 8 ≠ b) →
      ∃ u, exec (.benchWake b) s = .next u ∧ still u ∧ (u.pkg.bench b).gated = false ∧ (u.pkg.bench b).waking = false) ∧
    (B.gated = false ∨ B.waking = false → exec (.benchWake b) s = .next s) ∧
    (∀ die tj, die < 4 →
      (tj < 110 → exec (.thermalEmergency die tj) s = .next { s.updBy .hub fun p => p.cool die with hot := s.hot.filter fun d => d != die }) ∧
      (110 ≤ tj → tj < 115 → die ∉ s.hot → exec (.thermalEmergency die tj) s = .next s) ∧
      (115 ≤ tj ∨ 110 ≤ tj ∧ die ∈ s.hot → b / 16 = die → B.gated = false →
        (∀ c, b < c → c / 16 = die → (s.pkg.bench c).gated = true) → B.tenant = none → s.busyThreads b = [] →
        ∃ u, exec (.thermalEmergency die tj) s = .next u ∧ still u ∧ (u.pkg.bench b).gated = true ∧
          die ∈ u.hot ∧ (u.pkg.bench b).floss = (B.floss + B.usedTiles) % 65536 ∧ (u.pkg.bench b).tiles = [] ∧ (u.pkg.bench b).tbuf = [])) ∧
    (∀ c, c < 512 → (s.pkg.bench (c / 8)).tenant = none → (∀ n, coreOf n = c → (s.thr n).task = none) →
      (s.pkg.core c).hwDeque = [] →
      ∃ u, exec (.coreReset c) s = .next u ∧ u.pkg.mem = s.pkg.mem ∧ (u.pkg.core c).rgen = ((s.pkg.core c).rgen + 1) % 65536 ∧
        (u.pkg.core c).signals = [] ∧ u.tlbs.get [] c = [] ∧
        (∀ n, coreOf n = c → { u.thr n with fence := 0 } = Thread.init) ∧ ∀ n, coreOf n ≠ c → u.thr n = s.thr n) ∧
    (∀ c n k, c < 512 → coreOf n = c → (s.thr n).task = some k → (∀ m, m ≠ n → coreOf m = c → (s.thr m).task = none) →
      ((s.pkg.bench (c / 8)).tenant = none ∨ (s.thr n).park = some .doubleFault ∧ s.onyx.dbgOpen = false) → s.replaying = false → s.flight = [] →
      (s.pkg.core c).hwDeque = [] → s.pkg.opsOf k.tenant k.slot = [] → k.link = 0 → k.slot ≠ 0 → (s.pkg.core (slotCore k.slot)).launches = [] →
      let R := s.pkg.record k.slot
      let q := s.pkg.endRecord k.tenant k.slot 10
      let failed := fun (u : State) => exec (.coreReset c) s = .next u ∧ (u.pkg.core c).rgen = ((s.pkg.core c).rgen + 1) % 65536 ∧
        (∀ m, coreOf m = c → { u.thr m with fence := 0 } = Thread.init) ∧
        u.pkg.mem = (s.pkg.putRecord k.slot { R with state := 10, key := 0 }).mem
      (q.entryOf k.tenant 1023 = none → ∃ u, failed u ∧ u.pkg.failures = s.pkg.failures + 1 ∧ u.pkg.messages = s.pkg.messages) ∧
      ∀ e, q.entryOf k.tenant 1023 = some e →
        let header := headerOf R.job (slotCore k.slot) 1 false e.pri 1023 e.home
        ∃ u m, failed u ∧ (u.pkg.messages = s.pkg.messages ++ [m] ∨ u.pkg.offers = s.pkg.offers ++ [⟨m, some k.slot⟩]) ∧ m.tenant = k.tenant ∧
          m.header = header ∧ m.stamp = R.stamp ∧ m.pay = [word k.slot, word 0x911, 0, 0, 0]) ∧
    (∀ c, c < 512 → (s.pkg.bench (c / 8)).tenant.isSome = true →
      (∀ i, i < 4 → (s.thr (4 * c + i)).park ≠ some .doubleFault) → exec (.coreReset c) s = .next s) ∧
    (b < 64 → B.tenant = none → B.switching = false → (∀ n, n / 32 = b → (s.thr n).task = none) → (∀ i, i < 8 → (s.pkg.core (8 * b + i)).hwDeque = []) →
      s.pkg.benchOps b = [] →
      ∃ u, exec (.benchReset b) s = .next u ∧ u.pkg.mem = s.pkg.mem ∧ (u.pkg.bench b).bflag = 0 ∧ (u.pkg.bench b).keep = false ∧
        (u.pkg.bench b).tiles = [] ∧ (u.pkg.bench b).trctl = 0 ∧
        (∀ i, i < 8 → (u.pkg.core (8 * b + i)).mail = [] ∧ (u.pkg.core (8 * b + i)).rgen = ((s.pkg.core (8 * b + i)).rgen + 1) % 65536) ∧
        ∀ n, n / 32 = b → { u.thr n with fence := 0 } = Thread.init) ∧
    (b < 64 → B.tenant = none → B.switching = false → (∀ n, n / 32 = b → (s.thr n).task = none) → s.replaying = false →
      ∃ u, exec (.benchReset b) s = .next u ∧ u.pkg.benchOps b = []) ∧
    (B.tenant.isSome = true ∨ B.switching = true → exec (.benchReset b) s = .next s)

/-- R384: firmware lowers the CAP of every die when the package's average power, in milliwatts, exceeds 450 W, never below 64,
and raises it when it is below 430 W; between the two it leaves it. The steps themselves are free values (log 10), and CAP holds
12 bits.

Completes: powerCapAdjust. -/
def Obligations.PowerCap : Prop :=
  ∀ (mw : Nat) (s : State), ∃ u, exec (.powerCapAdjust mw) s = .next u ∧ u.threads = s.threads ∧ u.pkg.mem = s.pkg.mem ∧
    ∀ die, die < 4 →
      let cap := fun (v : State) => bits (v.pkg.pgov.get pgovReset die) 16 12
      (450000 < mw → if 64 < cap s then 64 ≤ cap u ∧ cap u < cap s else cap u = cap s) ∧
      (mw < 430000 → if cap s < 4095 then cap s < cap u else cap u = cap s) ∧
      (430000 ≤ mw → mw ≤ 450000 → cap u = cap s)

/-! ### The pair -/

/-- R264-R268, R322: the Twiral link. A flit is delivered where its CRC is good, its TYPE known and its SEQ the expected one;
any other is discarded and the next flit asks for a resend. What ASEQ acknowledges leaves the sender; without progress for 2 µs
every other flit is sent again, and after 16 resends of one of them the lanes retrain. A standby stores entries and acknowledges
them, a primary takes the position and READY; HEARTs go out every HBI, in every role. A flit is 64 bytes: its header, a payload
and their CRC. A standby that has consumed every entry below the primary's first mark position shows READY in its next HEART.

The model's own: what NVAL counts in an ACK and in a HEART (log 82), and that a flit of unknown TYPE does not advance the expected SEQ
(log 36).

Completes: flitDiscard, flitResend, laneRetrainDone, logFlit, progFlit, standbyAck, ackFlit, heartFlit, heartTimer, fillReq,
fillFlit, fcrcFlit, peerFlit, resign. -/
def Obligations.Link : Prop :=
  ∀ (h : FlitHdr) (s : State),
    let P := s.pair
    let good := h.crcOk = true ∧ h.known = true ∧ h.seq.toNat = P.rxSeq
    let got := { P with rxSeq := (P.rxSeq + 1) % 2 ^ 32, peer := true, rxAt := s.tick }
    let gets := fun (i : Instr) (Q : Pair) => exec i s = .next { s with pair := Q }
    let flit := fun (kind valid seq aseq : Nat) (body : List Byte) =>
      let head := [BitVec.ofNat 8 kind, BitVec.ofNat 8 valid, if P.nakDue then 1#8 else 0#8, 0#8] ++ byteList seq 4 ++ byteList aseq 4
      let all := head ++ (body ++ List.replicate 48 0#8).take 48
      Output.flit (all ++ byteList (crc32 all).toNat 4)
    (¬good → let dropped := { P with nakDue := true, badFlits := P.badFlits + 1 }
      gets (.flitDiscard h) dropped ∧ (∀ es, gets (.logFlit h es) dropped) ∧ (∀ b, gets (.heartFlit h b) dropped) ∧
      (∀ pos, gets (.ackFlit h pos) dropped) ∧ gets (.resign h) dropped) ∧
    (good → exec (.flitDiscard h) s = .next s) ∧
    (good → h.nak = false → P.backlog = [] → ∃ u, exec (.progFlit h []) s = .next u ∧ u.pkg = s.pkg ∧ u.threads = s.threads ∧
      u.pair.rxSeq = (P.rxSeq + 1) % 2 ^ 32 ∧
      u.pair.unacked = P.unacked.filter fun f => decide ((f.seq + 2 ^ 32 - h.aseq.toNat) % 2 ^ 32 < 2 ^ 31)) ∧
    (good → h.nak = false → P.unacked = [] → P.backlog = [] →
      (∀ es, P.role = 2 → ∃ u, exec (.logFlit h es) s = .next u ∧ u.pkg = s.pkg ∧ u.threads = s.threads ∧
        u.pair.inbox.map (·.2) = P.inbox.map (·.2) ++ es ∧ u.pair.stored = P.stored + es.length ∧
        u.pair.lack = P.stored + es.length) ∧
      (∀ es, P.role ≠ 2 → gets (.logFlit h es) got) ∧
      (∀ t, gets (.progFlit h [t]) { got with allowed := P.allowed.set 0 t (P.allowed.get 0 t + 1) }) ∧
      (∀ pos, P.role ≠ 2 → gets (.ackFlit h pos) { got with lack := pos.toNat, lagTicks := P.lagTicks.take (P.log.length - pos.toNat) }) ∧
      (∀ pos, P.role = 2 → gets (.ackFlit h pos) got) ∧
      (∀ b, P.role ≠ 2 → gets (.heartFlit h b) { got with ready := b.ready && !P.lost, lost := P.lost || (P.ready && !b.ready) }) ∧
      (∀ b, P.role = 2 → ∃ u, exec (.heartFlit h b) s = .next u ∧ u.pkg = s.pkg ∧ u.pair.lastHeart = b.cycles ∧ u.pair.hadHeart = true ∧
        u.pair.pendingV = P.pendingV ++ [(b.lwr, b.v, none)] ∧ u.pair.peerMark = (if P.peerMark = 0 then b.markPos else P.peerMark) ∧
        (P.ready = false → u.pair.ready = true → P.lost = false ∧ u.pair.peerMark ≠ 0 ∧ u.pair.peerMark ≤ P.stored ∧
          ∀ x ∈ P.inbox, u.pair.peerMark ≤ x.1)) ∧
      (∀ pos t r, (∀ b ∈ P.oldBanks, ¬(b.1 = pos ∧ b.2.1 = t ∧ b.2.2.1 = r)) → gets (.fillReq h pos t r) got) ∧
      (∀ pos t r bs, P.oldBanks.find? (fun b => b.1 == pos && b.2.1 == t && b.2.2.1 == r) = some (pos, t, r, bs) →
        0 < bs.length → bs.length ≤ 32 → P.retraining = false → ∃ u, exec (.fillReq h pos t r) s = .next u ∧ u.pkg = s.pkg ∧
          u.outputs = s.outputs ++ [flit 6 ((bs.length + 7) / 8) P.txSeq ((P.rxSeq + 1) % 2 ^ 32)
            (byteList pos 8 ++ [BitVec.ofNat 8 t, BitVec.ofNat 8 r] ++ byteList 0 2 ++ bs)]) ∧
      (∀ pos t r off bs, gets (.fillFlit h pos t r off bs) { got with fills := P.fills ++ [(pos, t, r, off, bs)] }) ∧
      (∀ bs, gets (.peerFlit h bs) { got with inPeer := P.inPeer ++ [bs] }) ∧
      (∀ e cyc crc, let noted := { got with peerCrcs := (e, cyc.toNat, crc.toNat) :: P.peerCrcs }
        ((∀ x ∈ P.sentCrcs, x.1 = e → x.2.1 = cyc.toNat → x.2.2 = crc.toNat) → gets (.fcrcFlit h e cyc crc) noted) ∧
        (∀ v, P.sentCrcs = [(e, cyc.toNat, v)] → v ≠ crc.toNat →
          gets (.fcrcFlit h e cyc crc) { noted with diverge := (P.diverge + 1) % 65536, ready := false, lost := true })) ∧
      (P.role ≠ 2 → gets (.resign h) { got with stop := true })) ∧
    (P.role = 2 → P.lost = false → P.unacked.length < 8192 → P.retraining = false →
      ∃ u, exec .standbyAck s = .next u ∧ u.pkg = s.pkg ∧ u.outputs = s.outputs ++ [flit 3 1 P.txSeq P.rxSeq (byteList P.lack 8)] ∧
        u.pair.ackSent = P.stored) ∧
    (P.heartAt + P.hbi * 1600 ≤ s.tick → P.unacked.length < 8192 → P.retraining = false →
      let caught := P.role = 2 ∧ P.lost = false ∧ P.peerMark ≠ 0 ∧ P.peerMark ≤ P.stored ∧ ∀ x ∈ P.inbox, P.peerMark ≤ x.1
      ∃ u, exec .heartTimer s = .next u ∧ u.pkg = s.pkg ∧ u.pair.heartAt = s.tick ∧ u.pair.txSeq = (P.txSeq + 1) % 2 ^ 32 ∧
        u.pair.ready = (P.ready || decide caught) ∧
        u.outputs = s.outputs ++ [flit 4 1 P.txSeq P.rxSeq (byteList P.log.length 8 ++ byteList (s.time / 8) 8 ++
          [BitVec.ofNat 8 P.role, if P.ready = true ∨ caught then 1#8 else 0#8] ++ ((List.range 8).flatMap fun k => byteList (s.pkg.cls k).lastPub 2) ++
          byteList 0 2 ++ byteList s.pkg.vroot 6 ++ byteList s.savedPos 6)]) ∧
    (s.tick < P.heartAt + P.hbi * 1600 → exec .heartTimer s = .next s) ∧
    (s.tick < P.aseqAt + 3200 ∨ P.unacked = [] → exec .flitResend s = .next s) ∧
    (P.aseqAt + 3200 ≤ s.tick → P.unacked ≠ [] → P.retraining = false →
      ((∀ f ∈ P.unacked, f.resends < 16) → ∃ u, exec .flitResend s = .next u ∧ u.pkg = s.pkg ∧
        u.pair.unacked = P.unacked.map (fun f => { f with resends := f.resends + 1 }) ∧
        u.outputs = s.outputs ++ P.unacked.map fun f => flit f.kind f.valid f.seq P.rxSeq f.body) ∧
      (∀ f ∈ P.unacked, 16 ≤ f.resends → gets .flitResend { P with retraining := true })) ∧
    (P.retraining = true → P.unacked ≠ [] → P.backlog = [] → ∃ u, exec .laneRetrainDone s = .next u ∧ u.pkg = s.pkg ∧
      u.pair.retraining = false ∧ u.outputs = s.outputs ++ P.unacked.map fun f => flit f.kind f.valid f.seq P.rxSeq f.body) ∧
    (P.retraining = false → exec .laneRetrainDone s = .next s)

/-- R264, R265, R268, R269: roles. `ctl.pair` takes what lies in its ranges, and ROLE before the first launch only. Without a
valid flit for LOSS, or on a RESIGN, a standby takes over: once every entry received is forced its ROLE is 00 and TOOK is 1, and it sends
a catch-up frame for each output of an instant after the primary's last HEART whose data are committed, which counts in MISSWIN. A
primary goes on without a peer, and loses READY once an entry has stayed unacknowledged longer than LAGMAX. Of the stores that a
standby holds only those accepted after the last entry forced are ever sent.

Completes: pairWrite, peerLossTimeout, resign, lagmaxTimeout. -/
def Obligations.Switchover : Prop :=
  ∀ (s : State),
    let P := s.pair
    let late := P.rxAt + P.loss * 1600 ≤ s.tick
    let took := fun (Q : Pair) => Q.role = 0 ∧ Q.took = true ∧ Q.ready = false ∧ Q.taking = false
    (∀ v, let lag := bits v 32 16
      let hbi := if 1 ≤ bits v 0 16 ∧ bits v 0 16 ≤ 1000 then bits v 0 16 else P.hbi
      let fit := 3 * hbi ≤ bits v 16 16
      exec (.pairWrite v) s = .next { s with pair := { P with
        role := if bits v 62 2 = 3 ∨ P.launched = true then P.role else bits v 62 2
        lagmax := if 10 ≤ lag ∧ lag ≤ 10000 then lag else P.lagmax
        loss := if fit then bits v 16 16 else P.loss
        hbi := if fit then hbi else P.hbi } }) ∧
    (P.peer = false ∨ ¬late → exec .peerLossTimeout s = .next s) ∧
    (P.peer = true → late → P.role = 1 → exec .peerLossTimeout s = .next { s with pair := { P with peer := false, role := 0, ready := false } }) ∧
    (P.peer = true → late → P.role = 2 → s.stopped = false → P.inbox ≠ [] →
      exec .peerLossTimeout s = .next { s with pair := { P with peer := false, taking := true } }) ∧
    (P.peer = true → late → P.role = 2 → s.stopped = false → P.inbox = [] → P.hadHeart = false →
      ∃ u, exec .peerLossTimeout s = .next u ∧ took u.pair ∧ u.pair.peer = false ∧ u.pkg = s.pkg ∧ u.outputs = s.outputs ∧
        u.released = s.released.filter fun h => decide (P.log.length ≤ h.pos)) ∧
    (P.peer = true → late → P.role = 2 → s.stopped = false → P.inbox = [] → P.hadHeart = true →
      let behind := fun (n : Nat) => (s.pkg.cls n).started = true ∧
        let d := ((s.pkg.cls n).lastPub % 65536 + 65536 - P.lastHeart.getD n 0 % 65536) % 65536
        1 ≤ d ∧ d < 32768
      let tookOver := fun (u : State) => exec .peerLossTimeout s = .next u ∧ took u.pair ∧ u.pair.peer = false ∧ u.threads = s.threads ∧
        u.released = s.released.filter fun h => decide (P.log.length ≤ h.pos)
      ((∀ n, n < 8 → ¬behind n) → ∃ u, tookOver u ∧ u.pkg = s.pkg ∧ u.outputs = s.outputs) ∧
      ∀ k x, k < 8 → behind k → (∀ n, n < 8 → n ≠ k → ¬behind n) →
        P.built.filter (fun y => y.cls == k && y.cycle == (s.pkg.cls k).lastPub) = [x] → x.entry < 256 → s.pkg.takesPart k x.entry = true →
        s.pkg.sendable x.entry = true →
        let E := s.pkg.egress x.entry
        let a := egressAddr x.entry
        (s.pkg.horizons.get 0 k ≤ x.cycle → ∃ u, tookOver u ∧ u.pkg.mem = s.pkg.mem ∧ u.outputs = s.outputs) ∧
        (x.cycle < s.pkg.horizons.get 0 k → (word x.cycle - x.stamp).toInt ≤ ((s.pkg.region E.ten E.region).limit : Int) →
          let payload := (x.bytes ++ (if E.stp then byteList x.stamp.toNat 8 else []) ++ List.replicate E.paylen 0#8).take E.paylen
          let body := s.pkg.frameBytes x.entry E.port x.cycle payload
          let out : SentFrame := ⟨E.port, x.entry, x.cycle, body ++ byteList (crc32 body).toNat 4⟩
          let q := s.pkg.ports.get Port.init E.port
          let cls := trafficClass E.pcp
          let clear := sendTime E.port (portLimit E.port + 20)
          ∃ u, tookOver u ∧ u.pkg.committed.get none x.entry = some (x.bytes, x.stamp) ∧
            bits (u.pkg.rd (a + 24)) 0 32 = (bits (s.pkg.rd (a + 24)) 0 32 + 1) % 2 ^ 32 ∧
            bits (u.pkg.rd (a + 40)) 0 32 = (bits (s.pkg.rd (a + 40)) 0 32 + 1) % 2 ^ 32 ∧
            if q.isOpen cls s.time (sendTime E.port (out.bytes.length + 8)) = true ∧ q.othersClosed cls (s.time - clear) clear = true
            then .frame out ∈ u.outputs else (out, cls, s.time) ∈ (u.pkg.ports.get Port.init E.port).waiting)) ∧
    (∀ h : FlitHdr, h.crcOk = true → h.known = true → h.seq.toNat = P.rxSeq → h.nak = false → P.unacked = [] → P.backlog = [] → P.role = 2 →
      s.stopped = false → P.inbox = [] → P.hadHeart = false → ∃ u, exec (.resign h) s = .next u ∧ took u.pair ∧ u.pair.stop = true ∧ u.pkg = s.pkg) ∧
    (P.role ≠ 1 ∨ P.ready = false → exec .lagmaxTimeout s = .next s) ∧
    (∀ t, P.role = 1 → P.ready = true → P.lagTicks.getLast? = some t →
      (s.tick ≤ t + P.lagmax * 1600 → exec .lagmaxTimeout s = .next s) ∧
      (t + P.lagmax * 1600 < s.tick → exec .lagmaxTimeout s = .next { s with pair := { P with ready := false, lost := true } }))

/-! ### Onyx and debugging -/

/-- R361-R368, R393: the requests that Onyx serves, one at a time from the oldest doorbell on. A request that breaks its form
ends with BAD_REQ, and one whose block has lost its page with BAD_ADDR; each other ends with the CODE of the first of its checks that
fails, or does its work and ends OK with its result in words 4 to 7 of the block; DONE is set and BUSY cleared. OPEN burns UNLOCKCNT,
then LC, and then opens the port, in steps of their own between which nothing else is served.

The model's own (log 57): these three steps of OPEN, BAD_SIG of a KEYLOAD without an identity key, and BAD_ADDR of a key that cannot be
reached.

Completes: unlock, wipe, openPort, attest, keyload, deploy, retire. -/
def Obligations.OnyxRequests : Prop :=
  ∀ (die : Nat) (s : State), s.onyx.serving = some die →
    let X := s.onyx
    let others := [Instr.unlock die, .wipe die, .attest die, .keyload die, .deploy die, .retire die]
    let w := s.blockWord die 0
    let tag := bits (X.status.get 0 die) 32 32
    let ends := fun (i : Instr) (code : Nat) (Q : State → Prop) => ∃ u, exec i s = .next u ∧ u.onyx.busy.get 0 die = 0 ∧
      u.onyx.status.get 0 die = word (tag * 2 ^ 32 + code * 256 + 2) ∧ u.threads = s.threads ∧ Q u
    let fails := fun (i : Instr) (code : Nat) => ends i code fun u => u.pkg.mem = s.pkg.mem ∧ u.onyx.keys = X.keys ∧ u.onyx.lc = X.lc ∧
      u.onyx.pending = X.pending ∧ u.onyx.unlockCnt = X.unlockCnt ∧ u.onyx.m = X.m
    let all := [Instr.unlock die, .wipe die, .openPort die, .attest die, .keyload die, .deploy die, .retire die]
    (X.burning = true → (∀ i ∈ others, exec i s = .next s) ∧
      (X.lc ≠ 3 → exec (.openPort die) s = .next (s.setOnyx { X with lc := 3 })) ∧
      (X.lc = 3 → ends (.openPort die) 0 fun u => u.onyx.lc = 3 ∧ u.onyx.unlockCnt = X.unlockCnt ∧ u.onyx.dbgOpen = true ∧
        u.onyx.pending = none ∧ u.onyx.burning = false ∧ ∀ a, s.block die = some a →
          u.pkg.mem = (s.pkg.perform none (a + 32) 32 (X.unlockCnt % 2 ^ 16 * 2 ^ 32 + 3)).mem)) ∧
    (X.burning = false → s.block die = none → ∀ i ∈ all, fails i 2) ∧ ∀ a, X.burning = false → s.block die = some a →
    let wrote := fun (u : State) (r : Word) => u.pkg.mem = (s.pkg.perform none (a + 32) 32 r.toNat).mem
    let asks := fun (op len : Nat) => bits w 0 8 = op ∧ bits w 8 8 = 0 ∧ bits w 16 16 = len
    (∀ x ∈ [(Instr.unlock die, 1, 448), (.wipe die, 2, 0), (.openPort die, 3, 0), (.attest die, 4, 32), (.keyload die, 5, 384), (.deploy die, 6, 0),
        (.retire die, 7, 0)], bits w 0 8 = x.2.1 → bits w 8 8 ≠ 0 ∨ bits w 16 16 ≠ x.2.2 → fails x.1 1) ∧
    (∀ i ∈ all, bits w 0 8 = 0 ∨ 7 < bits w 0 8 → fails i 1) ∧
    (asks 1 448 → let at_ := (s.blockWord die 1).toNat
      (at_ % 64 ≠ 0 ∨ s.pkg.pinnedBytes at_ 448 = none → fails (.unlock die) 2) ∧
      ∀ t, at_ % 64 = 0 → s.pkg.pinnedBytes at_ 448 = some t →
        (s.judgeToken t = 0 ↔ field t 0 4 = 0x4C4E5544 ∧ field t 4 2 = 1 ∧ field t 6 2 = 0 ∧ field t 0x11 3 = 0 ∧ field t 0x20 32 = 0 ∧
          field t 0x14 4 ≤ 65535 ∧ Config.pssVerify (t.take 64) ((t.drop 64).take 384) = true ∧ word (field t 8 8) = Config.devId ∧
          field t 0x10 1 = X.lc ∧ (X.lc = 1 ∨ X.lc = 2) ∧ X.unlockCnt < field t 0x14 4) ∧
        (s.judgeToken t ≠ 0 → fails (.unlock die) (s.judgeToken t)) ∧
        (s.judgeToken t = 0 → ends (.unlock die) 0 fun u => u.onyx.pending = some (field t 0x14 4) ∧ wrote u 0 ∧ u.onyx.lc = X.lc ∧
          u.onyx.m.get [] 7 = sha256 (X.measure 7 ++ unlockRecord t X.lc))) ∧
    (asks 2 0 → let mask := bits (s.blockWord die 1) 0 8
      ends (.wipe die) 0 fun u => wrote u (word (X.present.toNat &&& mask)) ∧
        ∀ t, u.onyx.keys.get [] t = if mask.testBit t then [] else X.keys.get [] t) ∧
    (asks 3 0 → (X.present ≠ 0 → fails (.openPort die) 8) ∧ (X.present = 0 → X.pending = none → fails (.openPort die) 9) ∧
      ∀ c, X.present = 0 → X.pending = some c →
        exec (.openPort die) s = .next (s.setOnyx { X with unlockCnt := c, burning := true })) ∧
    (asks 4 32 → let out := (s.blockWord die 2).toNat
      let nonce := s.pkg.pinnedBytes (s.blockWord die 1).toNat 32
      (X.lc = 0 ∨ X.lc = 4 → fails (.attest die) 1) ∧
      (X.lc ≠ 0 → X.lc ≠ 4 → nonce = none ∨ out % 64 ≠ 0 ∨ s.pkg.pinnedBytes out 704 = none → fails (.attest die) 2) ∧
      ∀ n o, X.lc ≠ 0 → X.lc ≠ 4 → nonce = some n → out % 64 = 0 → s.pkg.pinnedBytes out 704 = some o →
        let body := s.report n
        let q := s.pkg.putPinned out (body ++ (Config.pssSign X.nonce body ++ List.replicate 384 0#8).take 384)
        ends (.attest die) 0 fun u =>
          u.pkg.mem = (match q.pinnedAt (s.pkg.oxdb.get 0 die).toNat with
            | some b => q.perform none (b + 32) 32 704
            | none => q).mem ∧ u.onyx.keys = X.keys ∧ u.onyx.lc = X.lc) ∧
    (asks 5 384 → let bytes := s.pkg.pinnedBytes (s.blockWord die 2).toNat 384
      (bytes = none → fails (.keyload die) 2) ∧
      ∀ bs, bytes = some bs →
        (X.identity = false ∨ (∀ k, Config.oaepDecrypt bs = some k → k.length ≠ 32) → fails (.keyload die) 4) ∧
        ∀ k, X.identity = true → Config.oaepDecrypt bs = some k → k.length = 32 →
          (X.lc ≠ 2 ∨ X.pending.isSome = true → fails (.keyload die) 10) ∧
          (X.lc = 2 → X.pending = none → ends (.keyload die) 0 fun u =>
            u.onyx.keys.get [] (bits (s.blockWord die 1) 0 3) = k ∧ wrote u u.onyx.present ∧
            ∀ t, t ≠ bits (s.blockWord die 1) 0 3 → u.onyx.keys.get [] t = X.keys.get [] t)) ∧
    (asks 6 0 → (X.lc ≠ 1 → fails (.deploy die) 6) ∧
      (X.lc = 1 → ends (.deploy die) 0 fun u => u.onyx.lc = 2 ∧ wrote u u.onyx.lcst ∧ u.onyx.keys = X.keys)) ∧
    (asks 7 0 → (X.lc = 0 → fails (.retire die) 6) ∧
      (X.lc ≠ 0 → ends (.retire die) 0 fun u => u.onyx.lc = 4 ∧ u.onyx.keys = [] ∧ u.onyx.identity = false ∧ wrote u u.onyx.lcst))

/-- R387, R391, R394: debugging. A packet to entry 1,022 from J or its debugger is answered by the bench controller: with status
1 for a sender that may not, 3 for a command that is none, 2 for a context of a job that runs. STOP holds the job's tasks from
dispatch and GO lets them go; a record and a saved context are read. The open port halts and releases threads and reads and
writes memory and control registers, as `rdctl` and `wrctl` of the thread would. An answer for which the mailbox has no free entry is offered until
one is.

The model's own: an answer names entry 1,022 (log 80), and what the port writes at an address outside the package leaves at once (log 100).

Completes: stopJob, goJob, rdrec, rdctx, debugHalt, debugRelease, debugAccess. -/
def Obligations.Debugging : Prop :=
  ∀ (id : Nat) (s : State),
    (∀ c m, s.pkg.findMail id = some (c, m) → m.wt = false → m.entry = 1022 → (s.pkg.entryOf m.tenant 1022).isSome = true →
      s.pkg.inMap m.tenant (c / 8) = true → s.pkg.oldMessage m = false →
      let named := bits (m.payload 0) 0 8
      let J := bits (m.payload 1) 0 16
      let own := m.job = J + 0x8000
      let key := m.tenant * 65536 + J
      let B := fun (u : State) => u.pkg.bench (c / 8)
      let answers := fun (i : Instr) (st : Nat) (ws : List Word) (Q : State → Prop) => ∃ u a, exec i s = .next u ∧
        (u.pkg.messages = s.pkg.messages ++ [a] ∨ u.pkg.offers = s.pkg.offers ++ [⟨a, none⟩]) ∧
        (s.pkg.occupied m.src m.pri < 15 → u.pkg.messages = s.pkg.messages ++ [a]) ∧ a.tenant = m.tenant ∧
        a.header = headerOf m.job c (bits (m.payload 0) 16 16) true m.pri 1022 m.src ∧ a.stamp = m.stamp ∧
        a.pay = (word st :: ws) ++ List.replicate (4 - ws.length) 0 ∧ (∀ y ∈ (u.pkg.core c).mail.get [] m.pri, y.id ≠ m.id) ∧
        u.threads = s.threads ∧ Q u
      let any := fun (u : State) => u.pkg.mem = s.pkg.mem
      let heard := fun (u : State) => u.pkg.mem = (s.pkg.useGen (c / 8) m.tenant m.job).mem
      let area := match s.pkg.recordOf m, s.pkg.desc m.tenant with
        | some x, some d => s.pkg.used m.tenant (saveArea d x.1) .load
        | _, _ => s.pkg
      let seen := fun (u : State) => u.pkg.mem = (area.useGen (c / 8) m.tenant m.job).mem
      (∀ i ∈ [Instr.stopJob id, .goJob id, .rdrec id, .rdctx id],
        (¬own → m.job ≠ J → answers i 1 [] any) ∧ (own ∨ m.job = J → named = 0 ∨ 4 < named → answers i 3 [] any)) ∧
      (¬own → m.job = J → (named = 1 → answers (.stopJob id) 1 [] any) ∧ (named = 2 → answers (.goJob id) 1 [] any) ∧
        (named = 4 → answers (.rdctx id) 1 [] any)) ∧
      (own → named = 1 →
        (s.jobRuns (c / 8) m = false → answers (.stopJob id) 0 [] fun u => key ∈ (B u).stopped ∧ heard u) ∧
        (s.jobRuns (c / 8) m = true → ∃ u, exec (.stopJob id) s = .next u ∧ key ∈ (B u).stopped ∧ u.pkg.messages = s.pkg.messages)) ∧
      (own → named = 2 → (∀ i, i < 8 → (s.pkg.core (c / 8 * 8 + i)).waiters = []) →
        answers (.goJob id) 0 [] fun u => (B u).stopped = (B s).stopped.erase key ∧ heard u) ∧
      (own ∨ m.job = J → named = 3 → let n := bits (m.payload 3) 0 3
        (∀ x, s.pkg.recordOf m = some x → n ≤ 4 → answers (.rdrec id) 0 ((List.range 4).map fun i => s.pkg.rd (x.1 + 8 * (n + i))) heard) ∧
        (s.pkg.recordOf m = none ∨ 4 < n → answers (.rdrec id) 3 [] heard)) ∧
      (own → named = 4 → let off := (m.payload 3).toNat
        (key ∉ (B s).stopped → answers (.rdctx id) 2 [] seen) ∧
        (∀ slot r d a, key ∈ (B s).stopped → s.pkg.recordOf m = some (slot, r) → s.pkg.desc m.tenant = some d →
          s.pkg.place m.tenant (saveArea d slot) .load = some a → r.pre = true → off % 8 = 0 → off + 32 ≤ 4096 →
          answers (.rdctx id) 0 ((List.range 4).map fun i => s.pkg.rd (a + off + 8 * i)) seen))) ∧
    (∀ n, let park := fun (x : Option Park) => exec (.debugHalt n) s = .next (s.setThr n { s.thr n with park := x })
      (s.onyx.dbgOpen = true → (s.thr n).park ≠ some .doubleFault → park (some .debugger)) ∧
      (s.onyx.dbgOpen = false ∨ (s.thr n).park = some .doubleFault → exec (.debugHalt n) s = .next s) ∧
      (s.onyx.dbgOpen = true → (s.thr n).park = some .debugger ∨ (s.thr n).park = some .doubleFault →
        exec (.debugRelease n) s = .next (s.setThr n { s.thr n with park := none })) ∧
      (s.onyx.dbgOpen = false → exec (.debugRelease n) s = .next s)) ∧
    (∀ r, s.onyx.dbgOpen = false → exec (.debugAccess r) s = .next s) ∧
    (s.onyx.dbgOpen = true →
      (∀ a n, isForeign a = false → isForeign (a + n) = false → n < 2 ^ 44 →
        let out := (List.range ((n + 7) / 8)).map fun i => Output.debug (s.pkg.rd (a + 8 * i))
        exec (.debugAccess (.readMem a n)) s = .next { s with outputs := s.outputs ++ out }) ∧
      (∀ n r, exec (.debugAccess (.readCtl n r)) s = .next { s with outputs := s.outputs ++ [.debug (s.readCtl n r)] }) ∧
      (∀ on, exec (.debugAccess (.haltOnBrk on)) s = .next (s.setOnyx { s.onyx with haltOnBrk := on })) ∧
      (∀ a bs, a + bs.length ≤ dramEnd → (∀ i, i < bs.length → s.pkg.inTable (a + i) = false) →
        ∃ u, exec (.debugAccess (.writeMem a bs)) s = .next u ∧ u.threads = s.threads ∧ (∀ i, i < bs.length → u.pkg.mem.get 0 (a + i) = bs.getD i 0) ∧
        ∀ x, x < a ∨ a + bs.length ≤ x → u.pkg.mem.get 0 x = s.pkg.mem.get 0 x) ∧
      (∀ a bs, bs ≠ [] → (∀ i, i < bs.length → isForeign (a + i) = true) → ∃ u, exec (.debugAccess (.writeMem a bs)) s = .next u ∧
        u.threads = s.threads ∧ u.pkg = s.pkg ∧ u.outputs = s.outputs ++ [if a < 0x200000000000 then .hostWrite a bs else .peerWrite a bs]) ∧
      (∀ n r v, r ≠ 0x1C0 → let w := { s with cur := n }.writeCtl r v
        exec (.debugAccess (.writeCtl n r v)) s = .next { w.commit n ((w.thr n).writeCtl r v) with cur := s.cur }) ∧
      (∀ n r v, r < 0x100 → ∃ u, exec (.debugAccess (.writeCtl n r v)) s = .next u ∧ u.thr n = (s.thr n).writeCtl r v ∧
        (∀ m, m ≠ n → u.thr m = s.thr m) ∧ u.pkg.mem = s.pkg.mem) ∧
      (∀ n v, isSteward n = true → s.onyx.busy.get 0 (dieOf n) = 0 → exec (.debugAccess (.writeCtl n 0x1C0 v)) s = .next (s.doorbell (dieOf n) v)) ∧
      ∀ n v, isSteward n = false ∨ s.onyx.busy.get 0 (dieOf n) ≠ 0 → exec (.debugAccess (.writeCtl n 0x1C0 v)) s = .next s)
end

