-- ==== Sys2Proof/Laws/Store.lean ====
section
/-! SUPPORT. Sparse containers: a read after a write, and the canonical form that every write keeps. -/

namespace Sys2Proof

variable {α : Type}

@[simp] theorem Store.get_nil (d : α) (k : Nat) : Store.get ([] : Store α) d k = d := rfl

theorem Store.get_erase_self (m : Store α) (d : α) (k : Nat) : Store.get (Store.erase m k) d k = d := by
  induction m with
  | nil => rfl
  | cons p r ih =>
    obtain ⟨k', v⟩ := p
    by_cases h : k' = k
    · simpa only [Store.erase, if_pos h] using ih
    · simpa only [Store.erase, if_neg h, Store.get] using ih

theorem Store.get_erase_ne (m : Store α) (d : α) {k j : Nat} (h : j ≠ k) :
    Store.get (Store.erase m k) d j = Store.get m d j := by
  induction m with
  | nil => rfl
  | cons p r ih =>
    obtain ⟨k', v⟩ := p
    by_cases hk : k' = k
    · subst hk
      simp only [Store.erase, if_pos, Store.get, if_neg (Ne.symm h), ih]
    · by_cases hj : k' = j
      · simp only [Store.erase, if_neg hk, Store.get, if_pos hj]
      · simp only [Store.erase, if_neg hk, Store.get, if_neg hj, ih]

theorem Store.get_insert_ne (m : Store α) (d v : α) {k j : Nat} (h : j ≠ k) :
    Store.get (Store.insert m k v) d j = Store.get m d j := by
  induction m with
  | nil => simp only [Store.insert, Store.get, if_neg (Ne.symm h)]
  | cons p r ih =>
    obtain ⟨k', w⟩ := p
    by_cases hk : k < k'
    · simp only [Store.insert, if_pos hk, Store.get, if_neg (Ne.symm h)]
    · by_cases hj : k' = j
      · simp only [Store.insert, if_neg hk, Store.get, if_pos hj]
      · simp only [Store.insert, if_neg hk, Store.get, if_neg hj, ih]

theorem Store.get_insert_erase_self (m : Store α) (d v : α) (k : Nat) :
    Store.get (Store.insert (Store.erase m k) k v) d k = v := by
  induction m with
  | nil => simp only [Store.erase, Store.insert, Store.get, if_true]
  | cons p r ih =>
    obtain ⟨k', w⟩ := p
    by_cases h : k' = k
    · simpa only [Store.erase, if_pos h] using ih
    · by_cases hk : k < k'
      · simp only [Store.erase, if_neg h, Store.insert, if_pos hk, Store.get, if_true]
      · simpa only [Store.erase, if_neg h, Store.insert, if_neg hk, Store.get] using ih

theorem Store.erase_sub (m : Store α) (k : Nat) : ∀ p ∈ Store.erase m k, p ∈ m ∧ p.1 ≠ k := by
  induction m with
  | nil => intro p hp; cases hp
  | cons q r ih =>
    obtain ⟨k', v⟩ := q
    intro p hp
    by_cases h : k' = k
    · rw [Store.erase, if_pos h] at hp
      exact ⟨List.mem_cons_of_mem _ (ih p hp).1, (ih p hp).2⟩
    · rw [Store.erase, if_neg h] at hp
      rcases List.mem_cons.mp hp with rfl | hp
      · exact ⟨List.mem_cons_self .., h⟩
      · exact ⟨List.mem_cons_of_mem _ (ih p hp).1, (ih p hp).2⟩

theorem Store.insert_mem (m : Store α) (k : Nat) (v : α) : ∀ p ∈ Store.insert m k v, p ∈ m ∨ p = (k, v) := by
  induction m with
  | nil => intro p hp; simpa [Store.insert] using hp
  | cons q r ih =>
    obtain ⟨k', w⟩ := q
    intro p hp
    by_cases h : k < k'
    · rw [Store.insert, if_pos h] at hp
      rcases List.mem_cons.mp hp with rfl | hp
      · exact .inr rfl
      · exact .inl hp
    · rw [Store.insert, if_neg h] at hp
      rcases List.mem_cons.mp hp with rfl | hp
      · exact .inl (List.mem_cons_self ..)
      · exact (ih p hp).imp (List.mem_cons_of_mem _) id

variable [DecidableEq α]

/-- A read of the key written gives the value written. -/
@[simp] theorem Store.get_set_self (m : Store α) (d : α) (k : Nat) (v : α) : (Store.set m d k v).get d k = v := by
  unfold Store.set
  split
  · next h => rw [Store.get_erase_self, h]
  · exact Store.get_insert_erase_self m d v k

/-- A write leaves every other key alone. -/
theorem Store.get_set_ne (m : Store α) (d v : α) {k j : Nat} (h : j ≠ k) : (Store.set m d k v).get d j = m.get d j := by
  unfold Store.set
  split
  · exact Store.get_erase_ne m d h
  · rw [Store.get_insert_ne _ d v h, Store.get_erase_ne m d h]

theorem Store.get_set (m : Store α) (d v : α) (k j : Nat) : (Store.set m d k v).get d j = if j = k then v else m.get d j := by
  by_cases h : j = k
  · subst h; rw [if_pos rfl, Store.get_set_self]
  · rw [if_neg h, Store.get_set_ne m d v h]

/-- Every key of a list is above a bound and no value is the default. -/
def Store.above (d : α) (k : Nat) (m : Store α) : Prop := (∀ p ∈ m, k < p.1 ∧ p.2 ≠ d)

theorem Store.wf_cons (d : α) (k : Nat) (v : α) (r : Store α) :
    Store.wf d ((k, v) :: r) = true ↔ v ≠ d ∧ Store.above d k r ∧ Store.wf d r = true := by
  induction r generalizing k v with
  | nil => simp [Store.wf, Store.above]
  | cons p q ih =>
    obtain ⟨k', v'⟩ := p
    simp only [Store.wf, Bool.and_eq_true, decide_eq_true_eq]
    constructor
    · rintro ⟨⟨hv, hk⟩, hw⟩
      refine ⟨hv, ?_, hw⟩
      obtain ⟨hv', ha, -⟩ := (ih k' v').mp hw
      intro p hp
      rcases List.mem_cons.mp hp with rfl | hp
      · exact ⟨hk, hv'⟩
      · exact ⟨Nat.lt_trans hk (ha p hp).1, (ha p hp).2⟩
    · rintro ⟨hv, ha, hw⟩
      exact ⟨⟨hv, (ha _ (List.mem_cons_self ..)).1⟩, hw⟩

theorem Store.wf_erase (m : Store α) (d : α) (k : Nat) (h : Store.wf d m = true) : Store.wf d (Store.erase m k) = true := by
  induction m with
  | nil => rfl
  | cons p r ih =>
    obtain ⟨k', v⟩ := p
    obtain ⟨hv, ha, hr⟩ := (Store.wf_cons d k' v r).mp h
    by_cases hk : k' = k
    · rw [Store.erase, if_pos hk]; exact ih hr
    · rw [Store.erase, if_neg hk, Store.wf_cons]
      exact ⟨hv, fun p hp => ha p (Store.erase_sub r k p hp).1, ih hr⟩

theorem Store.wf_insert (m : Store α) (d : α) (k : Nat) (v : α) (hv : v ≠ d) (h : Store.wf d m = true)
    (hk : ∀ p ∈ m, p.1 ≠ k) : Store.wf d (Store.insert m k v) = true := by
  induction m with
  | nil => simp [Store.insert, Store.wf, hv]
  | cons p r ih =>
    obtain ⟨k', w⟩ := p
    obtain ⟨hw, ha, hr⟩ := (Store.wf_cons d k' w r).mp h
    have hne : k' ≠ k := hk _ (List.mem_cons_self ..)
    by_cases hlt : k < k'
    · rw [Store.insert, if_pos hlt, Store.wf_cons]
      refine ⟨hv, ?_, h⟩
      intro p hp
      rcases List.mem_cons.mp hp with rfl | hp
      · exact ⟨hlt, hw⟩
      · exact ⟨Nat.lt_trans hlt (ha p hp).1, (ha p hp).2⟩
    · rw [Store.insert, if_neg hlt, Store.wf_cons]
      refine ⟨hw, ?_, ih hr fun p hp => hk p (List.mem_cons_of_mem _ hp)⟩
      intro p hp
      rcases Store.insert_mem r k v p hp with hp | rfl
      · exact ha p hp
      · exact ⟨by omega, hv⟩

/-- Every write keeps the canonical form. -/
theorem Store.wf_set (m : Store α) (d : α) (k : Nat) (v : α) (h : Store.wf d m = true) : Store.wf d (Store.set m d k v) = true := by
  unfold Store.set
  split
  · exact Store.wf_erase m d k h
  · next hv => exact Store.wf_insert _ d k v hv (Store.wf_erase m d k h) fun p hp => (Store.erase_sub m k p hp).2

/-- Leaving out entries keeps the canonical form. -/
theorem Store.wf_filter (m : Store α) (d : α) (f : Nat × α → Bool) (h : Store.wf d m = true) :
    Store.wf d (m.filter f) = true := by
  induction m with
  | nil => rfl
  | cons p r ih =>
    obtain ⟨k, v⟩ := p
    obtain ⟨hv, ha, hr⟩ := (Store.wf_cons d k v r).mp h
    by_cases hf : f (k, v) = true
    · rw [List.filter_cons_of_pos hf, Store.wf_cons]
      exact ⟨hv, fun p hp => ha p (List.mem_filter.mp hp).1, ih hr⟩
    · rw [List.filter_cons_of_neg hf]; exact ih hr

end Sys2Proof
end

