-- ==== Sys2Proof/Laws/State.lean ====
section
/-! SUPPORT. One lemma for each field and each record update the meanings are built from. -/

namespace Sys2Proof.Machine

/-! ### Replacing a thread -/

@[simp] theorem State.setThr_pkg (s : State) (n : Nat) (t : Thread) : (s.setThr n t).pkg = s.pkg := rfl
@[simp] theorem State.setThr_cur (s : State) (n : Nat) (t : Thread) : (s.setThr n t).cur = s.cur := rfl
@[simp] theorem State.setThr_agenda (s : State) (n : Nat) (t : Thread) : (s.setThr n t).agenda = s.agenda := rfl
@[simp] theorem State.setThr_upTo (s : State) (n : Nat) (t : Thread) : (s.setThr n t).upTo = s.upTo := rfl
@[simp] theorem State.setThr_flight (s : State) (n : Nat) (t : Thread) : (s.setThr n t).flight = s.flight := rfl
@[simp] theorem State.setThr_tlbs (s : State) (n : Nat) (t : Thread) : (s.setThr n t).tlbs = s.tlbs := rfl
@[simp] theorem State.setThr_tlb2 (s : State) (n : Nat) (t : Thread) : (s.setThr n t).tlb2 = s.tlb2 := rfl
@[simp] theorem State.setThr_walks (s : State) (n : Nat) (t : Thread) : (s.setThr n t).walks = s.walks := rfl
@[simp] theorem State.setThr_nextId (s : State) (n : Nat) (t : Thread) : (s.setThr n t).nextId = s.nextId := rfl
@[simp] theorem State.setThr_inval (s : State) (n : Nat) (t : Thread) : (s.setThr n t).inval = s.inval := rfl
@[simp] theorem State.setThr_free (s : State) (n : Nat) (t : Thread) : (s.setThr n t).free = s.free := rfl
@[simp] theorem State.setThr_tick (s : State) (n : Nat) (t : Thread) : (s.setThr n t).tick = s.tick := rfl
@[simp] theorem State.setThr_epochTick (s : State) (n : Nat) (t : Thread) : (s.setThr n t).epochTick = s.epochTick := rfl
@[simp] theorem State.setThr_time (s : State) (n : Nat) (t : Thread) : (s.setThr n t).time = s.time := rfl
@[simp] theorem State.setThr_slew (s : State) (n : Nat) (t : Thread) : (s.setThr n t).slew = s.slew := rfl
@[simp] theorem State.setThr_hold (s : State) (n : Nat) (t : Thread) : (s.setThr n t).hold = s.hold := rfl
@[simp] theorem State.setThr_sync (s : State) (n : Nat) (t : Thread) : (s.setThr n t).sync = s.sync := rfl
@[simp] theorem State.setThr_synced (s : State) (n : Nat) (t : Thread) : (s.setThr n t).synced = s.synced := rfl
@[simp] theorem State.setThr_hot (s : State) (n : Nat) (t : Thread) : (s.setThr n t).hot = s.hot := rfl
@[simp] theorem State.setThr_marks (s : State) (n : Nat) (t : Thread) : (s.setThr n t).marks = s.marks := rfl
@[simp] theorem State.setThr_saved (s : State) (n : Nat) (t : Thread) : (s.setThr n t).saved = s.saved := rfl
@[simp] theorem State.setThr_savedPos (s : State) (n : Nat) (t : Thread) : (s.setThr n t).savedPos = s.savedPos := rfl
@[simp] theorem State.setThr_mark (s : State) (n : Nat) (t : Thread) : (s.setThr n t).mark = s.mark := rfl
@[simp] theorem State.setThr_markAt (s : State) (n : Nat) (t : Thread) : (s.setThr n t).markAt = s.markAt := rfl
@[simp] theorem State.setThr_disarmTill (s : State) (n : Nat) (t : Thread) : (s.setThr n t).disarmTill = s.disarmTill := rfl
@[simp] theorem State.setThr_restoreTill (s : State) (n : Nat) (t : Thread) : (s.setThr n t).restoreTill = s.restoreTill := rfl
@[simp] theorem State.setThr_released (s : State) (n : Nat) (t : Thread) : (s.setThr n t).released = s.released := rfl
@[simp] theorem State.setThr_pair (s : State) (n : Nat) (t : Thread) : (s.setThr n t).pair = s.pair := rfl
@[simp] theorem State.setThr_outputs (s : State) (n : Nat) (t : Thread) : (s.setThr n t).outputs = s.outputs := rfl
@[simp] theorem State.setThr_stopped (s : State) (n : Nat) (t : Thread) : (s.setThr n t).stopped = s.stopped := rfl
@[simp] theorem State.setThr_pcieReady (s : State) (n : Nat) (t : Thread) : (s.setThr n t).pcieReady = s.pcieReady := rfl
@[simp] theorem State.setThr_perst (s : State) (n : Nat) (t : Thread) : (s.setThr n t).perst = s.perst := rfl
@[simp] theorem State.setThr_perstAt (s : State) (n : Nat) (t : Thread) : (s.setThr n t).perstAt = s.perstAt := rfl
@[simp] theorem State.setThr_self (s : State) (n : Nat) (t : Thread) : (s.setThr n t).thr n = t := Store.get_set_self ..
theorem State.setThr_ne (s : State) (t : Thread) {n m : Nat} (h : m ≠ n) : (s.setThr n t).thr m = s.thr m := Store.get_set_ne _ _ _ h
@[simp] theorem State.setMe_me (s : State) (t : Thread) : (s.setMe t).me = t := Store.get_set_self ..
@[simp] theorem State.setThr_cur_me (s : State) (t : Thread) : (s.setThr s.cur t).me = t := Store.get_set_self ..

/-! ### Changing the journalled state -/

@[simp] theorem State.updBy_threads (s : State) (a : Actor) (g : Pkg → Pkg) : (s.updBy a g).threads = s.threads := rfl
@[simp] theorem State.updBy_cur (s : State) (a : Actor) (g : Pkg → Pkg) : (s.updBy a g).cur = s.cur := rfl
@[simp] theorem State.updBy_agenda (s : State) (a : Actor) (g : Pkg → Pkg) : (s.updBy a g).agenda = s.agenda := rfl
@[simp] theorem State.updBy_upTo (s : State) (a : Actor) (g : Pkg → Pkg) : (s.updBy a g).upTo = s.upTo := rfl
@[simp] theorem State.updBy_flight (s : State) (a : Actor) (g : Pkg → Pkg) : (s.updBy a g).flight = s.flight := rfl
@[simp] theorem State.updBy_tlbs (s : State) (a : Actor) (g : Pkg → Pkg) : (s.updBy a g).tlbs = s.tlbs := rfl
@[simp] theorem State.updBy_tlb2 (s : State) (a : Actor) (g : Pkg → Pkg) : (s.updBy a g).tlb2 = s.tlb2 := rfl
@[simp] theorem State.updBy_walks (s : State) (a : Actor) (g : Pkg → Pkg) : (s.updBy a g).walks = s.walks := rfl
@[simp] theorem State.updBy_nextId (s : State) (a : Actor) (g : Pkg → Pkg) : (s.updBy a g).nextId = s.nextId := rfl
@[simp] theorem State.updBy_inval (s : State) (a : Actor) (g : Pkg → Pkg) : (s.updBy a g).inval = s.inval := rfl
@[simp] theorem State.updBy_free (s : State) (a : Actor) (g : Pkg → Pkg) : (s.updBy a g).free = s.free := rfl
@[simp] theorem State.updBy_tick (s : State) (a : Actor) (g : Pkg → Pkg) : (s.updBy a g).tick = s.tick := rfl
@[simp] theorem State.updBy_epochTick (s : State) (a : Actor) (g : Pkg → Pkg) : (s.updBy a g).epochTick = s.epochTick := rfl
@[simp] theorem State.updBy_time (s : State) (a : Actor) (g : Pkg → Pkg) : (s.updBy a g).time = s.time := rfl
@[simp] theorem State.updBy_slew (s : State) (a : Actor) (g : Pkg → Pkg) : (s.updBy a g).slew = s.slew := rfl
@[simp] theorem State.updBy_hold (s : State) (a : Actor) (g : Pkg → Pkg) : (s.updBy a g).hold = s.hold := rfl
@[simp] theorem State.updBy_sync (s : State) (a : Actor) (g : Pkg → Pkg) : (s.updBy a g).sync = s.sync := rfl
@[simp] theorem State.updBy_synced (s : State) (a : Actor) (g : Pkg → Pkg) : (s.updBy a g).synced = s.synced := rfl
@[simp] theorem State.updBy_hot (s : State) (a : Actor) (g : Pkg → Pkg) : (s.updBy a g).hot = s.hot := rfl
@[simp] theorem State.updBy_saved (s : State) (a : Actor) (g : Pkg → Pkg) : (s.updBy a g).saved = s.saved := rfl
@[simp] theorem State.updBy_savedPos (s : State) (a : Actor) (g : Pkg → Pkg) : (s.updBy a g).savedPos = s.savedPos := rfl
@[simp] theorem State.updBy_mark (s : State) (a : Actor) (g : Pkg → Pkg) : (s.updBy a g).mark = s.mark := rfl
@[simp] theorem State.updBy_markAt (s : State) (a : Actor) (g : Pkg → Pkg) : (s.updBy a g).markAt = s.markAt := rfl
@[simp] theorem State.updBy_disarmTill (s : State) (a : Actor) (g : Pkg → Pkg) : (s.updBy a g).disarmTill = s.disarmTill := rfl
@[simp] theorem State.updBy_restoreTill (s : State) (a : Actor) (g : Pkg → Pkg) : (s.updBy a g).restoreTill = s.restoreTill := rfl
@[simp] theorem State.updBy_released (s : State) (a : Actor) (g : Pkg → Pkg) : (s.updBy a g).released = s.released := rfl
@[simp] theorem State.updBy_pair (s : State) (a : Actor) (g : Pkg → Pkg) : (s.updBy a g).pair = s.pair := rfl
@[simp] theorem State.updBy_outputs (s : State) (a : Actor) (g : Pkg → Pkg) : (s.updBy a g).outputs = s.outputs := rfl
@[simp] theorem State.updBy_stopped (s : State) (a : Actor) (g : Pkg → Pkg) : (s.updBy a g).stopped = s.stopped := rfl
@[simp] theorem State.updBy_pcieReady (s : State) (a : Actor) (g : Pkg → Pkg) : (s.updBy a g).pcieReady = s.pcieReady := rfl
@[simp] theorem State.updBy_perst (s : State) (a : Actor) (g : Pkg → Pkg) : (s.updBy a g).perst = s.perst := rfl
@[simp] theorem State.updBy_perstAt (s : State) (a : Actor) (g : Pkg → Pkg) : (s.updBy a g).perstAt = s.perstAt := rfl
@[simp] theorem State.updBy_pkg (s : State) (a : Actor) (g : Pkg → Pkg) : (s.updBy a g).pkg = g s.pkg := rfl
@[simp] theorem State.updBy_thr (s : State) (a : Actor) (g : Pkg → Pkg) (n : Nat) : (s.updBy a g).thr n = s.thr n := rfl
@[simp] theorem State.updBy_me (s : State) (a : Actor) (g : Pkg → Pkg) : (s.updBy a g).me = s.me := rfl
@[simp] theorem State.upd_pkg (s : State) (g : Pkg → Pkg) : (s.upd g).pkg = g s.pkg := rfl
@[simp] theorem State.upd_me (s : State) (g : Pkg → Pkg) : (s.upd g).me = s.me := rfl
@[simp] theorem State.upd_cur (s : State) (g : Pkg → Pkg) : (s.upd g).cur = s.cur := rfl

/-! ### Parts of the package -/

@[simp] theorem Pkg.onCore_mem (p : Pkg) (c : Nat) (g : Core → Core) : (p.onCore c g).mem = p.mem := rfl
@[simp] theorem Pkg.onCore_hist (p : Pkg) (c : Nat) (g : Core → Core) : (p.onCore c g).hist = p.hist := rfl
@[simp] theorem Pkg.onCore_histN (p : Pkg) (c : Nat) (g : Core → Core) : (p.onCore c g).histN = p.histN := rfl
@[simp] theorem Pkg.onCore_seqs (p : Pkg) (c : Nat) (g : Core → Core) : (p.onCore c g).seqs = p.seqs := rfl
@[simp] theorem Pkg.onCore_benches (p : Pkg) (c : Nat) (g : Core → Core) : (p.onCore c g).benches = p.benches := rfl
@[simp] theorem Pkg.onCore_ops (p : Pkg) (c : Nat) (g : Core → Core) : (p.onCore c g).ops = p.ops := rfl
@[simp] theorem Pkg.onCore_gens (p : Pkg) (c : Nat) (g : Core → Core) : (p.onCore c g).gens = p.gens := rfl
@[simp] theorem Pkg.onCore_slotWits (p : Pkg) (c : Nat) (g : Core → Core) : (p.onCore c g).slotWits = p.slotWits := rfl
@[simp] theorem Pkg.onCore_fences (p : Pkg) (c : Nat) (g : Core → Core) : (p.onCore c g).fences = p.fences := rfl
@[simp] theorem Pkg.onCore_fenceN (p : Pkg) (c : Nat) (g : Core → Core) : (p.onCore c g).fenceN = p.fenceN := rfl
@[simp] theorem Pkg.onCore_fencesOut (p : Pkg) (c : Nat) (g : Core → Core) : (p.onCore c g).fencesOut = p.fencesOut := rfl
@[simp] theorem Pkg.onCore_sleepers (p : Pkg) (c : Nat) (g : Core → Core) : (p.onCore c g).sleepers = p.sleepers := rfl
@[simp] theorem Pkg.onCore_passes (p : Pkg) (c : Nat) (g : Core → Core) : (p.onCore c g).passes = p.passes := rfl
@[simp] theorem Pkg.onCore_messages (p : Pkg) (c : Nat) (g : Core → Core) : (p.onCore c g).messages = p.messages := rfl
@[simp] theorem Pkg.onCore_adds (p : Pkg) (c : Nat) (g : Core → Core) : (p.onCore c g).adds = p.adds := rfl
@[simp] theorem Pkg.onCore_asks (p : Pkg) (c : Nat) (g : Core → Core) : (p.onCore c g).asks = p.asks := rfl
@[simp] theorem Pkg.onCore_cancels (p : Pkg) (c : Nat) (g : Core → Core) : (p.onCore c g).cancels = p.cancels := rfl
@[simp] theorem Pkg.onCore_offers (p : Pkg) (c : Nat) (g : Core → Core) : (p.onCore c g).offers = p.offers := rfl
@[simp] theorem Pkg.onCore_waits (p : Pkg) (c : Nat) (g : Core → Core) : (p.onCore c g).waits = p.waits := rfl
@[simp] theorem Pkg.onCore_runs (p : Pkg) (c : Nat) (g : Core → Core) : (p.onCore c g).runs = p.runs := rfl
@[simp] theorem Pkg.onCore_arrival (p : Pkg) (c : Nat) (g : Core → Core) : (p.onCore c g).arrival = p.arrival := rfl
@[simp] theorem Pkg.onCore_descs (p : Pkg) (c : Nat) (g : Core → Core) : (p.onCore c g).descs = p.descs := rfl
@[simp] theorem Pkg.onCore_policies (p : Pkg) (c : Nat) (g : Core → Core) : (p.onCore c g).policies = p.policies := rfl
@[simp] theorem Pkg.onCore_classes (p : Pkg) (c : Nat) (g : Core → Core) : (p.onCore c g).classes = p.classes := rfl
@[simp] theorem Pkg.onCore_ecur (p : Pkg) (c : Nat) (g : Core → Core) : (p.onCore c g).ecur = p.ecur := rfl
@[simp] theorem Pkg.onCore_vroot (p : Pkg) (c : Nat) (g : Core → Core) : (p.onCore c g).vroot = p.vroot := rfl
@[simp] theorem Pkg.onCore_horizons (p : Pkg) (c : Nat) (g : Core → Core) : (p.onCore c g).horizons = p.horizons := rfl
@[simp] theorem Pkg.onCore_filling (p : Pkg) (c : Nat) (g : Core → Core) : (p.onCore c g).filling = p.filling := rfl
@[simp] theorem Pkg.onCore_filters (p : Pkg) (c : Nat) (g : Core → Core) : (p.onCore c g).filters = p.filters := rfl
@[simp] theorem Pkg.onCore_gates (p : Pkg) (c : Nat) (g : Core → Core) : (p.onCore c g).gates = p.gates := rfl
@[simp] theorem Pkg.onCore_rtags (p : Pkg) (c : Nat) (g : Core → Core) : (p.onCore c g).rtags = p.rtags := rfl
@[simp] theorem Pkg.onCore_recoveries (p : Pkg) (c : Nat) (g : Core → Core) : (p.onCore c g).recoveries = p.recoveries := rfl
@[simp] theorem Pkg.onCore_splits (p : Pkg) (c : Nat) (g : Core → Core) : (p.onCore c g).splits = p.splits := rfl
@[simp] theorem Pkg.onCore_ports (p : Pkg) (c : Nat) (g : Core → Core) : (p.onCore c g).ports = p.ports := rfl
@[simp] theorem Pkg.onCore_snaps (p : Pkg) (c : Nat) (g : Core → Core) : (p.onCore c g).snaps = p.snaps := rfl
@[simp] theorem Pkg.onCore_committed (p : Pkg) (c : Nat) (g : Core → Core) : (p.onCore c g).committed = p.committed := rfl
@[simp] theorem Pkg.onCore_pubs (p : Pkg) (c : Nat) (g : Core → Core) : (p.onCore c g).pubs = p.pubs := rfl
@[simp] theorem Pkg.onCore_budgets (p : Pkg) (c : Nat) (g : Core → Core) : (p.onCore c g).budgets = p.budgets := rfl
@[simp] theorem Pkg.onCore_liveRel (p : Pkg) (c : Nat) (g : Core → Core) : (p.onCore c g).liveRel = p.liveRel := rfl
@[simp] theorem Pkg.onCore_reqs (p : Pkg) (c : Nat) (g : Core → Core) : (p.onCore c g).reqs = p.reqs := rfl
@[simp] theorem Pkg.onCore_reqId (p : Pkg) (c : Nat) (g : Core → Core) : (p.onCore c g).reqId = p.reqId := rfl
@[simp] theorem Pkg.onCore_moves (p : Pkg) (c : Nat) (g : Core → Core) : (p.onCore c g).moves = p.moves := rfl
@[simp] theorem Pkg.onCore_migUses (p : Pkg) (c : Nat) (g : Core → Core) : (p.onCore c g).migUses = p.migUses := rfl
@[simp] theorem Pkg.onCore_migrants (p : Pkg) (c : Nat) (g : Core → Core) : (p.onCore c g).migrants = p.migrants := rfl
@[simp] theorem Pkg.onCore_pgov (p : Pkg) (c : Nat) (g : Core → Core) : (p.onCore c g).pgov = p.pgov := rfl
@[simp] theorem Pkg.onCore_l2lk (p : Pkg) (c : Nat) (g : Core → Core) : (p.onCore c g).l2lk = p.l2lk := rfl
@[simp] theorem Pkg.onCore_badlnch (p : Pkg) (c : Nat) (g : Core → Core) : (p.onCore c g).badlnch = p.badlnch := rfl
@[simp] theorem Pkg.onCore_orphans (p : Pkg) (c : Nat) (g : Core → Core) : (p.onCore c g).orphans = p.orphans := rfl
@[simp] theorem Pkg.onCore_cancelHeld (p : Pkg) (c : Nat) (g : Core → Core) : (p.onCore c g).cancelHeld = p.cancelHeld := rfl
@[simp] theorem Pkg.onCore_failures (p : Pkg) (c : Nat) (g : Core → Core) : (p.onCore c g).failures = p.failures := rfl
@[simp] theorem Pkg.onCore_svcSeq (p : Pkg) (c : Nat) (g : Core → Core) : (p.onCore c g).svcSeq = p.svcSeq := rfl
@[simp] theorem Pkg.onCore_svcOpen (p : Pkg) (c : Nat) (g : Core → Core) : (p.onCore c g).svcOpen = p.svcOpen := rfl
@[simp] theorem Pkg.onCore_svcWait (p : Pkg) (c : Nat) (g : Core → Core) : (p.onCore c g).svcWait = p.svcWait := rfl
@[simp] theorem Pkg.onCore_svcDropped (p : Pkg) (c : Nat) (g : Core → Core) : (p.onCore c g).svcDropped = p.svcDropped := rfl
@[simp] theorem Pkg.onCore_poisoned (p : Pkg) (c : Nat) (g : Core → Core) : (p.onCore c g).poisoned = p.poisoned := rfl
@[simp] theorem Pkg.onCore_errLines (p : Pkg) (c : Nat) (g : Core → Core) : (p.onCore c g).errLines = p.errLines := rfl
@[simp] theorem Pkg.onCore_checkDue (p : Pkg) (c : Nat) (g : Core → Core) : (p.onCore c g).checkDue = p.checkDue := rfl
@[simp] theorem Pkg.onCore_areaLost (p : Pkg) (c : Nat) (g : Core → Core) : (p.onCore c g).areaLost = p.areaLost := rfl
@[simp] theorem Pkg.onCore_applied (p : Pkg) (c : Nat) (g : Core → Core) : (p.onCore c g).applied = p.applied := rfl
@[simp] theorem Pkg.onCore_spares (p : Pkg) (c : Nat) (g : Core → Core) : (p.onCore c g).spares = p.spares := rfl
@[simp] theorem Pkg.onCore_spareLeaf (p : Pkg) (c : Nat) (g : Core → Core) : (p.onCore c g).spareLeaf = p.spareLeaf := rfl
@[simp] theorem Pkg.onCore_away (p : Pkg) (c : Nat) (g : Core → Core) : (p.onCore c g).away = p.away := rfl
@[simp] theorem Pkg.onCore_engAway (p : Pkg) (c : Nat) (g : Core → Core) : (p.onCore c g).engAway = p.engAway := rfl
@[simp] theorem Pkg.onCore_vecs (p : Pkg) (c : Nat) (g : Core → Core) : (p.onCore c g).vecs = p.vecs := rfl
@[simp] theorem Pkg.onCore_onyx (p : Pkg) (c : Nat) (g : Core → Core) : (p.onCore c g).onyx = p.onyx := rfl
@[simp] theorem Pkg.onCore_oxdb (p : Pkg) (c : Nat) (g : Core → Core) : (p.onCore c g).oxdb = p.oxdb := rfl
@[simp] theorem Pkg.onBench_mem (p : Pkg) (c : Nat) (g : Bench → Bench) : (p.onBench c g).mem = p.mem := rfl
@[simp] theorem Pkg.onBench_hist (p : Pkg) (c : Nat) (g : Bench → Bench) : (p.onBench c g).hist = p.hist := rfl
@[simp] theorem Pkg.onBench_histN (p : Pkg) (c : Nat) (g : Bench → Bench) : (p.onBench c g).histN = p.histN := rfl
@[simp] theorem Pkg.onBench_seqs (p : Pkg) (c : Nat) (g : Bench → Bench) : (p.onBench c g).seqs = p.seqs := rfl
@[simp] theorem Pkg.onBench_cores (p : Pkg) (c : Nat) (g : Bench → Bench) : (p.onBench c g).cores = p.cores := rfl
@[simp] theorem Pkg.onBench_ops (p : Pkg) (c : Nat) (g : Bench → Bench) : (p.onBench c g).ops = p.ops := rfl
@[simp] theorem Pkg.onBench_gens (p : Pkg) (c : Nat) (g : Bench → Bench) : (p.onBench c g).gens = p.gens := rfl
@[simp] theorem Pkg.onBench_slotWits (p : Pkg) (c : Nat) (g : Bench → Bench) : (p.onBench c g).slotWits = p.slotWits := rfl
@[simp] theorem Pkg.onBench_fences (p : Pkg) (c : Nat) (g : Bench → Bench) : (p.onBench c g).fences = p.fences := rfl
@[simp] theorem Pkg.onBench_fenceN (p : Pkg) (c : Nat) (g : Bench → Bench) : (p.onBench c g).fenceN = p.fenceN := rfl
@[simp] theorem Pkg.onBench_fencesOut (p : Pkg) (c : Nat) (g : Bench → Bench) : (p.onBench c g).fencesOut = p.fencesOut := rfl
@[simp] theorem Pkg.onBench_sleepers (p : Pkg) (c : Nat) (g : Bench → Bench) : (p.onBench c g).sleepers = p.sleepers := rfl
@[simp] theorem Pkg.onBench_passes (p : Pkg) (c : Nat) (g : Bench → Bench) : (p.onBench c g).passes = p.passes := rfl
@[simp] theorem Pkg.onBench_messages (p : Pkg) (c : Nat) (g : Bench → Bench) : (p.onBench c g).messages = p.messages := rfl
@[simp] theorem Pkg.onBench_adds (p : Pkg) (c : Nat) (g : Bench → Bench) : (p.onBench c g).adds = p.adds := rfl
@[simp] theorem Pkg.onBench_asks (p : Pkg) (c : Nat) (g : Bench → Bench) : (p.onBench c g).asks = p.asks := rfl
@[simp] theorem Pkg.onBench_cancels (p : Pkg) (c : Nat) (g : Bench → Bench) : (p.onBench c g).cancels = p.cancels := rfl
@[simp] theorem Pkg.onBench_offers (p : Pkg) (c : Nat) (g : Bench → Bench) : (p.onBench c g).offers = p.offers := rfl
@[simp] theorem Pkg.onBench_waits (p : Pkg) (c : Nat) (g : Bench → Bench) : (p.onBench c g).waits = p.waits := rfl
@[simp] theorem Pkg.onBench_runs (p : Pkg) (c : Nat) (g : Bench → Bench) : (p.onBench c g).runs = p.runs := rfl
@[simp] theorem Pkg.onBench_arrival (p : Pkg) (c : Nat) (g : Bench → Bench) : (p.onBench c g).arrival = p.arrival := rfl
@[simp] theorem Pkg.onBench_descs (p : Pkg) (c : Nat) (g : Bench → Bench) : (p.onBench c g).descs = p.descs := rfl
@[simp] theorem Pkg.onBench_policies (p : Pkg) (c : Nat) (g : Bench → Bench) : (p.onBench c g).policies = p.policies := rfl
@[simp] theorem Pkg.onBench_classes (p : Pkg) (c : Nat) (g : Bench → Bench) : (p.onBench c g).classes = p.classes := rfl
@[simp] theorem Pkg.onBench_ecur (p : Pkg) (c : Nat) (g : Bench → Bench) : (p.onBench c g).ecur = p.ecur := rfl
@[simp] theorem Pkg.onBench_vroot (p : Pkg) (c : Nat) (g : Bench → Bench) : (p.onBench c g).vroot = p.vroot := rfl
@[simp] theorem Pkg.onBench_horizons (p : Pkg) (c : Nat) (g : Bench → Bench) : (p.onBench c g).horizons = p.horizons := rfl
@[simp] theorem Pkg.onBench_filling (p : Pkg) (c : Nat) (g : Bench → Bench) : (p.onBench c g).filling = p.filling := rfl
@[simp] theorem Pkg.onBench_filters (p : Pkg) (c : Nat) (g : Bench → Bench) : (p.onBench c g).filters = p.filters := rfl
@[simp] theorem Pkg.onBench_gates (p : Pkg) (c : Nat) (g : Bench → Bench) : (p.onBench c g).gates = p.gates := rfl
@[simp] theorem Pkg.onBench_rtags (p : Pkg) (c : Nat) (g : Bench → Bench) : (p.onBench c g).rtags = p.rtags := rfl
@[simp] theorem Pkg.onBench_recoveries (p : Pkg) (c : Nat) (g : Bench → Bench) : (p.onBench c g).recoveries = p.recoveries := rfl
@[simp] theorem Pkg.onBench_splits (p : Pkg) (c : Nat) (g : Bench → Bench) : (p.onBench c g).splits = p.splits := rfl
@[simp] theorem Pkg.onBench_ports (p : Pkg) (c : Nat) (g : Bench → Bench) : (p.onBench c g).ports = p.ports := rfl
@[simp] theorem Pkg.onBench_snaps (p : Pkg) (c : Nat) (g : Bench → Bench) : (p.onBench c g).snaps = p.snaps := rfl
@[simp] theorem Pkg.onBench_committed (p : Pkg) (c : Nat) (g : Bench → Bench) : (p.onBench c g).committed = p.committed := rfl
@[simp] theorem Pkg.onBench_pubs (p : Pkg) (c : Nat) (g : Bench → Bench) : (p.onBench c g).pubs = p.pubs := rfl
@[simp] theorem Pkg.onBench_budgets (p : Pkg) (c : Nat) (g : Bench → Bench) : (p.onBench c g).budgets = p.budgets := rfl
@[simp] theorem Pkg.onBench_liveRel (p : Pkg) (c : Nat) (g : Bench → Bench) : (p.onBench c g).liveRel = p.liveRel := rfl
@[simp] theorem Pkg.onBench_reqs (p : Pkg) (c : Nat) (g : Bench → Bench) : (p.onBench c g).reqs = p.reqs := rfl
@[simp] theorem Pkg.onBench_reqId (p : Pkg) (c : Nat) (g : Bench → Bench) : (p.onBench c g).reqId = p.reqId := rfl
@[simp] theorem Pkg.onBench_moves (p : Pkg) (c : Nat) (g : Bench → Bench) : (p.onBench c g).moves = p.moves := rfl
@[simp] theorem Pkg.onBench_migUses (p : Pkg) (c : Nat) (g : Bench → Bench) : (p.onBench c g).migUses = p.migUses := rfl
@[simp] theorem Pkg.onBench_migrants (p : Pkg) (c : Nat) (g : Bench → Bench) : (p.onBench c g).migrants = p.migrants := rfl
@[simp] theorem Pkg.onBench_pgov (p : Pkg) (c : Nat) (g : Bench → Bench) : (p.onBench c g).pgov = p.pgov := rfl
@[simp] theorem Pkg.onBench_l2lk (p : Pkg) (c : Nat) (g : Bench → Bench) : (p.onBench c g).l2lk = p.l2lk := rfl
@[simp] theorem Pkg.onBench_badlnch (p : Pkg) (c : Nat) (g : Bench → Bench) : (p.onBench c g).badlnch = p.badlnch := rfl
@[simp] theorem Pkg.onBench_orphans (p : Pkg) (c : Nat) (g : Bench → Bench) : (p.onBench c g).orphans = p.orphans := rfl
@[simp] theorem Pkg.onBench_cancelHeld (p : Pkg) (c : Nat) (g : Bench → Bench) : (p.onBench c g).cancelHeld = p.cancelHeld := rfl
@[simp] theorem Pkg.onBench_failures (p : Pkg) (c : Nat) (g : Bench → Bench) : (p.onBench c g).failures = p.failures := rfl
@[simp] theorem Pkg.onBench_svcSeq (p : Pkg) (c : Nat) (g : Bench → Bench) : (p.onBench c g).svcSeq = p.svcSeq := rfl
@[simp] theorem Pkg.onBench_svcOpen (p : Pkg) (c : Nat) (g : Bench → Bench) : (p.onBench c g).svcOpen = p.svcOpen := rfl
@[simp] theorem Pkg.onBench_svcWait (p : Pkg) (c : Nat) (g : Bench → Bench) : (p.onBench c g).svcWait = p.svcWait := rfl
@[simp] theorem Pkg.onBench_svcDropped (p : Pkg) (c : Nat) (g : Bench → Bench) : (p.onBench c g).svcDropped = p.svcDropped := rfl
@[simp] theorem Pkg.onBench_poisoned (p : Pkg) (c : Nat) (g : Bench → Bench) : (p.onBench c g).poisoned = p.poisoned := rfl
@[simp] theorem Pkg.onBench_errLines (p : Pkg) (c : Nat) (g : Bench → Bench) : (p.onBench c g).errLines = p.errLines := rfl
@[simp] theorem Pkg.onBench_checkDue (p : Pkg) (c : Nat) (g : Bench → Bench) : (p.onBench c g).checkDue = p.checkDue := rfl
@[simp] theorem Pkg.onBench_areaLost (p : Pkg) (c : Nat) (g : Bench → Bench) : (p.onBench c g).areaLost = p.areaLost := rfl
@[simp] theorem Pkg.onBench_applied (p : Pkg) (c : Nat) (g : Bench → Bench) : (p.onBench c g).applied = p.applied := rfl
@[simp] theorem Pkg.onBench_spares (p : Pkg) (c : Nat) (g : Bench → Bench) : (p.onBench c g).spares = p.spares := rfl
@[simp] theorem Pkg.onBench_spareLeaf (p : Pkg) (c : Nat) (g : Bench → Bench) : (p.onBench c g).spareLeaf = p.spareLeaf := rfl
@[simp] theorem Pkg.onBench_away (p : Pkg) (c : Nat) (g : Bench → Bench) : (p.onBench c g).away = p.away := rfl
@[simp] theorem Pkg.onBench_engAway (p : Pkg) (c : Nat) (g : Bench → Bench) : (p.onBench c g).engAway = p.engAway := rfl
@[simp] theorem Pkg.onBench_vecs (p : Pkg) (c : Nat) (g : Bench → Bench) : (p.onBench c g).vecs = p.vecs := rfl
@[simp] theorem Pkg.onBench_onyx (p : Pkg) (c : Nat) (g : Bench → Bench) : (p.onBench c g).onyx = p.onyx := rfl
@[simp] theorem Pkg.onBench_oxdb (p : Pkg) (c : Nat) (g : Bench → Bench) : (p.onBench c g).oxdb = p.oxdb := rfl
@[simp] theorem Pkg.onClass_mem (p : Pkg) (c : Nat) (g : Class → Class) : (p.onClass c g).mem = p.mem := rfl
@[simp] theorem Pkg.onClass_hist (p : Pkg) (c : Nat) (g : Class → Class) : (p.onClass c g).hist = p.hist := rfl
@[simp] theorem Pkg.onClass_histN (p : Pkg) (c : Nat) (g : Class → Class) : (p.onClass c g).histN = p.histN := rfl
@[simp] theorem Pkg.onClass_seqs (p : Pkg) (c : Nat) (g : Class → Class) : (p.onClass c g).seqs = p.seqs := rfl
@[simp] theorem Pkg.onClass_cores (p : Pkg) (c : Nat) (g : Class → Class) : (p.onClass c g).cores = p.cores := rfl
@[simp] theorem Pkg.onClass_benches (p : Pkg) (c : Nat) (g : Class → Class) : (p.onClass c g).benches = p.benches := rfl
@[simp] theorem Pkg.onClass_ops (p : Pkg) (c : Nat) (g : Class → Class) : (p.onClass c g).ops = p.ops := rfl
@[simp] theorem Pkg.onClass_gens (p : Pkg) (c : Nat) (g : Class → Class) : (p.onClass c g).gens = p.gens := rfl
@[simp] theorem Pkg.onClass_slotWits (p : Pkg) (c : Nat) (g : Class → Class) : (p.onClass c g).slotWits = p.slotWits := rfl
@[simp] theorem Pkg.onClass_fences (p : Pkg) (c : Nat) (g : Class → Class) : (p.onClass c g).fences = p.fences := rfl
@[simp] theorem Pkg.onClass_fenceN (p : Pkg) (c : Nat) (g : Class → Class) : (p.onClass c g).fenceN = p.fenceN := rfl
@[simp] theorem Pkg.onClass_fencesOut (p : Pkg) (c : Nat) (g : Class → Class) : (p.onClass c g).fencesOut = p.fencesOut := rfl
@[simp] theorem Pkg.onClass_sleepers (p : Pkg) (c : Nat) (g : Class → Class) : (p.onClass c g).sleepers = p.sleepers := rfl
@[simp] theorem Pkg.onClass_passes (p : Pkg) (c : Nat) (g : Class → Class) : (p.onClass c g).passes = p.passes := rfl
@[simp] theorem Pkg.onClass_messages (p : Pkg) (c : Nat) (g : Class → Class) : (p.onClass c g).messages = p.messages := rfl
@[simp] theorem Pkg.onClass_adds (p : Pkg) (c : Nat) (g : Class → Class) : (p.onClass c g).adds = p.adds := rfl
@[simp] theorem Pkg.onClass_asks (p : Pkg) (c : Nat) (g : Class → Class) : (p.onClass c g).asks = p.asks := rfl
@[simp] theorem Pkg.onClass_cancels (p : Pkg) (c : Nat) (g : Class → Class) : (p.onClass c g).cancels = p.cancels := rfl
@[simp] theorem Pkg.onClass_offers (p : Pkg) (c : Nat) (g : Class → Class) : (p.onClass c g).offers = p.offers := rfl
@[simp] theorem Pkg.onClass_waits (p : Pkg) (c : Nat) (g : Class → Class) : (p.onClass c g).waits = p.waits := rfl
@[simp] theorem Pkg.onClass_runs (p : Pkg) (c : Nat) (g : Class → Class) : (p.onClass c g).runs = p.runs := rfl
@[simp] theorem Pkg.onClass_arrival (p : Pkg) (c : Nat) (g : Class → Class) : (p.onClass c g).arrival = p.arrival := rfl
@[simp] theorem Pkg.onClass_descs (p : Pkg) (c : Nat) (g : Class → Class) : (p.onClass c g).descs = p.descs := rfl
@[simp] theorem Pkg.onClass_policies (p : Pkg) (c : Nat) (g : Class → Class) : (p.onClass c g).policies = p.policies := rfl
@[simp] theorem Pkg.onClass_ecur (p : Pkg) (c : Nat) (g : Class → Class) : (p.onClass c g).ecur = p.ecur := rfl
@[simp] theorem Pkg.onClass_vroot (p : Pkg) (c : Nat) (g : Class → Class) : (p.onClass c g).vroot = p.vroot := rfl
@[simp] theorem Pkg.onClass_horizons (p : Pkg) (c : Nat) (g : Class → Class) : (p.onClass c g).horizons = p.horizons := rfl
@[simp] theorem Pkg.onClass_filling (p : Pkg) (c : Nat) (g : Class → Class) : (p.onClass c g).filling = p.filling := rfl
@[simp] theorem Pkg.onClass_filters (p : Pkg) (c : Nat) (g : Class → Class) : (p.onClass c g).filters = p.filters := rfl
@[simp] theorem Pkg.onClass_gates (p : Pkg) (c : Nat) (g : Class → Class) : (p.onClass c g).gates = p.gates := rfl
@[simp] theorem Pkg.onClass_rtags (p : Pkg) (c : Nat) (g : Class → Class) : (p.onClass c g).rtags = p.rtags := rfl
@[simp] theorem Pkg.onClass_recoveries (p : Pkg) (c : Nat) (g : Class → Class) : (p.onClass c g).recoveries = p.recoveries := rfl
@[simp] theorem Pkg.onClass_splits (p : Pkg) (c : Nat) (g : Class → Class) : (p.onClass c g).splits = p.splits := rfl
@[simp] theorem Pkg.onClass_ports (p : Pkg) (c : Nat) (g : Class → Class) : (p.onClass c g).ports = p.ports := rfl
@[simp] theorem Pkg.onClass_snaps (p : Pkg) (c : Nat) (g : Class → Class) : (p.onClass c g).snaps = p.snaps := rfl
@[simp] theorem Pkg.onClass_committed (p : Pkg) (c : Nat) (g : Class → Class) : (p.onClass c g).committed = p.committed := rfl
@[simp] theorem Pkg.onClass_pubs (p : Pkg) (c : Nat) (g : Class → Class) : (p.onClass c g).pubs = p.pubs := rfl
@[simp] theorem Pkg.onClass_budgets (p : Pkg) (c : Nat) (g : Class → Class) : (p.onClass c g).budgets = p.budgets := rfl
@[simp] theorem Pkg.onClass_liveRel (p : Pkg) (c : Nat) (g : Class → Class) : (p.onClass c g).liveRel = p.liveRel := rfl
@[simp] theorem Pkg.onClass_reqs (p : Pkg) (c : Nat) (g : Class → Class) : (p.onClass c g).reqs = p.reqs := rfl
@[simp] theorem Pkg.onClass_reqId (p : Pkg) (c : Nat) (g : Class → Class) : (p.onClass c g).reqId = p.reqId := rfl
@[simp] theorem Pkg.onClass_moves (p : Pkg) (c : Nat) (g : Class → Class) : (p.onClass c g).moves = p.moves := rfl
@[simp] theorem Pkg.onClass_migUses (p : Pkg) (c : Nat) (g : Class → Class) : (p.onClass c g).migUses = p.migUses := rfl
@[simp] theorem Pkg.onClass_migrants (p : Pkg) (c : Nat) (g : Class → Class) : (p.onClass c g).migrants = p.migrants := rfl
@[simp] theorem Pkg.onClass_pgov (p : Pkg) (c : Nat) (g : Class → Class) : (p.onClass c g).pgov = p.pgov := rfl
@[simp] theorem Pkg.onClass_l2lk (p : Pkg) (c : Nat) (g : Class → Class) : (p.onClass c g).l2lk = p.l2lk := rfl
@[simp] theorem Pkg.onClass_badlnch (p : Pkg) (c : Nat) (g : Class → Class) : (p.onClass c g).badlnch = p.badlnch := rfl
@[simp] theorem Pkg.onClass_orphans (p : Pkg) (c : Nat) (g : Class → Class) : (p.onClass c g).orphans = p.orphans := rfl
@[simp] theorem Pkg.onClass_cancelHeld (p : Pkg) (c : Nat) (g : Class → Class) : (p.onClass c g).cancelHeld = p.cancelHeld := rfl
@[simp] theorem Pkg.onClass_failures (p : Pkg) (c : Nat) (g : Class → Class) : (p.onClass c g).failures = p.failures := rfl
@[simp] theorem Pkg.onClass_svcSeq (p : Pkg) (c : Nat) (g : Class → Class) : (p.onClass c g).svcSeq = p.svcSeq := rfl
@[simp] theorem Pkg.onClass_svcOpen (p : Pkg) (c : Nat) (g : Class → Class) : (p.onClass c g).svcOpen = p.svcOpen := rfl
@[simp] theorem Pkg.onClass_svcWait (p : Pkg) (c : Nat) (g : Class → Class) : (p.onClass c g).svcWait = p.svcWait := rfl
@[simp] theorem Pkg.onClass_svcDropped (p : Pkg) (c : Nat) (g : Class → Class) : (p.onClass c g).svcDropped = p.svcDropped := rfl
@[simp] theorem Pkg.onClass_poisoned (p : Pkg) (c : Nat) (g : Class → Class) : (p.onClass c g).poisoned = p.poisoned := rfl
@[simp] theorem Pkg.onClass_errLines (p : Pkg) (c : Nat) (g : Class → Class) : (p.onClass c g).errLines = p.errLines := rfl
@[simp] theorem Pkg.onClass_checkDue (p : Pkg) (c : Nat) (g : Class → Class) : (p.onClass c g).checkDue = p.checkDue := rfl
@[simp] theorem Pkg.onClass_areaLost (p : Pkg) (c : Nat) (g : Class → Class) : (p.onClass c g).areaLost = p.areaLost := rfl
@[simp] theorem Pkg.onClass_applied (p : Pkg) (c : Nat) (g : Class → Class) : (p.onClass c g).applied = p.applied := rfl
@[simp] theorem Pkg.onClass_spares (p : Pkg) (c : Nat) (g : Class → Class) : (p.onClass c g).spares = p.spares := rfl
@[simp] theorem Pkg.onClass_spareLeaf (p : Pkg) (c : Nat) (g : Class → Class) : (p.onClass c g).spareLeaf = p.spareLeaf := rfl
@[simp] theorem Pkg.onClass_away (p : Pkg) (c : Nat) (g : Class → Class) : (p.onClass c g).away = p.away := rfl
@[simp] theorem Pkg.onClass_engAway (p : Pkg) (c : Nat) (g : Class → Class) : (p.onClass c g).engAway = p.engAway := rfl
@[simp] theorem Pkg.onClass_vecs (p : Pkg) (c : Nat) (g : Class → Class) : (p.onClass c g).vecs = p.vecs := rfl
@[simp] theorem Pkg.onClass_onyx (p : Pkg) (c : Nat) (g : Class → Class) : (p.onClass c g).onyx = p.onyx := rfl
@[simp] theorem Pkg.onClass_oxdb (p : Pkg) (c : Nat) (g : Class → Class) : (p.onClass c g).oxdb = p.oxdb := rfl
@[simp] theorem Pkg.setOp_mem (p : Pkg) (k : Nat) (o : Option Op) : (p.setOp k o).mem = p.mem := rfl
@[simp] theorem Pkg.setOp_hist (p : Pkg) (k : Nat) (o : Option Op) : (p.setOp k o).hist = p.hist := rfl
@[simp] theorem Pkg.setOp_histN (p : Pkg) (k : Nat) (o : Option Op) : (p.setOp k o).histN = p.histN := rfl
@[simp] theorem Pkg.setOp_seqs (p : Pkg) (k : Nat) (o : Option Op) : (p.setOp k o).seqs = p.seqs := rfl
@[simp] theorem Pkg.setOp_cores (p : Pkg) (k : Nat) (o : Option Op) : (p.setOp k o).cores = p.cores := rfl
@[simp] theorem Pkg.setOp_benches (p : Pkg) (k : Nat) (o : Option Op) : (p.setOp k o).benches = p.benches := rfl
@[simp] theorem Pkg.setOp_gens (p : Pkg) (k : Nat) (o : Option Op) : (p.setOp k o).gens = p.gens := rfl
@[simp] theorem Pkg.setOp_slotWits (p : Pkg) (k : Nat) (o : Option Op) : (p.setOp k o).slotWits = p.slotWits := rfl
@[simp] theorem Pkg.setOp_fences (p : Pkg) (k : Nat) (o : Option Op) : (p.setOp k o).fences = p.fences := rfl
@[simp] theorem Pkg.setOp_fenceN (p : Pkg) (k : Nat) (o : Option Op) : (p.setOp k o).fenceN = p.fenceN := rfl
@[simp] theorem Pkg.setOp_fencesOut (p : Pkg) (k : Nat) (o : Option Op) : (p.setOp k o).fencesOut = p.fencesOut := rfl
@[simp] theorem Pkg.setOp_sleepers (p : Pkg) (k : Nat) (o : Option Op) : (p.setOp k o).sleepers = p.sleepers := rfl
@[simp] theorem Pkg.setOp_passes (p : Pkg) (k : Nat) (o : Option Op) : (p.setOp k o).passes = p.passes := rfl
@[simp] theorem Pkg.setOp_messages (p : Pkg) (k : Nat) (o : Option Op) : (p.setOp k o).messages = p.messages := rfl
@[simp] theorem Pkg.setOp_adds (p : Pkg) (k : Nat) (o : Option Op) : (p.setOp k o).adds = p.adds := rfl
@[simp] theorem Pkg.setOp_asks (p : Pkg) (k : Nat) (o : Option Op) : (p.setOp k o).asks = p.asks := rfl
@[simp] theorem Pkg.setOp_cancels (p : Pkg) (k : Nat) (o : Option Op) : (p.setOp k o).cancels = p.cancels := rfl
@[simp] theorem Pkg.setOp_offers (p : Pkg) (k : Nat) (o : Option Op) : (p.setOp k o).offers = p.offers := rfl
@[simp] theorem Pkg.setOp_waits (p : Pkg) (k : Nat) (o : Option Op) : (p.setOp k o).waits = p.waits := rfl
@[simp] theorem Pkg.setOp_runs (p : Pkg) (k : Nat) (o : Option Op) : (p.setOp k o).runs = p.runs := rfl
@[simp] theorem Pkg.setOp_arrival (p : Pkg) (k : Nat) (o : Option Op) : (p.setOp k o).arrival = p.arrival := rfl
@[simp] theorem Pkg.setOp_descs (p : Pkg) (k : Nat) (o : Option Op) : (p.setOp k o).descs = p.descs := rfl
@[simp] theorem Pkg.setOp_policies (p : Pkg) (k : Nat) (o : Option Op) : (p.setOp k o).policies = p.policies := rfl
@[simp] theorem Pkg.setOp_classes (p : Pkg) (k : Nat) (o : Option Op) : (p.setOp k o).classes = p.classes := rfl
@[simp] theorem Pkg.setOp_ecur (p : Pkg) (k : Nat) (o : Option Op) : (p.setOp k o).ecur = p.ecur := rfl
@[simp] theorem Pkg.setOp_vroot (p : Pkg) (k : Nat) (o : Option Op) : (p.setOp k o).vroot = p.vroot := rfl
@[simp] theorem Pkg.setOp_horizons (p : Pkg) (k : Nat) (o : Option Op) : (p.setOp k o).horizons = p.horizons := rfl
@[simp] theorem Pkg.setOp_filling (p : Pkg) (k : Nat) (o : Option Op) : (p.setOp k o).filling = p.filling := rfl
@[simp] theorem Pkg.setOp_filters (p : Pkg) (k : Nat) (o : Option Op) : (p.setOp k o).filters = p.filters := rfl
@[simp] theorem Pkg.setOp_gates (p : Pkg) (k : Nat) (o : Option Op) : (p.setOp k o).gates = p.gates := rfl
@[simp] theorem Pkg.setOp_rtags (p : Pkg) (k : Nat) (o : Option Op) : (p.setOp k o).rtags = p.rtags := rfl
@[simp] theorem Pkg.setOp_recoveries (p : Pkg) (k : Nat) (o : Option Op) : (p.setOp k o).recoveries = p.recoveries := rfl
@[simp] theorem Pkg.setOp_splits (p : Pkg) (k : Nat) (o : Option Op) : (p.setOp k o).splits = p.splits := rfl
@[simp] theorem Pkg.setOp_ports (p : Pkg) (k : Nat) (o : Option Op) : (p.setOp k o).ports = p.ports := rfl
@[simp] theorem Pkg.setOp_snaps (p : Pkg) (k : Nat) (o : Option Op) : (p.setOp k o).snaps = p.snaps := rfl
@[simp] theorem Pkg.setOp_committed (p : Pkg) (k : Nat) (o : Option Op) : (p.setOp k o).committed = p.committed := rfl
@[simp] theorem Pkg.setOp_pubs (p : Pkg) (k : Nat) (o : Option Op) : (p.setOp k o).pubs = p.pubs := rfl
@[simp] theorem Pkg.setOp_budgets (p : Pkg) (k : Nat) (o : Option Op) : (p.setOp k o).budgets = p.budgets := rfl
@[simp] theorem Pkg.setOp_liveRel (p : Pkg) (k : Nat) (o : Option Op) : (p.setOp k o).liveRel = p.liveRel := rfl
@[simp] theorem Pkg.setOp_reqs (p : Pkg) (k : Nat) (o : Option Op) : (p.setOp k o).reqs = p.reqs := rfl
@[simp] theorem Pkg.setOp_reqId (p : Pkg) (k : Nat) (o : Option Op) : (p.setOp k o).reqId = p.reqId := rfl
@[simp] theorem Pkg.setOp_moves (p : Pkg) (k : Nat) (o : Option Op) : (p.setOp k o).moves = p.moves := rfl
@[simp] theorem Pkg.setOp_migUses (p : Pkg) (k : Nat) (o : Option Op) : (p.setOp k o).migUses = p.migUses := rfl
@[simp] theorem Pkg.setOp_migrants (p : Pkg) (k : Nat) (o : Option Op) : (p.setOp k o).migrants = p.migrants := rfl
@[simp] theorem Pkg.setOp_pgov (p : Pkg) (k : Nat) (o : Option Op) : (p.setOp k o).pgov = p.pgov := rfl
@[simp] theorem Pkg.setOp_l2lk (p : Pkg) (k : Nat) (o : Option Op) : (p.setOp k o).l2lk = p.l2lk := rfl
@[simp] theorem Pkg.setOp_badlnch (p : Pkg) (k : Nat) (o : Option Op) : (p.setOp k o).badlnch = p.badlnch := rfl
@[simp] theorem Pkg.setOp_orphans (p : Pkg) (k : Nat) (o : Option Op) : (p.setOp k o).orphans = p.orphans := rfl
@[simp] theorem Pkg.setOp_cancelHeld (p : Pkg) (k : Nat) (o : Option Op) : (p.setOp k o).cancelHeld = p.cancelHeld := rfl
@[simp] theorem Pkg.setOp_failures (p : Pkg) (k : Nat) (o : Option Op) : (p.setOp k o).failures = p.failures := rfl
@[simp] theorem Pkg.setOp_svcSeq (p : Pkg) (k : Nat) (o : Option Op) : (p.setOp k o).svcSeq = p.svcSeq := rfl
@[simp] theorem Pkg.setOp_svcOpen (p : Pkg) (k : Nat) (o : Option Op) : (p.setOp k o).svcOpen = p.svcOpen := rfl
@[simp] theorem Pkg.setOp_svcWait (p : Pkg) (k : Nat) (o : Option Op) : (p.setOp k o).svcWait = p.svcWait := rfl
@[simp] theorem Pkg.setOp_svcDropped (p : Pkg) (k : Nat) (o : Option Op) : (p.setOp k o).svcDropped = p.svcDropped := rfl
@[simp] theorem Pkg.setOp_poisoned (p : Pkg) (k : Nat) (o : Option Op) : (p.setOp k o).poisoned = p.poisoned := rfl
@[simp] theorem Pkg.setOp_errLines (p : Pkg) (k : Nat) (o : Option Op) : (p.setOp k o).errLines = p.errLines := rfl
@[simp] theorem Pkg.setOp_checkDue (p : Pkg) (k : Nat) (o : Option Op) : (p.setOp k o).checkDue = p.checkDue := rfl
@[simp] theorem Pkg.setOp_areaLost (p : Pkg) (k : Nat) (o : Option Op) : (p.setOp k o).areaLost = p.areaLost := rfl
@[simp] theorem Pkg.setOp_applied (p : Pkg) (k : Nat) (o : Option Op) : (p.setOp k o).applied = p.applied := rfl
@[simp] theorem Pkg.setOp_spares (p : Pkg) (k : Nat) (o : Option Op) : (p.setOp k o).spares = p.spares := rfl
@[simp] theorem Pkg.setOp_spareLeaf (p : Pkg) (k : Nat) (o : Option Op) : (p.setOp k o).spareLeaf = p.spareLeaf := rfl
@[simp] theorem Pkg.setOp_away (p : Pkg) (k : Nat) (o : Option Op) : (p.setOp k o).away = p.away := rfl
@[simp] theorem Pkg.setOp_engAway (p : Pkg) (k : Nat) (o : Option Op) : (p.setOp k o).engAway = p.engAway := rfl
@[simp] theorem Pkg.setOp_vecs (p : Pkg) (k : Nat) (o : Option Op) : (p.setOp k o).vecs = p.vecs := rfl
@[simp] theorem Pkg.setOp_onyx (p : Pkg) (k : Nat) (o : Option Op) : (p.setOp k o).onyx = p.onyx := rfl
@[simp] theorem Pkg.setOp_oxdb (p : Pkg) (k : Nat) (o : Option Op) : (p.setOp k o).oxdb = p.oxdb := rfl
@[simp] theorem Pkg.onCore_self (p : Pkg) (c : Nat) (g : Core → Core) : (p.onCore c g).core c = g (p.core c) := Store.get_set_self ..
@[simp] theorem Pkg.onBench_self (p : Pkg) (c : Nat) (g : Bench → Bench) : (p.onBench c g).bench c = g (p.bench c) := Store.get_set_self ..
@[simp] theorem Pkg.onClass_self (p : Pkg) (c : Nat) (g : Class → Class) : (p.onClass c g).cls c = g (p.cls c) := Store.get_set_self ..
@[simp] theorem Pkg.setOp_self (p : Pkg) (k : Nat) (o : Option Op) : (p.setOp k o).op k = o := Store.get_set_self ..
theorem Pkg.onBench_ne (p : Pkg) (g : Bench → Bench) {c d : Nat} (h : d ≠ c) : (p.onBench c g).bench d = p.bench d := Store.get_set_ne _ _ _ h
theorem Pkg.onCore_ne (p : Pkg) (g : Core → Core) {c d : Nat} (h : d ≠ c) : (p.onCore c g).core d = p.core d := Store.get_set_ne _ _ _ h

/-! ### Registers of a thread -/

@[simp] theorem Thread.wv_g (t : Thread) (n : Nat) (x : Vec) : (t.wv n x).g = t.g := rfl
@[simp] theorem Thread.wv_k (t : Thread) (n : Nat) (x : Vec) : (t.wv n x).k = t.k := rfl
@[simp] theorem Thread.wv_w (t : Thread) (n : Nat) (x : Vec) : (t.wv n x).w = t.w := rfl
@[simp] theorem Thread.wv_x (t : Thread) (n : Nat) (x : Vec) : (t.wv n x).x = t.x := rfl
@[simp] theorem Thread.wv_cb (t : Thread) (n : Nat) (x : Vec) : (t.wv n x).cb = t.cb := rfl
@[simp] theorem Thread.wv_pc (t : Thread) (n : Nat) (x : Vec) : (t.wv n x).pc = t.pc := rfl
@[simp] theorem Thread.wv_ol (t : Thread) (n : Nat) (x : Vec) : (t.wv n x).ol = t.ol := rfl
@[simp] theorem Thread.wv_os (t : Thread) (n : Nat) (x : Vec) : (t.wv n x).os = t.os := rfl
@[simp] theorem Thread.wv_oc (t : Thread) (n : Nat) (x : Vec) : (t.wv n x).oc = t.oc := rfl
@[simp] theorem Thread.wv_ot (t : Thread) (n : Nat) (x : Vec) : (t.wv n x).ot = t.ot := rfl
@[simp] theorem Thread.wv_busy (t : Thread) (n : Nat) (x : Vec) : (t.wv n x).busy = t.busy := rfl
@[simp] theorem Thread.wv_tstat (t : Thread) (n : Nat) (x : Vec) : (t.wv n x).tstat = t.tstat := rfl
@[simp] theorem Thread.wv_epc (t : Thread) (n : Nat) (x : Vec) : (t.wv n x).epc = t.epc := rfl
@[simp] theorem Thread.wv_cause (t : Thread) (n : Nat) (x : Vec) : (t.wv n x).cause = t.cause := rfl
@[simp] theorem Thread.wv_tval (t : Thread) (n : Nat) (x : Vec) : (t.wv n x).tval = t.tval := rfl
@[simp] theorem Thread.wv_tvec (t : Thread) (n : Nat) (x : Vec) : (t.wv n x).tvec = t.tvec := rfl
@[simp] theorem Thread.wv_tsave (t : Thread) (n : Nat) (x : Vec) : (t.wv n x).tsave = t.tsave := rfl
@[simp] theorem Thread.wv_cause2 (t : Thread) (n : Nat) (x : Vec) : (t.wv n x).cause2 = t.cause2 := rfl
@[simp] theorem Thread.wv_tval2 (t : Thread) (n : Nat) (x : Vec) : (t.wv n x).tval2 = t.tval2 := rfl
@[simp] theorem Thread.wv_prog (t : Thread) (n : Nat) (x : Vec) : (t.wv n x).prog = t.prog := rfl
@[simp] theorem Thread.wv_tstk (t : Thread) (n : Nat) (x : Vec) : (t.wv n x).tstk = t.tstk := rfl
@[simp] theorem Thread.wv_tsg (t : Thread) (n : Nat) (x : Vec) : (t.wv n x).tsg = t.tsg := rfl
@[simp] theorem Thread.wv_wp0 (t : Thread) (n : Nat) (x : Vec) : (t.wv n x).wp0 = t.wp0 := rfl
@[simp] theorem Thread.wv_wp1 (t : Thread) (n : Nat) (x : Vec) : (t.wv n x).wp1 = t.wp1 := rfl
@[simp] theorem Thread.wv_tf (t : Thread) (n : Nat) (x : Vec) : (t.wv n x).tf = t.tf := rfl
@[simp] theorem Thread.wv_fw (t : Thread) (n : Nat) (x : Vec) : (t.wv n x).fw = t.fw := rfl
@[simp] theorem Thread.wv_ts (t : Thread) (n : Nat) (x : Vec) : (t.wv n x).ts = t.ts := rfl
@[simp] theorem Thread.wv_task (t : Thread) (n : Nat) (x : Vec) : (t.wv n x).task = t.task := rfl
@[simp] theorem Thread.wv_cbEntry (t : Thread) (n : Nat) (x : Vec) : (t.wv n x).cbEntry = t.cbEntry := rfl
@[simp] theorem Thread.wv_cbNeed (t : Thread) (n : Nat) (x : Vec) : (t.wv n x).cbNeed = t.cbNeed := rfl
@[simp] theorem Thread.wv_irq (t : Thread) (n : Nat) (x : Vec) : (t.wv n x).irq = t.irq := rfl
@[simp] theorem Thread.wv_irqTen (t : Thread) (n : Nat) (x : Vec) : (t.wv n x).irqTen = t.irqTen := rfl
@[simp] theorem Thread.wv_park (t : Thread) (n : Nat) (x : Vec) : (t.wv n x).park = t.park := rfl
@[simp] theorem Thread.wv_stall (t : Thread) (n : Nat) (x : Vec) : (t.wv n x).stall = t.stall := rfl
@[simp] theorem Thread.wv_preemptDue (t : Thread) (n : Nat) (x : Vec) : (t.wv n x).preemptDue = t.preemptDue := rfl
@[simp] theorem Thread.wv_dueAt (t : Thread) (n : Nat) (x : Vec) : (t.wv n x).dueAt = t.dueAt := rfl
@[simp] theorem Thread.wv_stopDue (t : Thread) (n : Nat) (x : Vec) : (t.wv n x).stopDue = t.stopDue := rfl
@[simp] theorem Thread.wv_stopAt (t : Thread) (n : Nat) (x : Vec) : (t.wv n x).stopAt = t.stopAt := rfl
@[simp] theorem Thread.wv_fence (t : Thread) (n : Nat) (x : Vec) : (t.wv n x).fence = t.fence := rfl
@[simp] theorem Thread.wx_g (t : Thread) (n : Nat) (x : Word) : (t.wx n x).g = t.g := rfl
@[simp] theorem Thread.wx_v (t : Thread) (n : Nat) (x : Word) : (t.wx n x).v = t.v := rfl
@[simp] theorem Thread.wx_k (t : Thread) (n : Nat) (x : Word) : (t.wx n x).k = t.k := rfl
@[simp] theorem Thread.wx_w (t : Thread) (n : Nat) (x : Word) : (t.wx n x).w = t.w := rfl
@[simp] theorem Thread.wx_cb (t : Thread) (n : Nat) (x : Word) : (t.wx n x).cb = t.cb := rfl
@[simp] theorem Thread.wx_pc (t : Thread) (n : Nat) (x : Word) : (t.wx n x).pc = t.pc := rfl
@[simp] theorem Thread.wx_ol (t : Thread) (n : Nat) (x : Word) : (t.wx n x).ol = t.ol := rfl
@[simp] theorem Thread.wx_os (t : Thread) (n : Nat) (x : Word) : (t.wx n x).os = t.os := rfl
@[simp] theorem Thread.wx_oc (t : Thread) (n : Nat) (x : Word) : (t.wx n x).oc = t.oc := rfl
@[simp] theorem Thread.wx_ot (t : Thread) (n : Nat) (x : Word) : (t.wx n x).ot = t.ot := rfl
@[simp] theorem Thread.wx_busy (t : Thread) (n : Nat) (x : Word) : (t.wx n x).busy = t.busy := rfl
@[simp] theorem Thread.wx_tstat (t : Thread) (n : Nat) (x : Word) : (t.wx n x).tstat = t.tstat := rfl
@[simp] theorem Thread.wx_epc (t : Thread) (n : Nat) (x : Word) : (t.wx n x).epc = t.epc := rfl
@[simp] theorem Thread.wx_cause (t : Thread) (n : Nat) (x : Word) : (t.wx n x).cause = t.cause := rfl
@[simp] theorem Thread.wx_tval (t : Thread) (n : Nat) (x : Word) : (t.wx n x).tval = t.tval := rfl
@[simp] theorem Thread.wx_tvec (t : Thread) (n : Nat) (x : Word) : (t.wx n x).tvec = t.tvec := rfl
@[simp] theorem Thread.wx_tsave (t : Thread) (n : Nat) (x : Word) : (t.wx n x).tsave = t.tsave := rfl
@[simp] theorem Thread.wx_cause2 (t : Thread) (n : Nat) (x : Word) : (t.wx n x).cause2 = t.cause2 := rfl
@[simp] theorem Thread.wx_tval2 (t : Thread) (n : Nat) (x : Word) : (t.wx n x).tval2 = t.tval2 := rfl
@[simp] theorem Thread.wx_prog (t : Thread) (n : Nat) (x : Word) : (t.wx n x).prog = t.prog := rfl
@[simp] theorem Thread.wx_tstk (t : Thread) (n : Nat) (x : Word) : (t.wx n x).tstk = t.tstk := rfl
@[simp] theorem Thread.wx_tsg (t : Thread) (n : Nat) (x : Word) : (t.wx n x).tsg = t.tsg := rfl
@[simp] theorem Thread.wx_wp0 (t : Thread) (n : Nat) (x : Word) : (t.wx n x).wp0 = t.wp0 := rfl
@[simp] theorem Thread.wx_wp1 (t : Thread) (n : Nat) (x : Word) : (t.wx n x).wp1 = t.wp1 := rfl
@[simp] theorem Thread.wx_tf (t : Thread) (n : Nat) (x : Word) : (t.wx n x).tf = t.tf := rfl
@[simp] theorem Thread.wx_fw (t : Thread) (n : Nat) (x : Word) : (t.wx n x).fw = t.fw := rfl
@[simp] theorem Thread.wx_ts (t : Thread) (n : Nat) (x : Word) : (t.wx n x).ts = t.ts := rfl
@[simp] theorem Thread.wx_vw (t : Thread) (n : Nat) (x : Word) : (t.wx n x).vw = t.vw := rfl
@[simp] theorem Thread.wx_task (t : Thread) (n : Nat) (x : Word) : (t.wx n x).task = t.task := rfl
@[simp] theorem Thread.wx_cbEntry (t : Thread) (n : Nat) (x : Word) : (t.wx n x).cbEntry = t.cbEntry := rfl
@[simp] theorem Thread.wx_cbNeed (t : Thread) (n : Nat) (x : Word) : (t.wx n x).cbNeed = t.cbNeed := rfl
@[simp] theorem Thread.wx_irq (t : Thread) (n : Nat) (x : Word) : (t.wx n x).irq = t.irq := rfl
@[simp] theorem Thread.wx_irqTen (t : Thread) (n : Nat) (x : Word) : (t.wx n x).irqTen = t.irqTen := rfl
@[simp] theorem Thread.wx_park (t : Thread) (n : Nat) (x : Word) : (t.wx n x).park = t.park := rfl
@[simp] theorem Thread.wx_stall (t : Thread) (n : Nat) (x : Word) : (t.wx n x).stall = t.stall := rfl
@[simp] theorem Thread.wx_preemptDue (t : Thread) (n : Nat) (x : Word) : (t.wx n x).preemptDue = t.preemptDue := rfl
@[simp] theorem Thread.wx_dueAt (t : Thread) (n : Nat) (x : Word) : (t.wx n x).dueAt = t.dueAt := rfl
@[simp] theorem Thread.wx_stopDue (t : Thread) (n : Nat) (x : Word) : (t.wx n x).stopDue = t.stopDue := rfl
@[simp] theorem Thread.wx_stopAt (t : Thread) (n : Nat) (x : Word) : (t.wx n x).stopAt = t.stopAt := rfl
@[simp] theorem Thread.wx_fence (t : Thread) (n : Nat) (x : Word) : (t.wx n x).fence = t.fence := rfl
@[simp] theorem Thread.dropPrefix_g (t : Thread) : (t.dropPrefix).g = t.g := rfl
@[simp] theorem Thread.dropPrefix_v (t : Thread) : (t.dropPrefix).v = t.v := rfl
@[simp] theorem Thread.dropPrefix_k (t : Thread) : (t.dropPrefix).k = t.k := rfl
@[simp] theorem Thread.dropPrefix_w (t : Thread) : (t.dropPrefix).w = t.w := rfl
@[simp] theorem Thread.dropPrefix_x (t : Thread) : (t.dropPrefix).x = t.x := rfl
@[simp] theorem Thread.dropPrefix_cb (t : Thread) : (t.dropPrefix).cb = t.cb := rfl
@[simp] theorem Thread.dropPrefix_pc (t : Thread) : (t.dropPrefix).pc = t.pc := rfl
@[simp] theorem Thread.dropPrefix_ol (t : Thread) : (t.dropPrefix).ol = t.ol := rfl
@[simp] theorem Thread.dropPrefix_os (t : Thread) : (t.dropPrefix).os = t.os := rfl
@[simp] theorem Thread.dropPrefix_oc (t : Thread) : (t.dropPrefix).oc = t.oc := rfl
@[simp] theorem Thread.dropPrefix_ot (t : Thread) : (t.dropPrefix).ot = t.ot := rfl
@[simp] theorem Thread.dropPrefix_busy (t : Thread) : (t.dropPrefix).busy = t.busy := rfl
@[simp] theorem Thread.dropPrefix_epc (t : Thread) : (t.dropPrefix).epc = t.epc := rfl
@[simp] theorem Thread.dropPrefix_cause (t : Thread) : (t.dropPrefix).cause = t.cause := rfl
@[simp] theorem Thread.dropPrefix_tval (t : Thread) : (t.dropPrefix).tval = t.tval := rfl
@[simp] theorem Thread.dropPrefix_tvec (t : Thread) : (t.dropPrefix).tvec = t.tvec := rfl
@[simp] theorem Thread.dropPrefix_tsave (t : Thread) : (t.dropPrefix).tsave = t.tsave := rfl
@[simp] theorem Thread.dropPrefix_cause2 (t : Thread) : (t.dropPrefix).cause2 = t.cause2 := rfl
@[simp] theorem Thread.dropPrefix_tval2 (t : Thread) : (t.dropPrefix).tval2 = t.tval2 := rfl
@[simp] theorem Thread.dropPrefix_prog (t : Thread) : (t.dropPrefix).prog = t.prog := rfl
@[simp] theorem Thread.dropPrefix_tstk (t : Thread) : (t.dropPrefix).tstk = t.tstk := rfl
@[simp] theorem Thread.dropPrefix_tsg (t : Thread) : (t.dropPrefix).tsg = t.tsg := rfl
@[simp] theorem Thread.dropPrefix_wp0 (t : Thread) : (t.dropPrefix).wp0 = t.wp0 := rfl
@[simp] theorem Thread.dropPrefix_wp1 (t : Thread) : (t.dropPrefix).wp1 = t.wp1 := rfl
@[simp] theorem Thread.dropPrefix_tf (t : Thread) : (t.dropPrefix).tf = t.tf := rfl
@[simp] theorem Thread.dropPrefix_fw (t : Thread) : (t.dropPrefix).fw = t.fw := rfl
@[simp] theorem Thread.dropPrefix_ts (t : Thread) : (t.dropPrefix).ts = t.ts := rfl
@[simp] theorem Thread.dropPrefix_vw (t : Thread) : (t.dropPrefix).vw = t.vw := rfl
@[simp] theorem Thread.dropPrefix_task (t : Thread) : (t.dropPrefix).task = t.task := rfl
@[simp] theorem Thread.dropPrefix_cbEntry (t : Thread) : (t.dropPrefix).cbEntry = t.cbEntry := rfl
@[simp] theorem Thread.dropPrefix_cbNeed (t : Thread) : (t.dropPrefix).cbNeed = t.cbNeed := rfl
@[simp] theorem Thread.dropPrefix_irq (t : Thread) : (t.dropPrefix).irq = t.irq := rfl
@[simp] theorem Thread.dropPrefix_irqTen (t : Thread) : (t.dropPrefix).irqTen = t.irqTen := rfl
@[simp] theorem Thread.dropPrefix_park (t : Thread) : (t.dropPrefix).park = t.park := rfl
@[simp] theorem Thread.dropPrefix_stall (t : Thread) : (t.dropPrefix).stall = t.stall := rfl
@[simp] theorem Thread.dropPrefix_preemptDue (t : Thread) : (t.dropPrefix).preemptDue = t.preemptDue := rfl
@[simp] theorem Thread.dropPrefix_dueAt (t : Thread) : (t.dropPrefix).dueAt = t.dueAt := rfl
@[simp] theorem Thread.dropPrefix_stopDue (t : Thread) : (t.dropPrefix).stopDue = t.stopDue := rfl
@[simp] theorem Thread.dropPrefix_stopAt (t : Thread) : (t.dropPrefix).stopAt = t.stopAt := rfl
@[simp] theorem Thread.dropPrefix_fence (t : Thread) : (t.dropPrefix).fence = t.fence := rfl
@[simp] theorem Thread.raise_g (t : Thread) (n : Nat) : (t.raise n).g = t.g := rfl
@[simp] theorem Thread.raise_v (t : Thread) (n : Nat) : (t.raise n).v = t.v := rfl
@[simp] theorem Thread.raise_k (t : Thread) (n : Nat) : (t.raise n).k = t.k := rfl
@[simp] theorem Thread.raise_w (t : Thread) (n : Nat) : (t.raise n).w = t.w := rfl
@[simp] theorem Thread.raise_x (t : Thread) (n : Nat) : (t.raise n).x = t.x := rfl
@[simp] theorem Thread.raise_cb (t : Thread) (n : Nat) : (t.raise n).cb = t.cb := rfl
@[simp] theorem Thread.raise_pc (t : Thread) (n : Nat) : (t.raise n).pc = t.pc := rfl
@[simp] theorem Thread.raise_ol (t : Thread) (n : Nat) : (t.raise n).ol = t.ol := rfl
@[simp] theorem Thread.raise_os (t : Thread) (n : Nat) : (t.raise n).os = t.os := rfl
@[simp] theorem Thread.raise_oc (t : Thread) (n : Nat) : (t.raise n).oc = t.oc := rfl
@[simp] theorem Thread.raise_ot (t : Thread) (n : Nat) : (t.raise n).ot = t.ot := rfl
@[simp] theorem Thread.raise_busy (t : Thread) (n : Nat) : (t.raise n).busy = t.busy := rfl
@[simp] theorem Thread.raise_epc (t : Thread) (n : Nat) : (t.raise n).epc = t.epc := rfl
@[simp] theorem Thread.raise_cause (t : Thread) (n : Nat) : (t.raise n).cause = t.cause := rfl
@[simp] theorem Thread.raise_tval (t : Thread) (n : Nat) : (t.raise n).tval = t.tval := rfl
@[simp] theorem Thread.raise_tvec (t : Thread) (n : Nat) : (t.raise n).tvec = t.tvec := rfl
@[simp] theorem Thread.raise_tsave (t : Thread) (n : Nat) : (t.raise n).tsave = t.tsave := rfl
@[simp] theorem Thread.raise_cause2 (t : Thread) (n : Nat) : (t.raise n).cause2 = t.cause2 := rfl
@[simp] theorem Thread.raise_tval2 (t : Thread) (n : Nat) : (t.raise n).tval2 = t.tval2 := rfl
@[simp] theorem Thread.raise_prog (t : Thread) (n : Nat) : (t.raise n).prog = t.prog := rfl
@[simp] theorem Thread.raise_tstk (t : Thread) (n : Nat) : (t.raise n).tstk = t.tstk := rfl
@[simp] theorem Thread.raise_tsg (t : Thread) (n : Nat) : (t.raise n).tsg = t.tsg := rfl
@[simp] theorem Thread.raise_wp0 (t : Thread) (n : Nat) : (t.raise n).wp0 = t.wp0 := rfl
@[simp] theorem Thread.raise_wp1 (t : Thread) (n : Nat) : (t.raise n).wp1 = t.wp1 := rfl
@[simp] theorem Thread.raise_tf (t : Thread) (n : Nat) : (t.raise n).tf = t.tf := rfl
@[simp] theorem Thread.raise_fw (t : Thread) (n : Nat) : (t.raise n).fw = t.fw := rfl
@[simp] theorem Thread.raise_ts (t : Thread) (n : Nat) : (t.raise n).ts = t.ts := rfl
@[simp] theorem Thread.raise_vw (t : Thread) (n : Nat) : (t.raise n).vw = t.vw := rfl
@[simp] theorem Thread.raise_task (t : Thread) (n : Nat) : (t.raise n).task = t.task := rfl
@[simp] theorem Thread.raise_cbEntry (t : Thread) (n : Nat) : (t.raise n).cbEntry = t.cbEntry := rfl
@[simp] theorem Thread.raise_cbNeed (t : Thread) (n : Nat) : (t.raise n).cbNeed = t.cbNeed := rfl
@[simp] theorem Thread.raise_irq (t : Thread) (n : Nat) : (t.raise n).irq = t.irq := rfl
@[simp] theorem Thread.raise_irqTen (t : Thread) (n : Nat) : (t.raise n).irqTen = t.irqTen := rfl
@[simp] theorem Thread.raise_park (t : Thread) (n : Nat) : (t.raise n).park = t.park := rfl
@[simp] theorem Thread.raise_stall (t : Thread) (n : Nat) : (t.raise n).stall = t.stall := rfl
@[simp] theorem Thread.raise_preemptDue (t : Thread) (n : Nat) : (t.raise n).preemptDue = t.preemptDue := rfl
@[simp] theorem Thread.raise_dueAt (t : Thread) (n : Nat) : (t.raise n).dueAt = t.dueAt := rfl
@[simp] theorem Thread.raise_stopDue (t : Thread) (n : Nat) : (t.raise n).stopDue = t.stopDue := rfl
@[simp] theorem Thread.raise_stopAt (t : Thread) (n : Nat) : (t.raise n).stopAt = t.stopAt := rfl
@[simp] theorem Thread.raise_fence (t : Thread) (n : Nat) : (t.raise n).fence = t.fence := rfl
@[simp] theorem Thread.mark_g (t : Thread) (n : List Reg) : (t.mark n).g = t.g := rfl
@[simp] theorem Thread.mark_v (t : Thread) (n : List Reg) : (t.mark n).v = t.v := rfl
@[simp] theorem Thread.mark_k (t : Thread) (n : List Reg) : (t.mark n).k = t.k := rfl
@[simp] theorem Thread.mark_w (t : Thread) (n : List Reg) : (t.mark n).w = t.w := rfl
@[simp] theorem Thread.mark_x (t : Thread) (n : List Reg) : (t.mark n).x = t.x := rfl
@[simp] theorem Thread.mark_cb (t : Thread) (n : List Reg) : (t.mark n).cb = t.cb := rfl
@[simp] theorem Thread.mark_pc (t : Thread) (n : List Reg) : (t.mark n).pc = t.pc := rfl
@[simp] theorem Thread.mark_ol (t : Thread) (n : List Reg) : (t.mark n).ol = t.ol := rfl
@[simp] theorem Thread.mark_os (t : Thread) (n : List Reg) : (t.mark n).os = t.os := rfl
@[simp] theorem Thread.mark_oc (t : Thread) (n : List Reg) : (t.mark n).oc = t.oc := rfl
@[simp] theorem Thread.mark_ot (t : Thread) (n : List Reg) : (t.mark n).ot = t.ot := rfl
@[simp] theorem Thread.mark_tstat (t : Thread) (n : List Reg) : (t.mark n).tstat = t.tstat := rfl
@[simp] theorem Thread.mark_epc (t : Thread) (n : List Reg) : (t.mark n).epc = t.epc := rfl
@[simp] theorem Thread.mark_cause (t : Thread) (n : List Reg) : (t.mark n).cause = t.cause := rfl
@[simp] theorem Thread.mark_tval (t : Thread) (n : List Reg) : (t.mark n).tval = t.tval := rfl
@[simp] theorem Thread.mark_tvec (t : Thread) (n : List Reg) : (t.mark n).tvec = t.tvec := rfl
@[simp] theorem Thread.mark_tsave (t : Thread) (n : List Reg) : (t.mark n).tsave = t.tsave := rfl
@[simp] theorem Thread.mark_cause2 (t : Thread) (n : List Reg) : (t.mark n).cause2 = t.cause2 := rfl
@[simp] theorem Thread.mark_tval2 (t : Thread) (n : List Reg) : (t.mark n).tval2 = t.tval2 := rfl
@[simp] theorem Thread.mark_prog (t : Thread) (n : List Reg) : (t.mark n).prog = t.prog := rfl
@[simp] theorem Thread.mark_tstk (t : Thread) (n : List Reg) : (t.mark n).tstk = t.tstk := rfl
@[simp] theorem Thread.mark_tsg (t : Thread) (n : List Reg) : (t.mark n).tsg = t.tsg := rfl
@[simp] theorem Thread.mark_wp0 (t : Thread) (n : List Reg) : (t.mark n).wp0 = t.wp0 := rfl
@[simp] theorem Thread.mark_wp1 (t : Thread) (n : List Reg) : (t.mark n).wp1 = t.wp1 := rfl
@[simp] theorem Thread.mark_tf (t : Thread) (n : List Reg) : (t.mark n).tf = t.tf := rfl
@[simp] theorem Thread.mark_fw (t : Thread) (n : List Reg) : (t.mark n).fw = t.fw := rfl
@[simp] theorem Thread.mark_ts (t : Thread) (n : List Reg) : (t.mark n).ts = t.ts := rfl
@[simp] theorem Thread.mark_vw (t : Thread) (n : List Reg) : (t.mark n).vw = t.vw := rfl
@[simp] theorem Thread.mark_task (t : Thread) (n : List Reg) : (t.mark n).task = t.task := rfl
@[simp] theorem Thread.mark_cbEntry (t : Thread) (n : List Reg) : (t.mark n).cbEntry = t.cbEntry := rfl
@[simp] theorem Thread.mark_cbNeed (t : Thread) (n : List Reg) : (t.mark n).cbNeed = t.cbNeed := rfl
@[simp] theorem Thread.mark_irq (t : Thread) (n : List Reg) : (t.mark n).irq = t.irq := rfl
@[simp] theorem Thread.mark_irqTen (t : Thread) (n : List Reg) : (t.mark n).irqTen = t.irqTen := rfl
@[simp] theorem Thread.mark_park (t : Thread) (n : List Reg) : (t.mark n).park = t.park := rfl
@[simp] theorem Thread.mark_stall (t : Thread) (n : List Reg) : (t.mark n).stall = t.stall := rfl
@[simp] theorem Thread.mark_preemptDue (t : Thread) (n : List Reg) : (t.mark n).preemptDue = t.preemptDue := rfl
@[simp] theorem Thread.mark_dueAt (t : Thread) (n : List Reg) : (t.mark n).dueAt = t.dueAt := rfl
@[simp] theorem Thread.mark_stopDue (t : Thread) (n : List Reg) : (t.mark n).stopDue = t.stopDue := rfl
@[simp] theorem Thread.mark_stopAt (t : Thread) (n : List Reg) : (t.mark n).stopAt = t.stopAt := rfl
@[simp] theorem Thread.mark_fence (t : Thread) (n : List Reg) : (t.mark n).fence = t.fence := rfl
@[simp] theorem Thread.unmark_g (t : Thread) (n : Reg) : (t.unmark n).g = t.g := rfl
@[simp] theorem Thread.unmark_v (t : Thread) (n : Reg) : (t.unmark n).v = t.v := rfl
@[simp] theorem Thread.unmark_k (t : Thread) (n : Reg) : (t.unmark n).k = t.k := rfl
@[simp] theorem Thread.unmark_w (t : Thread) (n : Reg) : (t.unmark n).w = t.w := rfl
@[simp] theorem Thread.unmark_x (t : Thread) (n : Reg) : (t.unmark n).x = t.x := rfl
@[simp] theorem Thread.unmark_cb (t : Thread) (n : Reg) : (t.unmark n).cb = t.cb := rfl
@[simp] theorem Thread.unmark_pc (t : Thread) (n : Reg) : (t.unmark n).pc = t.pc := rfl
@[simp] theorem Thread.unmark_ol (t : Thread) (n : Reg) : (t.unmark n).ol = t.ol := rfl
@[simp] theorem Thread.unmark_os (t : Thread) (n : Reg) : (t.unmark n).os = t.os := rfl
@[simp] theorem Thread.unmark_oc (t : Thread) (n : Reg) : (t.unmark n).oc = t.oc := rfl
@[simp] theorem Thread.unmark_ot (t : Thread) (n : Reg) : (t.unmark n).ot = t.ot := rfl
@[simp] theorem Thread.unmark_tstat (t : Thread) (n : Reg) : (t.unmark n).tstat = t.tstat := rfl
@[simp] theorem Thread.unmark_epc (t : Thread) (n : Reg) : (t.unmark n).epc = t.epc := rfl
@[simp] theorem Thread.unmark_cause (t : Thread) (n : Reg) : (t.unmark n).cause = t.cause := rfl
@[simp] theorem Thread.unmark_tval (t : Thread) (n : Reg) : (t.unmark n).tval = t.tval := rfl
@[simp] theorem Thread.unmark_tvec (t : Thread) (n : Reg) : (t.unmark n).tvec = t.tvec := rfl
@[simp] theorem Thread.unmark_tsave (t : Thread) (n : Reg) : (t.unmark n).tsave = t.tsave := rfl
@[simp] theorem Thread.unmark_cause2 (t : Thread) (n : Reg) : (t.unmark n).cause2 = t.cause2 := rfl
@[simp] theorem Thread.unmark_tval2 (t : Thread) (n : Reg) : (t.unmark n).tval2 = t.tval2 := rfl
@[simp] theorem Thread.unmark_prog (t : Thread) (n : Reg) : (t.unmark n).prog = t.prog := rfl
@[simp] theorem Thread.unmark_tstk (t : Thread) (n : Reg) : (t.unmark n).tstk = t.tstk := rfl
@[simp] theorem Thread.unmark_tsg (t : Thread) (n : Reg) : (t.unmark n).tsg = t.tsg := rfl
@[simp] theorem Thread.unmark_wp0 (t : Thread) (n : Reg) : (t.unmark n).wp0 = t.wp0 := rfl
@[simp] theorem Thread.unmark_wp1 (t : Thread) (n : Reg) : (t.unmark n).wp1 = t.wp1 := rfl
@[simp] theorem Thread.unmark_tf (t : Thread) (n : Reg) : (t.unmark n).tf = t.tf := rfl
@[simp] theorem Thread.unmark_fw (t : Thread) (n : Reg) : (t.unmark n).fw = t.fw := rfl
@[simp] theorem Thread.unmark_ts (t : Thread) (n : Reg) : (t.unmark n).ts = t.ts := rfl
@[simp] theorem Thread.unmark_vw (t : Thread) (n : Reg) : (t.unmark n).vw = t.vw := rfl
@[simp] theorem Thread.unmark_task (t : Thread) (n : Reg) : (t.unmark n).task = t.task := rfl
@[simp] theorem Thread.unmark_cbEntry (t : Thread) (n : Reg) : (t.unmark n).cbEntry = t.cbEntry := rfl
@[simp] theorem Thread.unmark_cbNeed (t : Thread) (n : Reg) : (t.unmark n).cbNeed = t.cbNeed := rfl
@[simp] theorem Thread.unmark_irq (t : Thread) (n : Reg) : (t.unmark n).irq = t.irq := rfl
@[simp] theorem Thread.unmark_irqTen (t : Thread) (n : Reg) : (t.unmark n).irqTen = t.irqTen := rfl
@[simp] theorem Thread.unmark_park (t : Thread) (n : Reg) : (t.unmark n).park = t.park := rfl
@[simp] theorem Thread.unmark_stall (t : Thread) (n : Reg) : (t.unmark n).stall = t.stall := rfl
@[simp] theorem Thread.unmark_preemptDue (t : Thread) (n : Reg) : (t.unmark n).preemptDue = t.preemptDue := rfl
@[simp] theorem Thread.unmark_dueAt (t : Thread) (n : Reg) : (t.unmark n).dueAt = t.dueAt := rfl
@[simp] theorem Thread.unmark_stopDue (t : Thread) (n : Reg) : (t.unmark n).stopDue = t.stopDue := rfl
@[simp] theorem Thread.unmark_stopAt (t : Thread) (n : Reg) : (t.unmark n).stopAt = t.stopAt := rfl
@[simp] theorem Thread.unmark_fence (t : Thread) (n : Reg) : (t.unmark n).fence = t.fence := rfl
@[simp] theorem Thread.wg_v (t : Thread) (n : Nat) (x : Word) : (t.wg n x).v = t.v := by unfold Thread.wg; split <;> rfl
@[simp] theorem Thread.wg_k (t : Thread) (n : Nat) (x : Word) : (t.wg n x).k = t.k := by unfold Thread.wg; split <;> rfl
@[simp] theorem Thread.wg_w (t : Thread) (n : Nat) (x : Word) : (t.wg n x).w = t.w := by unfold Thread.wg; split <;> rfl
@[simp] theorem Thread.wg_x (t : Thread) (n : Nat) (x : Word) : (t.wg n x).x = t.x := by unfold Thread.wg; split <;> rfl
@[simp] theorem Thread.wg_cb (t : Thread) (n : Nat) (x : Word) : (t.wg n x).cb = t.cb := by unfold Thread.wg; split <;> rfl
@[simp] theorem Thread.wg_pc (t : Thread) (n : Nat) (x : Word) : (t.wg n x).pc = t.pc := by unfold Thread.wg; split <;> rfl
@[simp] theorem Thread.wg_ol (t : Thread) (n : Nat) (x : Word) : (t.wg n x).ol = t.ol := by unfold Thread.wg; split <;> rfl
@[simp] theorem Thread.wg_os (t : Thread) (n : Nat) (x : Word) : (t.wg n x).os = t.os := by unfold Thread.wg; split <;> rfl
@[simp] theorem Thread.wg_oc (t : Thread) (n : Nat) (x : Word) : (t.wg n x).oc = t.oc := by unfold Thread.wg; split <;> rfl
@[simp] theorem Thread.wg_ot (t : Thread) (n : Nat) (x : Word) : (t.wg n x).ot = t.ot := by unfold Thread.wg; split <;> rfl
@[simp] theorem Thread.wg_busy (t : Thread) (n : Nat) (x : Word) : (t.wg n x).busy = t.busy := by unfold Thread.wg; split <;> rfl
@[simp] theorem Thread.wg_tstat (t : Thread) (n : Nat) (x : Word) : (t.wg n x).tstat = t.tstat := by unfold Thread.wg; split <;> rfl
@[simp] theorem Thread.wg_epc (t : Thread) (n : Nat) (x : Word) : (t.wg n x).epc = t.epc := by unfold Thread.wg; split <;> rfl
@[simp] theorem Thread.wg_cause (t : Thread) (n : Nat) (x : Word) : (t.wg n x).cause = t.cause := by unfold Thread.wg; split <;> rfl
@[simp] theorem Thread.wg_tval (t : Thread) (n : Nat) (x : Word) : (t.wg n x).tval = t.tval := by unfold Thread.wg; split <;> rfl
@[simp] theorem Thread.wg_tvec (t : Thread) (n : Nat) (x : Word) : (t.wg n x).tvec = t.tvec := by unfold Thread.wg; split <;> rfl
@[simp] theorem Thread.wg_tsave (t : Thread) (n : Nat) (x : Word) : (t.wg n x).tsave = t.tsave := by unfold Thread.wg; split <;> rfl
@[simp] theorem Thread.wg_cause2 (t : Thread) (n : Nat) (x : Word) : (t.wg n x).cause2 = t.cause2 := by unfold Thread.wg; split <;> rfl
@[simp] theorem Thread.wg_tval2 (t : Thread) (n : Nat) (x : Word) : (t.wg n x).tval2 = t.tval2 := by unfold Thread.wg; split <;> rfl
@[simp] theorem Thread.wg_prog (t : Thread) (n : Nat) (x : Word) : (t.wg n x).prog = t.prog := by unfold Thread.wg; split <;> rfl
@[simp] theorem Thread.wg_tstk (t : Thread) (n : Nat) (x : Word) : (t.wg n x).tstk = t.tstk := by unfold Thread.wg; split <;> rfl
@[simp] theorem Thread.wg_tsg (t : Thread) (n : Nat) (x : Word) : (t.wg n x).tsg = t.tsg := by unfold Thread.wg; split <;> rfl
@[simp] theorem Thread.wg_wp0 (t : Thread) (n : Nat) (x : Word) : (t.wg n x).wp0 = t.wp0 := by unfold Thread.wg; split <;> rfl
@[simp] theorem Thread.wg_wp1 (t : Thread) (n : Nat) (x : Word) : (t.wg n x).wp1 = t.wp1 := by unfold Thread.wg; split <;> rfl
@[simp] theorem Thread.wg_tf (t : Thread) (n : Nat) (x : Word) : (t.wg n x).tf = t.tf := by unfold Thread.wg; split <;> rfl
@[simp] theorem Thread.wg_fw (t : Thread) (n : Nat) (x : Word) : (t.wg n x).fw = t.fw := by unfold Thread.wg; split <;> rfl
@[simp] theorem Thread.wg_ts (t : Thread) (n : Nat) (x : Word) : (t.wg n x).ts = t.ts := by unfold Thread.wg; split <;> rfl
@[simp] theorem Thread.wg_vw (t : Thread) (n : Nat) (x : Word) : (t.wg n x).vw = t.vw := by unfold Thread.wg; split <;> rfl
@[simp] theorem Thread.wg_task (t : Thread) (n : Nat) (x : Word) : (t.wg n x).task = t.task := by unfold Thread.wg; split <;> rfl
@[simp] theorem Thread.wg_cbEntry (t : Thread) (n : Nat) (x : Word) : (t.wg n x).cbEntry = t.cbEntry := by unfold Thread.wg; split <;> rfl
@[simp] theorem Thread.wg_cbNeed (t : Thread) (n : Nat) (x : Word) : (t.wg n x).cbNeed = t.cbNeed := by unfold Thread.wg; split <;> rfl
@[simp] theorem Thread.wg_irq (t : Thread) (n : Nat) (x : Word) : (t.wg n x).irq = t.irq := by unfold Thread.wg; split <;> rfl
@[simp] theorem Thread.wg_irqTen (t : Thread) (n : Nat) (x : Word) : (t.wg n x).irqTen = t.irqTen := by unfold Thread.wg; split <;> rfl
@[simp] theorem Thread.wg_park (t : Thread) (n : Nat) (x : Word) : (t.wg n x).park = t.park := by unfold Thread.wg; split <;> rfl
@[simp] theorem Thread.wg_stall (t : Thread) (n : Nat) (x : Word) : (t.wg n x).stall = t.stall := by unfold Thread.wg; split <;> rfl
@[simp] theorem Thread.wg_preemptDue (t : Thread) (n : Nat) (x : Word) : (t.wg n x).preemptDue = t.preemptDue := by unfold Thread.wg; split <;> rfl
@[simp] theorem Thread.wg_dueAt (t : Thread) (n : Nat) (x : Word) : (t.wg n x).dueAt = t.dueAt := by unfold Thread.wg; split <;> rfl
@[simp] theorem Thread.wg_stopDue (t : Thread) (n : Nat) (x : Word) : (t.wg n x).stopDue = t.stopDue := by unfold Thread.wg; split <;> rfl
@[simp] theorem Thread.wg_stopAt (t : Thread) (n : Nat) (x : Word) : (t.wg n x).stopAt = t.stopAt := by unfold Thread.wg; split <;> rfl
@[simp] theorem Thread.wg_fence (t : Thread) (n : Nat) (x : Word) : (t.wg n x).fence = t.fence := by unfold Thread.wg; split <;> rfl
@[simp] theorem Thread.wk_g (t : Thread) (n : Nat) (x : BitVec 16) : (t.wk n x).g = t.g := by unfold Thread.wk; split <;> rfl
@[simp] theorem Thread.wk_v (t : Thread) (n : Nat) (x : BitVec 16) : (t.wk n x).v = t.v := by unfold Thread.wk; split <;> rfl
@[simp] theorem Thread.wk_w (t : Thread) (n : Nat) (x : BitVec 16) : (t.wk n x).w = t.w := by unfold Thread.wk; split <;> rfl
@[simp] theorem Thread.wk_x (t : Thread) (n : Nat) (x : BitVec 16) : (t.wk n x).x = t.x := by unfold Thread.wk; split <;> rfl
@[simp] theorem Thread.wk_cb (t : Thread) (n : Nat) (x : BitVec 16) : (t.wk n x).cb = t.cb := by unfold Thread.wk; split <;> rfl
@[simp] theorem Thread.wk_pc (t : Thread) (n : Nat) (x : BitVec 16) : (t.wk n x).pc = t.pc := by unfold Thread.wk; split <;> rfl
@[simp] theorem Thread.wk_ol (t : Thread) (n : Nat) (x : BitVec 16) : (t.wk n x).ol = t.ol := by unfold Thread.wk; split <;> rfl
@[simp] theorem Thread.wk_os (t : Thread) (n : Nat) (x : BitVec 16) : (t.wk n x).os = t.os := by unfold Thread.wk; split <;> rfl
@[simp] theorem Thread.wk_oc (t : Thread) (n : Nat) (x : BitVec 16) : (t.wk n x).oc = t.oc := by unfold Thread.wk; split <;> rfl
@[simp] theorem Thread.wk_ot (t : Thread) (n : Nat) (x : BitVec 16) : (t.wk n x).ot = t.ot := by unfold Thread.wk; split <;> rfl
@[simp] theorem Thread.wk_busy (t : Thread) (n : Nat) (x : BitVec 16) : (t.wk n x).busy = t.busy := by unfold Thread.wk; split <;> rfl
@[simp] theorem Thread.wk_tstat (t : Thread) (n : Nat) (x : BitVec 16) : (t.wk n x).tstat = t.tstat := by unfold Thread.wk; split <;> rfl
@[simp] theorem Thread.wk_epc (t : Thread) (n : Nat) (x : BitVec 16) : (t.wk n x).epc = t.epc := by unfold Thread.wk; split <;> rfl
@[simp] theorem Thread.wk_cause (t : Thread) (n : Nat) (x : BitVec 16) : (t.wk n x).cause = t.cause := by unfold Thread.wk; split <;> rfl
@[simp] theorem Thread.wk_tval (t : Thread) (n : Nat) (x : BitVec 16) : (t.wk n x).tval = t.tval := by unfold Thread.wk; split <;> rfl
@[simp] theorem Thread.wk_tvec (t : Thread) (n : Nat) (x : BitVec 16) : (t.wk n x).tvec = t.tvec := by unfold Thread.wk; split <;> rfl
@[simp] theorem Thread.wk_tsave (t : Thread) (n : Nat) (x : BitVec 16) : (t.wk n x).tsave = t.tsave := by unfold Thread.wk; split <;> rfl
@[simp] theorem Thread.wk_cause2 (t : Thread) (n : Nat) (x : BitVec 16) : (t.wk n x).cause2 = t.cause2 := by unfold Thread.wk; split <;> rfl
@[simp] theorem Thread.wk_tval2 (t : Thread) (n : Nat) (x : BitVec 16) : (t.wk n x).tval2 = t.tval2 := by unfold Thread.wk; split <;> rfl
@[simp] theorem Thread.wk_prog (t : Thread) (n : Nat) (x : BitVec 16) : (t.wk n x).prog = t.prog := by unfold Thread.wk; split <;> rfl
@[simp] theorem Thread.wk_tstk (t : Thread) (n : Nat) (x : BitVec 16) : (t.wk n x).tstk = t.tstk := by unfold Thread.wk; split <;> rfl
@[simp] theorem Thread.wk_tsg (t : Thread) (n : Nat) (x : BitVec 16) : (t.wk n x).tsg = t.tsg := by unfold Thread.wk; split <;> rfl
@[simp] theorem Thread.wk_wp0 (t : Thread) (n : Nat) (x : BitVec 16) : (t.wk n x).wp0 = t.wp0 := by unfold Thread.wk; split <;> rfl
@[simp] theorem Thread.wk_wp1 (t : Thread) (n : Nat) (x : BitVec 16) : (t.wk n x).wp1 = t.wp1 := by unfold Thread.wk; split <;> rfl
@[simp] theorem Thread.wk_tf (t : Thread) (n : Nat) (x : BitVec 16) : (t.wk n x).tf = t.tf := by unfold Thread.wk; split <;> rfl
@[simp] theorem Thread.wk_fw (t : Thread) (n : Nat) (x : BitVec 16) : (t.wk n x).fw = t.fw := by unfold Thread.wk; split <;> rfl
@[simp] theorem Thread.wk_ts (t : Thread) (n : Nat) (x : BitVec 16) : (t.wk n x).ts = t.ts := by unfold Thread.wk; split <;> rfl
@[simp] theorem Thread.wk_vw (t : Thread) (n : Nat) (x : BitVec 16) : (t.wk n x).vw = t.vw := by unfold Thread.wk; split <;> rfl
@[simp] theorem Thread.wk_task (t : Thread) (n : Nat) (x : BitVec 16) : (t.wk n x).task = t.task := by unfold Thread.wk; split <;> rfl
@[simp] theorem Thread.wk_cbEntry (t : Thread) (n : Nat) (x : BitVec 16) : (t.wk n x).cbEntry = t.cbEntry := by unfold Thread.wk; split <;> rfl
@[simp] theorem Thread.wk_cbNeed (t : Thread) (n : Nat) (x : BitVec 16) : (t.wk n x).cbNeed = t.cbNeed := by unfold Thread.wk; split <;> rfl
@[simp] theorem Thread.wk_irq (t : Thread) (n : Nat) (x : BitVec 16) : (t.wk n x).irq = t.irq := by unfold Thread.wk; split <;> rfl
@[simp] theorem Thread.wk_irqTen (t : Thread) (n : Nat) (x : BitVec 16) : (t.wk n x).irqTen = t.irqTen := by unfold Thread.wk; split <;> rfl
@[simp] theorem Thread.wk_park (t : Thread) (n : Nat) (x : BitVec 16) : (t.wk n x).park = t.park := by unfold Thread.wk; split <;> rfl
@[simp] theorem Thread.wk_stall (t : Thread) (n : Nat) (x : BitVec 16) : (t.wk n x).stall = t.stall := by unfold Thread.wk; split <;> rfl
@[simp] theorem Thread.wk_preemptDue (t : Thread) (n : Nat) (x : BitVec 16) : (t.wk n x).preemptDue = t.preemptDue := by unfold Thread.wk; split <;> rfl
@[simp] theorem Thread.wk_dueAt (t : Thread) (n : Nat) (x : BitVec 16) : (t.wk n x).dueAt = t.dueAt := by unfold Thread.wk; split <;> rfl
@[simp] theorem Thread.wk_stopDue (t : Thread) (n : Nat) (x : BitVec 16) : (t.wk n x).stopDue = t.stopDue := by unfold Thread.wk; split <;> rfl
@[simp] theorem Thread.wk_stopAt (t : Thread) (n : Nat) (x : BitVec 16) : (t.wk n x).stopAt = t.stopAt := by unfold Thread.wk; split <;> rfl
@[simp] theorem Thread.wk_fence (t : Thread) (n : Nat) (x : BitVec 16) : (t.wk n x).fence = t.fence := by unfold Thread.wk; split <;> rfl
@[simp] theorem Thread.ww_g (t : Thread) (n : Nat) (x : Word) : (t.ww n x).g = t.g := by unfold Thread.ww; split <;> rfl
@[simp] theorem Thread.ww_v (t : Thread) (n : Nat) (x : Word) : (t.ww n x).v = t.v := by unfold Thread.ww; split <;> rfl
@[simp] theorem Thread.ww_k (t : Thread) (n : Nat) (x : Word) : (t.ww n x).k = t.k := by unfold Thread.ww; split <;> rfl
@[simp] theorem Thread.ww_x (t : Thread) (n : Nat) (x : Word) : (t.ww n x).x = t.x := by unfold Thread.ww; split <;> rfl
@[simp] theorem Thread.ww_cb (t : Thread) (n : Nat) (x : Word) : (t.ww n x).cb = t.cb := by unfold Thread.ww; split <;> rfl
@[simp] theorem Thread.ww_pc (t : Thread) (n : Nat) (x : Word) : (t.ww n x).pc = t.pc := by unfold Thread.ww; split <;> rfl
@[simp] theorem Thread.ww_ol (t : Thread) (n : Nat) (x : Word) : (t.ww n x).ol = t.ol := by unfold Thread.ww; split <;> rfl
@[simp] theorem Thread.ww_os (t : Thread) (n : Nat) (x : Word) : (t.ww n x).os = t.os := by unfold Thread.ww; split <;> rfl
@[simp] theorem Thread.ww_oc (t : Thread) (n : Nat) (x : Word) : (t.ww n x).oc = t.oc := by unfold Thread.ww; split <;> rfl
@[simp] theorem Thread.ww_ot (t : Thread) (n : Nat) (x : Word) : (t.ww n x).ot = t.ot := by unfold Thread.ww; split <;> rfl
@[simp] theorem Thread.ww_busy (t : Thread) (n : Nat) (x : Word) : (t.ww n x).busy = t.busy := by unfold Thread.ww; split <;> rfl
@[simp] theorem Thread.ww_tstat (t : Thread) (n : Nat) (x : Word) : (t.ww n x).tstat = t.tstat := by unfold Thread.ww; split <;> rfl
@[simp] theorem Thread.ww_epc (t : Thread) (n : Nat) (x : Word) : (t.ww n x).epc = t.epc := by unfold Thread.ww; split <;> rfl
@[simp] theorem Thread.ww_cause (t : Thread) (n : Nat) (x : Word) : (t.ww n x).cause = t.cause := by unfold Thread.ww; split <;> rfl
@[simp] theorem Thread.ww_tval (t : Thread) (n : Nat) (x : Word) : (t.ww n x).tval = t.tval := by unfold Thread.ww; split <;> rfl
@[simp] theorem Thread.ww_tvec (t : Thread) (n : Nat) (x : Word) : (t.ww n x).tvec = t.tvec := by unfold Thread.ww; split <;> rfl
@[simp] theorem Thread.ww_tsave (t : Thread) (n : Nat) (x : Word) : (t.ww n x).tsave = t.tsave := by unfold Thread.ww; split <;> rfl
@[simp] theorem Thread.ww_cause2 (t : Thread) (n : Nat) (x : Word) : (t.ww n x).cause2 = t.cause2 := by unfold Thread.ww; split <;> rfl
@[simp] theorem Thread.ww_tval2 (t : Thread) (n : Nat) (x : Word) : (t.ww n x).tval2 = t.tval2 := by unfold Thread.ww; split <;> rfl
@[simp] theorem Thread.ww_prog (t : Thread) (n : Nat) (x : Word) : (t.ww n x).prog = t.prog := by unfold Thread.ww; split <;> rfl
@[simp] theorem Thread.ww_tstk (t : Thread) (n : Nat) (x : Word) : (t.ww n x).tstk = t.tstk := by unfold Thread.ww; split <;> rfl
@[simp] theorem Thread.ww_tsg (t : Thread) (n : Nat) (x : Word) : (t.ww n x).tsg = t.tsg := by unfold Thread.ww; split <;> rfl
@[simp] theorem Thread.ww_wp0 (t : Thread) (n : Nat) (x : Word) : (t.ww n x).wp0 = t.wp0 := by unfold Thread.ww; split <;> rfl
@[simp] theorem Thread.ww_wp1 (t : Thread) (n : Nat) (x : Word) : (t.ww n x).wp1 = t.wp1 := by unfold Thread.ww; split <;> rfl
@[simp] theorem Thread.ww_tf (t : Thread) (n : Nat) (x : Word) : (t.ww n x).tf = t.tf := by unfold Thread.ww; split <;> rfl
@[simp] theorem Thread.ww_fw (t : Thread) (n : Nat) (x : Word) : (t.ww n x).fw = t.fw := by unfold Thread.ww; split <;> rfl
@[simp] theorem Thread.ww_ts (t : Thread) (n : Nat) (x : Word) : (t.ww n x).ts = t.ts := by unfold Thread.ww; split <;> rfl
@[simp] theorem Thread.ww_vw (t : Thread) (n : Nat) (x : Word) : (t.ww n x).vw = t.vw := by unfold Thread.ww; split <;> rfl
@[simp] theorem Thread.ww_task (t : Thread) (n : Nat) (x : Word) : (t.ww n x).task = t.task := by unfold Thread.ww; split <;> rfl
@[simp] theorem Thread.ww_cbEntry (t : Thread) (n : Nat) (x : Word) : (t.ww n x).cbEntry = t.cbEntry := by unfold Thread.ww; split <;> rfl
@[simp] theorem Thread.ww_cbNeed (t : Thread) (n : Nat) (x : Word) : (t.ww n x).cbNeed = t.cbNeed := by unfold Thread.ww; split <;> rfl
@[simp] theorem Thread.ww_irq (t : Thread) (n : Nat) (x : Word) : (t.ww n x).irq = t.irq := by unfold Thread.ww; split <;> rfl
@[simp] theorem Thread.ww_irqTen (t : Thread) (n : Nat) (x : Word) : (t.ww n x).irqTen = t.irqTen := by unfold Thread.ww; split <;> rfl
@[simp] theorem Thread.ww_park (t : Thread) (n : Nat) (x : Word) : (t.ww n x).park = t.park := by unfold Thread.ww; split <;> rfl
@[simp] theorem Thread.ww_stall (t : Thread) (n : Nat) (x : Word) : (t.ww n x).stall = t.stall := by unfold Thread.ww; split <;> rfl
@[simp] theorem Thread.ww_preemptDue (t : Thread) (n : Nat) (x : Word) : (t.ww n x).preemptDue = t.preemptDue := by unfold Thread.ww; split <;> rfl
@[simp] theorem Thread.ww_dueAt (t : Thread) (n : Nat) (x : Word) : (t.ww n x).dueAt = t.dueAt := by unfold Thread.ww; split <;> rfl
@[simp] theorem Thread.ww_stopDue (t : Thread) (n : Nat) (x : Word) : (t.ww n x).stopDue = t.stopDue := by unfold Thread.ww; split <;> rfl
@[simp] theorem Thread.ww_stopAt (t : Thread) (n : Nat) (x : Word) : (t.ww n x).stopAt = t.stopAt := by unfold Thread.ww; split <;> rfl
@[simp] theorem Thread.ww_fence (t : Thread) (n : Nat) (x : Word) : (t.ww n x).fence = t.fence := by unfold Thread.ww; split <;> rfl
@[simp] theorem Thread.warn_g (t : Thread) (b : Bool) : (t.warn b).g = t.g := by cases b <;> rfl
@[simp] theorem Thread.warn_v (t : Thread) (b : Bool) : (t.warn b).v = t.v := by cases b <;> rfl
@[simp] theorem Thread.warn_k (t : Thread) (b : Bool) : (t.warn b).k = t.k := by cases b <;> rfl
@[simp] theorem Thread.warn_w (t : Thread) (b : Bool) : (t.warn b).w = t.w := by cases b <;> rfl
@[simp] theorem Thread.warn_x (t : Thread) (b : Bool) : (t.warn b).x = t.x := by cases b <;> rfl
@[simp] theorem Thread.warn_cb (t : Thread) (b : Bool) : (t.warn b).cb = t.cb := by cases b <;> rfl
@[simp] theorem Thread.warn_pc (t : Thread) (b : Bool) : (t.warn b).pc = t.pc := by cases b <;> rfl
@[simp] theorem Thread.warn_ol (t : Thread) (b : Bool) : (t.warn b).ol = t.ol := by cases b <;> rfl
@[simp] theorem Thread.warn_os (t : Thread) (b : Bool) : (t.warn b).os = t.os := by cases b <;> rfl
@[simp] theorem Thread.warn_oc (t : Thread) (b : Bool) : (t.warn b).oc = t.oc := by cases b <;> rfl
@[simp] theorem Thread.warn_ot (t : Thread) (b : Bool) : (t.warn b).ot = t.ot := by cases b <;> rfl
@[simp] theorem Thread.warn_busy (t : Thread) (b : Bool) : (t.warn b).busy = t.busy := by cases b <;> rfl
@[simp] theorem Thread.warn_epc (t : Thread) (b : Bool) : (t.warn b).epc = t.epc := by cases b <;> rfl
@[simp] theorem Thread.warn_cause (t : Thread) (b : Bool) : (t.warn b).cause = t.cause := by cases b <;> rfl
@[simp] theorem Thread.warn_tval (t : Thread) (b : Bool) : (t.warn b).tval = t.tval := by cases b <;> rfl
@[simp] theorem Thread.warn_tvec (t : Thread) (b : Bool) : (t.warn b).tvec = t.tvec := by cases b <;> rfl
@[simp] theorem Thread.warn_tsave (t : Thread) (b : Bool) : (t.warn b).tsave = t.tsave := by cases b <;> rfl
@[simp] theorem Thread.warn_cause2 (t : Thread) (b : Bool) : (t.warn b).cause2 = t.cause2 := by cases b <;> rfl
@[simp] theorem Thread.warn_tval2 (t : Thread) (b : Bool) : (t.warn b).tval2 = t.tval2 := by cases b <;> rfl
@[simp] theorem Thread.warn_prog (t : Thread) (b : Bool) : (t.warn b).prog = t.prog := by cases b <;> rfl
@[simp] theorem Thread.warn_tstk (t : Thread) (b : Bool) : (t.warn b).tstk = t.tstk := by cases b <;> rfl
@[simp] theorem Thread.warn_tsg (t : Thread) (b : Bool) : (t.warn b).tsg = t.tsg := by cases b <;> rfl
@[simp] theorem Thread.warn_wp0 (t : Thread) (b : Bool) : (t.warn b).wp0 = t.wp0 := by cases b <;> rfl
@[simp] theorem Thread.warn_wp1 (t : Thread) (b : Bool) : (t.warn b).wp1 = t.wp1 := by cases b <;> rfl
@[simp] theorem Thread.warn_tf (t : Thread) (b : Bool) : (t.warn b).tf = t.tf := by cases b <;> rfl
@[simp] theorem Thread.warn_fw (t : Thread) (b : Bool) : (t.warn b).fw = t.fw := by cases b <;> rfl
@[simp] theorem Thread.warn_ts (t : Thread) (b : Bool) : (t.warn b).ts = t.ts := by cases b <;> rfl
@[simp] theorem Thread.warn_vw (t : Thread) (b : Bool) : (t.warn b).vw = t.vw := by cases b <;> rfl
@[simp] theorem Thread.warn_task (t : Thread) (b : Bool) : (t.warn b).task = t.task := by cases b <;> rfl
@[simp] theorem Thread.warn_cbEntry (t : Thread) (b : Bool) : (t.warn b).cbEntry = t.cbEntry := by cases b <;> rfl
@[simp] theorem Thread.warn_cbNeed (t : Thread) (b : Bool) : (t.warn b).cbNeed = t.cbNeed := by cases b <;> rfl
@[simp] theorem Thread.warn_irq (t : Thread) (b : Bool) : (t.warn b).irq = t.irq := by cases b <;> rfl
@[simp] theorem Thread.warn_irqTen (t : Thread) (b : Bool) : (t.warn b).irqTen = t.irqTen := by cases b <;> rfl
@[simp] theorem Thread.warn_park (t : Thread) (b : Bool) : (t.warn b).park = t.park := by cases b <;> rfl
@[simp] theorem Thread.warn_stall (t : Thread) (b : Bool) : (t.warn b).stall = t.stall := by cases b <;> rfl
@[simp] theorem Thread.warn_preemptDue (t : Thread) (b : Bool) : (t.warn b).preemptDue = t.preemptDue := by cases b <;> rfl
@[simp] theorem Thread.warn_dueAt (t : Thread) (b : Bool) : (t.warn b).dueAt = t.dueAt := by cases b <;> rfl
@[simp] theorem Thread.warn_stopDue (t : Thread) (b : Bool) : (t.warn b).stopDue = t.stopDue := by cases b <;> rfl
@[simp] theorem Thread.warn_stopAt (t : Thread) (b : Bool) : (t.warn b).stopAt = t.stopAt := by cases b <;> rfl
@[simp] theorem Thread.warn_fence (t : Thread) (b : Bool) : (t.warn b).fence = t.fence := by cases b <;> rfl

/-! ### Reads after writes -/

@[simp] theorem Thread.rg_zero (t : Thread) : t.rg 0 = 0 := rfl
@[simp] theorem Thread.rk_zero (t : Thread) : t.rk 0 = 0xFFFF := rfl
@[simp] theorem Thread.rw_zero (t : Thread) : t.rw 0 = 0 := rfl
theorem Thread.rg_wg (t : Thread) (n m : Nat) (v : Word) : (t.wg n v).rg m = if m = 0 then 0 else if m = n then v else t.rg m := by
  by_cases hm : m = 0
  · simp [Thread.rg, hm]
  · by_cases hn : n = 0
    · simp [Thread.rg, Thread.wg, hm, hn]
    · simp [Thread.rg, Thread.wg, hm, hn, Store.get_set]
theorem Thread.rk_wk (t : Thread) (n m : Nat) (v : BitVec 16) :
    (t.wk n v).rk m = if m = 0 then 0xFFFF else if m = n then v else t.rk m := by
  by_cases hm : m = 0
  · simp [Thread.rk, hm]
  · by_cases hn : n = 0
    · simp [Thread.rk, Thread.wk, hm, hn]
    · simp [Thread.rk, Thread.wk, hm, hn, Store.get_set]
theorem Thread.rw_ww (t : Thread) (n m : Nat) (v : Word) : (t.ww n v).rw m = if m = 0 then 0 else if m = n then v else t.rw m := by
  by_cases hm : m = 0
  · simp [Thread.rw, hm]
  · by_cases hn : n = 0
    · simp [Thread.rw, Thread.ww, hm, hn]
    · simp [Thread.rw, Thread.ww, hm, hn, Store.get_set]
theorem Thread.rv_wv (t : Thread) (n m : Nat) (v : Vec) : (t.wv n v).rv m = if m = n then v else t.rv m := Store.get_set ..
theorem Thread.rx_wx (t : Thread) (n m : Nat) (v : Word) : (t.wx n v).rx m = if m = n then v else t.rx m := Store.get_set ..

end Sys2Proof.Machine
end

