-- ==== Sys2Proof/Laws/Ops.lean ====
section
/-! SUPPORT. What the shared ends of an instruction can do: stall, completion, trap entry, and the registers each leaves alone. -/

namespace Sys2Proof.Machine

/-! ### What a change of a thread keeps -/

theorem KeepsRegs.refl (t : Thread) : KeepsRegs [] t t :=
  ⟨fun _ _ => rfl, fun _ _ => rfl, fun _ _ => rfl, fun _ _ => rfl, fun _ _ => rfl, rfl, rfl⟩

theorem KeepsRegs.wg (t : Thread) (d : Nat) (x : Word) : KeepsRegs [.g d] t (t.wg d x) := by
  refine ⟨fun n h => ?_, fun _ _ => ?_, fun _ _ => ?_, fun _ _ => ?_, fun _ _ => ?_, ?_, ?_⟩
  · have hn : n ≠ d := by simpa using h
    by_cases h0 : n = 0
    · simp [Thread.rg, h0]
    · rw [Thread.rg_wg, if_neg h0, if_neg hn]
  all_goals (unfold Thread.wg; split <;> rfl)

theorem KeepsRegs.wk (t : Thread) (d : Nat) (x : BitVec 16) : KeepsRegs [.k d] t (t.wk d x) := by
  refine ⟨fun _ _ => ?_, fun _ _ => ?_, fun n h => ?_, fun _ _ => ?_, fun _ _ => ?_, ?_, ?_⟩
  case refine_3 =>
    have hn : n ≠ d := by simpa using h
    by_cases h0 : n = 0
    · simp [Thread.rk, h0]
    · rw [Thread.rk_wk, if_neg h0, if_neg hn]
  all_goals (unfold Thread.wk; split <;> rfl)

theorem KeepsRegs.ww (t : Thread) (d : Nat) (x : Word) : KeepsRegs [.w d] t (t.ww d x) := by
  refine ⟨fun _ _ => ?_, fun _ _ => ?_, fun _ _ => ?_, fun n h => ?_, fun _ _ => ?_, ?_, ?_⟩
  case refine_4 =>
    have hn : n ≠ d := by simpa using h
    by_cases h0 : n = 0
    · simp [Thread.rw, h0]
    · rw [Thread.rw_ww, if_neg h0, if_neg hn]
  all_goals (unfold Thread.ww; split <;> rfl)

theorem KeepsRegs.wv (t : Thread) (d : Nat) (x : Vec) : KeepsRegs [.v d] t (t.wv d x) := by
  refine ⟨fun _ _ => rfl, fun n h => ?_, fun _ _ => rfl, fun _ _ => rfl, fun _ _ => rfl, rfl, rfl⟩
  rw [Thread.rv_wv, if_neg (by simpa using h)]

theorem KeepsRegs.wx (t : Thread) (d : Nat) (x : Word) : KeepsRegs [.x d] t (t.wx d x) := by
  refine ⟨fun _ _ => rfl, fun _ _ => rfl, fun _ _ => rfl, fun _ _ => rfl, fun n h => ?_, rfl, rfl⟩
  rw [Thread.rx_wx, if_neg (by simpa using h)]

/-- PC, status, progress and stall are not among the registers. -/
theorem KeepsRegs.status {rs : List Reg} {t0 t : Thread} (h : KeepsRegs rs t0 t) (st pc pr : Word) (k : Option Stall) :
    KeepsRegs rs t0 { t with tstat := st, pc := pc, prog := pr, stall := k } := h

theorem KeepsRegs.raise {rs : List Reg} {t0 : Thread} {t : Thread} (f : Nat) (h : KeepsRegs rs (t0.raise f) t) :
    KeepsRegs rs t0 t := h

/-! ### Completion -/

theorem SameRest.setMe (s : State) (t : Thread) : SameRest s (s.setMe t) :=
  ⟨rfl, fun _ h => State.setThr_ne s t h, rfl, fun _ => rfl⟩

theorem SameRest.commit (s : State) (t : Thread) : SameRest s (s.commit s.cur t) := by
  unfold State.commit
  simp only
  split
  · exact SameRest.setMe s t
  · refine ⟨rfl, fun _ h => State.setThr_ne s t h, rfl, fun b => ?_⟩
    simp only [State.updBy_pkg, State.setThr_pkg]
    by_cases h : b = benchOf s.cur
    · subst h; rw [Pkg.onBench_self]
    · rw [Pkg.onBench_ne _ _ h]

@[simp] theorem State.commit_cur (s : State) (n : Nat) (t : Thread) : (s.commit n t).cur = s.cur := by
  unfold State.commit; simp only; split <;> rfl

@[simp] theorem State.commit_thr (s : State) (n : Nat) (t : Thread) : (s.commit n t).thr n = t := by
  unfold State.commit
  simp only
  split
  · exact State.setThr_self s n t
  · exact State.setThr_self s n t

@[simp] theorem State.commit_me (s : State) (t : Thread) : (s.commit s.cur t).me = t := by
  unfold State.me; rw [State.commit_cur]; exact State.commit_thr s s.cur t

@[simp] theorem State.completeAt_me (s : State) (t : Thread) (pc : Word) (w : Bool) :
    (s.completeAt t pc w).me = { t.dropPrefix.warn w with pc := pc, prog := 0, stall := none } := State.commit_me ..

/-- Completion by a thread that has changed only registers and flags. -/
theorem Ran.completeAt {rs : List Reg} {s : State} {t : Thread} (fl : Nat) (pc : Word) (w : Bool) (hk : KeepsRegs rs s.me t)
    (hf : t.tstat = s.me.tstat ||| BitVec.ofNat 64 (fl % 32 * 4)) :
    Ran rs pc (statAfter s fl w) s (s.completeAt t pc w) := by
  refine ⟨State.commit_cur .., ?_, ?_, ?_, ?_, ?_, SameRest.commit ..⟩
  · rw [State.completeAt_me]
  · rw [State.completeAt_me]
    cases w
    · simp [statAfter, Thread.dropPrefix, Thread.warn, hf]
    · simp [statAfter, Thread.dropPrefix, Thread.warn, hf]
  · rw [State.completeAt_me]
  · rw [State.completeAt_me]
  · rw [State.completeAt_me]; cases w <;> exact hk

/-- Completion of an instruction that raises no flag. -/
theorem Ran.retire {rs : List Reg} {s : State} {t : Thread} (len : Nat) (w : Bool) (hk : KeepsRegs rs s.me t)
    (hs : t.tstat = s.me.tstat) (hp : t.pc = s.me.pc) :
    ∃ u, s.retire t len w = .next u ∧ Ran rs (s.me.pc + word len) (statAfter s 0 (w || s.me.pp)) s u ∧
      u.me = { t.dropPrefix.warn (w || s.me.pp) with pc := s.me.pc + word len, prog := 0, stall := none } := by
  have hpp : t.pp = s.me.pp := by unfold Thread.pp; rw [hs]
  refine ⟨_, rfl, ?_, ?_⟩
  · rw [hpp, hp]; exact Ran.completeAt 0 _ _ hk (by simp [hs])
  · rw [State.completeAt_me, hpp, hp]

theorem State.issue_ready {s : State} {rs : List Reg} (h : s.ready rs) (k : Thread → Out) : s.issue rs k = k s.me := by
  unfold State.issue; rw [show s.me.isBusy rs = false from h]; rfl

/-! ### Completion in a state that differs outside the thread -/

theorem State.writeLog_me (s : State) (e : LogEntry) : (s.writeLog e).me = s.me ∧ (s.writeLog e).cur = s.cur := by
  unfold State.writeLog State.writeAt State.keepForMark State.sendFlit
  simp only
  repeat' split
  all_goals exact ⟨rfl, rfl⟩

theorem State.noted_me (s : State) (c : Nat) (v : Word) : (s.noted c v).me = s.me ∧ (s.noted c v).cur = s.cur := by
  unfold State.noted
  split
  · exact ⟨rfl, rfl⟩
  · exact State.writeLog_me ..

/-- An instruction that ends in a completion, after steps that left its thread alone. -/
theorem Does.of_retire {i : Instr} {s base : State} {rs : List Reg} {w : Bool} {P : State → Prop} (t : Thread)
    (h : exec i s = base.retire t 4 w) (hb : base.me = s.me ∧ base.cur = s.cur) (hk : KeepsRegs rs s.me t)
    (hs : t.tstat = s.me.tstat) (hp : t.pc = s.me.pc)
    (hP : ∀ u : State, u.me = { t.dropPrefix.warn (w || s.me.pp) with pc := s.me.pc + 4, prog := 0, stall := none } → P u) :
    Does i s base rs w P := by
  obtain ⟨u, e, r, m⟩ := Ran.retire (s := base) (rs := rs) 4 w (by rw [hb.1]; exact hk) (by rw [hb.1]; exact hs) (by rw [hb.1]; exact hp)
  refine ⟨u, h.trans e, ?_, hP u (by rw [m, hb.1]; rfl)⟩
  have hst : statAfter base 0 (w || base.me.pp) = statAfter s 0 (w || s.me.pp) := by unfold statAfter; rw [hb.1]
  rw [hst, hb.1] at r
  exact r

theorem Thread.after_warn (t : Thread) (w : Bool) : ∃ st, t.dropPrefix.warn w = { t with tstat := st } := by
  cases w <;> exact ⟨_, rfl⟩

/-- Completion with a value in g[d]. -/
theorem Answers.of_retire {i : Instr} {s base : State} {d : Nat} {v : Word} {w : Bool} (h : exec i s = base.retire (s.me.wg d v) 4 w)
    (hb : base.me = s.me ∧ base.cur = s.cur) : Answers i s base d v w := by
  refine Does.of_retire _ h hb (KeepsRegs.wg ..) (by unfold Thread.wg; split <;> rfl) (by unfold Thread.wg; split <;> rfl) fun u hu => ?_
  obtain ⟨st, e⟩ := Thread.after_warn (s.me.wg d v) (w || s.me.pp)
  rw [e] at hu
  unfold GotG
  rw [hu]
  by_cases h0 : d = 0 <;> simp [Thread.rg, Thread.wg, h0]

/-- Completion with a value in w[d]. -/
theorem Does.of_retire_w {i : Instr} {s base : State} {d : Nat} {v : Word} {w : Bool} (h : exec i s = base.retire (s.me.ww d v) 4 w)
    (hb : base.me = s.me ∧ base.cur = s.cur) : Does i s base [.w d] w fun t => GotW t d v := by
  refine Does.of_retire _ h hb (KeepsRegs.ww ..) (by unfold Thread.ww; split <;> rfl) (by unfold Thread.ww; split <;> rfl) fun u hu => ?_
  obtain ⟨st, e⟩ := Thread.after_warn (s.me.ww d v) (w || s.me.pp)
  rw [e] at hu
  unfold GotW
  rw [hu]
  by_cases h0 : d = 0 <;> simp [Thread.rw, Thread.ww, h0]

/-- Completion with no result. -/
theorem Does.of_retire_none {i : Instr} {s base : State} {w : Bool} (h : exec i s = base.retire s.me 4 w)
    (hb : base.me = s.me ∧ base.cur = s.cur) : Does i s base [] w fun _ => True :=
  Does.of_retire _ h hb (KeepsRegs.refl _) rfl rfl fun _ _ => trivial

/-! ### Commit and trap entry -/

/-- Committing a thread changes nothing outside it but its bench's flag summary. -/
theorem SameBut.commit (s : State) (n : Nat) (t : Thread) : SameBut n s (s.commit n t) := by
  unfold State.commit
  simp only
  split
  · exact ⟨rfl, fun _ h => State.setThr_ne s t h, rfl, fun _ => rfl⟩
  · refine ⟨rfl, fun _ h => State.setThr_ne s t h, rfl, fun b => ?_⟩
    simp only [State.updBy_pkg, State.setThr_pkg]
    by_cases h : b = benchOf n
    · subst h; rw [Pkg.onBench_self]
    · rw [Pkg.onBench_ne _ _ h]

theorem Entered.enter (t : Thread) (c : Cause) (epc tval : Word) : Entered t (t.enter c epc tval) c epc tval := by
  refine ⟨rfl, rfl, rfl, ?_, rfl, rfl, rfl, ?_, rfl, rfl, ?_, rfl⟩
  · simp [Thread.enter, Thread.saved, bits]
  · simp [Thread.enter, Thread.rg]
  · intro n hn; by_cases h : n = 0 <;> simp [Thread.enter, Thread.rg, h, Store.get_set_ne _ _ _ hn]

/-- A trap that can be taken now is taken. -/
theorem State.trapFor_can {s : State} {n : Nat} (h : s.canTrap n) (t : Thread) (c : Cause) (epc tval : Word) :
    s.trapFor n t c epc tval = s.commit n (t.enter c epc tval) := by
  unfold State.trapFor; rw [h.1, h.2]; rfl

theorem Traps.of_trap {i : Instr} {s : State} {c : Cause} {tval : Word} (h : s.canTrap s.cur) (e : exec i s = s.trap c tval) :
    Traps i s c tval := by
  refine ⟨_, e, ?_⟩
  rw [State.trapFor_can h, State.commit_thr]
  exact ⟨Entered.enter .., SameBut.commit ..⟩

/-- Completion in terms of the status it leaves. -/
theorem Thread.dropPrefix_warn (s : State) (w : Bool) : s.me.dropPrefix.warn w = { s.me with tstat := statAfter s 0 w } := by
  cases w <;> simp [Thread.dropPrefix, Thread.warn, statAfter]

theorem SameBut.trans {n : Nat} {s t u : State} (h : SameBut n s t) (k : SameBut n t u) : SameBut n s u :=
  ⟨k.1.trans h.1, fun m hm => (k.2.1 m hm).trans (h.2.1 m hm), k.2.2.1.trans h.2.2.1, fun b => (k.2.2.2 b).trans (h.2.2.2 b)⟩

end Sys2Proof.Machine
end

