-- ==== Sys2Proof/Laws/Operands.lean ====
section
/-! SUPPORT. What each scalar operand form does when its registers are ready. -/

namespace Sys2Proof.Machine

/-- Writing one general register and retiring. -/
theorem WritesG.of_retire {i : Instr} {s : State} (d len : Nat) (v : Word) (w : Bool)
    (h : exec i s = s.retire (s.me.wg d v) len w) : WritesG i s d v len (w || s.me.pp) := by
  obtain ⟨u, hu, hr, hm⟩ := Ran.retire (s := s) len w (KeepsRegs.wg s.me d v) (Thread.wg_tstat ..) (Thread.wg_pc ..)
  refine ⟨u, h.trans hu, hr, ?_⟩
  unfold GotG
  rw [hm]
  have : ∀ (t : Thread) (b : Bool) (pc : Word), ({ t.dropPrefix.warn b with pc := pc, prog := 0, stall := none } : Thread).rg d = t.rg d := by
    intro t b pc; cases b <;> rfl
  rw [this, Thread.rg_wg, if_pos rfl]

theorem WritesG.of_alu3 {i : Instr} {s : State} {d a b : BitVec 6} {f : Word → Word → Word}
    (hr : s.ready [.g a.toNat, .g b.toNat, .g d.toNat]) (h : exec i s = alu3 d a b f s) :
    WritesG i s d.toNat (f (s.me.rg a.toNat) (s.me.rg b.toNat)) 4 s.me.pp :=
  WritesG.of_retire _ 4 _ false (h.trans (State.issue_ready hr _))

theorem WritesG.of_aluImm {i : Instr} {s : State} {d a : BitVec 6} {f : Word → Word} (hr : s.ready [.g a.toNat, .g d.toNat])
    (h : exec i s = aluImm d a f s) : WritesG i s d.toNat (f (s.me.rg a.toNat)) 4 s.me.pp :=
  WritesG.of_retire _ 4 _ false (h.trans (State.issue_ready hr _))

theorem WritesG.of_alu2 {i : Instr} {s : State} {d a b : BitVec 6} {f : Word → Word} (hr : s.ready [.g a.toNat, .g d.toNat])
    (h : exec i s = alu2 d a b f s) : WritesG i s d.toNat (f (s.me.rg a.toNat)) 4 (b != 0 || s.me.pp) :=
  WritesG.of_retire _ 4 _ _ (h.trans (State.issue_ready hr _))

theorem WritesG.of_aluRmw {i : Instr} {s : State} {d a b : BitVec 6} {f : Word → Word → Word → Word}
    (hr : s.ready [.g a.toNat, .g b.toNat, .g d.toNat]) (h : exec i s = aluRmw d a b f s) :
    WritesG i s d.toNat (f (s.me.rg d.toNat) (s.me.rg a.toNat) (s.me.rg b.toNat)) 4 s.me.pp :=
  WritesG.of_retire _ 4 _ false (h.trans (State.issue_ready hr _))

theorem WritesG.of_aluI {i : Instr} {s : State} {d a : BitVec 6} {k : Word} {len : Nat} {f : Word → Word → Word}
    (hr : s.ready [.g a.toNat, .g d.toNat]) (h : exec i s = aluI d a k len f s) :
    WritesG i s d.toNat (f (s.me.rg a.toNat) k) len s.me.pp :=
  WritesG.of_retire _ len _ false (h.trans (State.issue_ready hr _))

theorem WritesG.of_alu16 {i : Instr} {s : State} {d a : BitVec 4} {f : Word → Word → Word}
    (hr : s.ready [.g a.toNat, .g d.toNat]) (h : exec i s = alu16 d a f s) :
    WritesG i s d.toNat (f (s.me.rg d.toNat) (s.me.rg a.toNat)) 2 s.me.pp :=
  WritesG.of_retire _ 2 _ false (h.trans (State.issue_ready hr _))

/-- A branch goes to its target or to the next instruction. -/
theorem branch_ran {s : State} {a : Nat} {off : Word} {len : Nat} {c : Word → Bool} {w : Bool} (hr : s.ready [.g a]) :
    ∃ t, branch a off len c w s = .next t ∧
      Ran [] (s.me.pc + (if c (s.me.rg a) then 2 * off else word len)) (statAfter s 0 (w || s.me.pp)) s t := by
  unfold branch
  rw [State.issue_ready hr]
  split
  · next h => exact ⟨_, rfl, Ran.completeAt 0 _ _ (KeepsRegs.refl _) (by simp)⟩
  · next h =>
    obtain ⟨u, hu, hk, -⟩ := Ran.retire (s := s) len w (KeepsRegs.refl _) rfl rfl
    exact ⟨u, hu, hk⟩

/-- A jump through a register with an even target. -/
theorem jumpReg_ran {s : State} {a len : Nat} {l : Option Nat} {w : Bool} (hr : s.ready (.g a :: (l.map Reg.g).toList))
    (he : (s.me.rg a).getLsbD 0 = false) :
    ∃ t, jumpReg a l len w s = .next t ∧ Ran (l.map Reg.g).toList (s.me.rg a) (statAfter s 0 (w || s.me.pp)) s t ∧
      ∀ d, l = some d → GotG t d (s.me.pc + word len) := by
  unfold jumpReg
  rw [State.issue_ready hr]
  simp only [he]
  cases l with
  | none => exact ⟨_, rfl, Ran.completeAt 0 _ _ (KeepsRegs.refl _) (by simp), fun d h => by cases h⟩
  | some d =>
    refine ⟨_, rfl, ?_, ?_⟩
    · have := Ran.completeAt (s := s) 0 (s.me.rg a) (w || s.me.pp) (KeepsRegs.wg s.me d (s.me.pc + word len)) (by simp)
      simpa [Thread.pp] using this
    · intro e h
      cases h
      unfold GotG
      rw [State.completeAt_me]
      have : ∀ (t : Thread) (b : Bool) (pc : Word), ({ t.dropPrefix.warn b with pc := pc, prog := 0, stall := none } : Thread).rg d = t.rg d := by
        intro t b pc; cases b <;> rfl
      rw [this, Thread.rg_wg, if_pos rfl]

theorem jumpReg_odd {s : State} {a len : Nat} {l : Option Nat} {w : Bool} (hr : s.ready (.g a :: (l.map Reg.g).toList))
    (ho : (s.me.rg a).getLsbD 0 = true) : jumpReg a l len w s = s.trap .align (s.me.rg a) := by
  unfold jumpReg
  rw [State.issue_ready hr]
  simp only [ho, if_true]

end Sys2Proof.Machine
end

