-- ==== Sys2Proof/Laws/Access.lean ====
section
/-! SUPPORT. What the issue of an access does: the checks, the leaves they use, the access sent. -/

namespace Sys2Proof.Machine

/-- Marking leaves as used changes memory and its history only. -/
theorem Pkg.touchLeaves_frame (ls : List (Leaf × Use)) (p : Pkg) :
    (p.touchLeaves ls).benches = p.benches ∧ (p.touchLeaves ls).vroot = p.vroot := by
  unfold Pkg.touchLeaves
  induction ls generalizing p with
  | nil => exact ⟨rfl, rfl⟩
  | cons a r ih =>
    have h : (p.touch a.1.at_ a.1.pte a.2).benches = p.benches ∧ (p.touch a.1.at_ a.1.pte a.2).vroot = p.vroot := by
      unfold Pkg.touch; simp only; split <;> exact ⟨rfl, rfl⟩
    rw [List.foldl_cons]
    exact ⟨(ih _).1.trans h.1, (ih _).2.trans h.2⟩

/-- Counting the uses of a page changes the counts only. -/
theorem Pkg.countUses_frame (p : Pkg) (time t : Nat) (ls : List (Leaf × Use)) :
    (p.countUses time t ls).benches = p.benches ∧ (p.countUses time t ls).vroot = p.vroot ∧ (p.countUses time t ls).mem = p.mem := by
  unfold Pkg.countUses; simp only; split <;> exact ⟨rfl, rfl, rfl⟩

/-- Filling the caches changes the caches and the count of free values only. -/
theorem State.cacheLeaves_frame (s : State) (tlb die t : Nat) (ls : List (Leaf × Use)) :
    (s.cacheLeaves tlb die t ls).threads = s.threads ∧ (s.cacheLeaves tlb die t ls).cur = s.cur ∧
      (s.cacheLeaves tlb die t ls).flight = s.flight ∧ (s.cacheLeaves tlb die t ls).nextId = s.nextId ∧
      (s.cacheLeaves tlb die t ls).pkg = s.pkg := by
  unfold State.cacheLeaves
  induction ls generalizing s with
  | nil => exact ⟨rfl, rfl, rfl, rfl, rfl⟩
  | cons a r ih => rw [List.foldl_cons]; exact ih (s.cacheLeaf tlb die t a.2 a.1)

/-- The leaves an access uses change no thread, no access on its way and no number. -/
theorem State.useLeaves_frame (s : State) (u : Use) (ls : List Leaf) :
    (s.useLeaves u ls).me = s.me ∧ (s.useLeaves u ls).cur = s.cur ∧ (s.useLeaves u ls).flight = s.flight ∧
      (s.useLeaves u ls).nextId = s.nextId ∧ (s.useLeaves u ls).pkg.benches = s.pkg.benches ∧
      (s.useLeaves u ls).pkg.vroot = s.pkg.vroot := by
  unfold State.useLeaves
  simp only
  split
  · exact ⟨rfl, rfl, rfl, rfl, rfl, rfl⟩
  · have ht := Pkg.touchLeaves_frame (ls.map fun l => (l, u)) s.pkg
    have hn := Pkg.countUses_frame (s.pkg.touchLeaves (ls.map fun l => (l, u))) s.time (s.tenantOf s.cur) (ls.map fun l => (l, u))
    have hc := State.cacheLeaves_frame
      (s.upd fun p => (p.touchLeaves (ls.map fun l => (l, u))).countUses s.time (s.tenantOf s.cur) (ls.map fun l => (l, u))) (tlbOf s.cur) (dieOf s.cur)
      (s.tenantOf s.cur) (ls.map fun l => (l, u))
    exact ⟨by unfold State.me State.thr; rw [hc.1, hc.2.1]; rfl, hc.2.1, hc.2.2.1, hc.2.2.2.1,
      by rw [hc.2.2.2.2]; exact hn.1.trans ht.1, by rw [hc.2.2.2.2]; exact hn.2.1.trans ht.2⟩

theorem State.rows_ok {s : State} {u : Use} {a : Word} {n al : Nat} {ps : List Piece} {ls : List Leaf} (ha : a.toNat % al = 0)
    (hm : s.pkg.pageMoves (s.tenantOf s.cur) a n = false) (h : checkParts (s.view s.cur s.me.sup u) u (splitLines a n) = .ok ps ls) (k : List Piece → List Leaf → Out) :
    s.rows u a n al k = k ps ls := by
  unfold State.rows; rw [if_neg (by simpa using ha), hm, h]; rfl

theorem State.rows_align {s : State} {u : Use} {a : Word} {n al : Nat} (ha : a.toNat % al ≠ 0) (k : List Piece → List Leaf → Out) :
    s.rows u a n al k = s.trap .align a := by
  unfold State.rows; rw [if_pos ha]

theorem State.rows_fails {s : State} {u : Use} {a : Word} {n al : Nat} {c : Cause} {b : Word} (ha : a.toNat % al = 0)
    (h : s.fails u a n c b) (k : List Piece → List Leaf → Out) : s.rows u a n al k = s.trap c b := by
  unfold State.rows; rw [if_neg (by simpa using ha), h.1, h.2]; rfl

theorem State.checked_passes {s u : State} {x : Use} {a : Word} {n al : Nat} {ps : List Piece} (h : s.passes x a n al ps u)
    (k : State → List Piece → Out) : s.checked x a n al k = k u ps := by
  obtain ⟨ha, hw, hm, ls, hc, rfl⟩ := h
  unfold State.checked
  rw [State.rows_ok ha hm hc]
  unfold State.watched; rw [hw]

/-- An access sent by an instruction that then completes. -/
theorem Sends.of_retire {i : Instr} {s u : State} {a : Access} {t : Thread} {len : Nat} {w : Bool}
    (hc : u.cur = s.cur) (hf : u.flight = s.flight) (hn : u.nextId = s.nextId) (ht : t.tstat = s.me.tstat) (hp : t.pc = s.me.pc)
    (e : exec i s = (u.send a).retire t len w) : Sends i s u a (t.after s len w) := by
  have hpp : t.pp = s.me.pp := by unfold Thread.pp; rw [ht]
  refine ⟨_, e, ?_, ?_, ?_, ?_⟩
  · have : ∀ (v : State) n x, (v.commit n x).flight = v.flight := by
      intro v n x; unfold State.commit; simp only; split <;> rfl
    unfold State.completeAt; rw [this]; show u.flight ++ [a] = _; rw [hf]
  · have : ∀ (v : State) n x, (v.commit n x).nextId = v.nextId := by
      intro v n x; unfold State.commit; simp only; split <;> rfl
    unfold State.completeAt; rw [this]; show u.nextId + 1 = _; rw [hn]
  · rw [State.completeAt_me]
    unfold Thread.after
    have h2 : ∀ b, (t.dropPrefix.warn b) = { t with tstat := statAfter s 0 b } := by
      intro b; cases b <;> simp [Thread.dropPrefix, Thread.warn, statAfter, ht]
    rw [h2, hpp, hp]
  · unfold State.completeAt
    have hc' : (u.send a).cur = s.cur := hc
    rw [hc']
    have := SameBut.commit (u.send a) s.cur { t.dropPrefix.warn (w || t.pp) with pc := t.pc + word len, prog := 0, stall := none }
    refine ⟨?_, this.2.1, this.2.2.1, this.2.2.2⟩
    have h1 := congrArg (fun z : State => { z with flight := u.flight, nextId := u.nextId }) this.1
    exact h1

end Sys2Proof.Machine
end

