-- ==== Sys2Proof/Laws/Exec.lean ====
section
/-! SUPPORT. Each arm of `exec` as an equation, so that no proof unfolds the dispatch. -/

namespace Sys2Proof.Machine

@[simp] theorem exec_mov16 (d : BitVec 4) (a : BitVec 4) (s : State) :
    exec (.mov16 d a) s = execMov16 d a s := rfl
@[simp] theorem exec_addi16 (d : BitVec 4) (im : BitVec 7) (s : State) :
    exec (.addi16 d im) s = execAddi16 d im s := rfl
@[simp] theorem exec_add16 (d : BitVec 4) (a : BitVec 4) (s : State) :
    exec (.add16 d a) s = execAdd16 d a s := rfl
@[simp] theorem exec_ldD16 (d : BitVec 4) (a : BitVec 4) (o : BitVec 3) (s : State) :
    exec (.ldD16 d a o) s = execLdD16 d a o s := rfl
@[simp] theorem exec_stD16 (d : BitVec 4) (a : BitVec 4) (o : BitVec 3) (s : State) :
    exec (.stD16 d a o) s = execStD16 d a o s := rfl
@[simp] theorem exec_bz16 (a : BitVec 4) (o : BitVec 7) (s : State) :
    exec (.bz16 a o) s = execBz16 a o s := rfl
@[simp] theorem exec_bnz16 (a : BitVec 4) (o : BitVec 7) (s : State) :
    exec (.bnz16 a o) s = execBnz16 a o s := rfl
@[simp] theorem exec_j16 (o : BitVec 11) (s : State) :
    exec (.j16 o) s = execJ16 o s := rfl
@[simp] theorem exec_shl16 (d : BitVec 4) (n : BitVec 5) (s : State) :
    exec (.shl16 d n) s = execShl16 d n s := rfl
@[simp] theorem exec_shr16 (d : BitVec 4) (n : BitVec 5) (s : State) :
    exec (.shr16 d n) s = execShr16 d n s := rfl
@[simp] theorem exec_sar16 (d : BitVec 4) (n : BitVec 5) (s : State) :
    exec (.sar16 d n) s = execSar16 d n s := rfl
@[simp] theorem exec_ror16 (d : BitVec 4) (n : BitVec 5) (s : State) :
    exec (.ror16 d n) s = execRor16 d n s := rfl
@[simp] theorem exec_cmp16 (d : BitVec 4) (a : BitVec 4) (cc : BitVec 3) (s : State) :
    exec (.cmp16 d a cc) s = execCmp16 d a cc s := rfl
@[simp] theorem exec_wait16 (m : BitVec 4) (n : BitVec 6) (s : State) :
    exec (.wait16 m n) s = execWait16 m n s := rfl
@[simp] theorem exec_jr16 (a : BitVec 4) (s : State) :
    exec (.jr16 a) s = execJr16 a s := rfl
@[simp] theorem exec_callr16 (a : BitVec 4) (s : State) :
    exec (.callr16 a) s = execCallr16 a s := rfl
@[simp] theorem exec_nop (s : State) :
    exec (.nop) s = execNop s := rfl
@[simp] theorem exec_fmt (a : BitVec 3) (b : BitVec 3) (acc : Bool) (sat : Bool) (pl : BitVec 2) (s : State) :
    exec (.fmt a b acc sat pl) s = execFmt a b acc sat pl s := rfl
@[simp] theorem exec_add (d : BitVec 6) (a : BitVec 6) (b : BitVec 6) (s : State) :
    exec (.add d a b) s = execAdd d a b s := rfl
@[simp] theorem exec_sub (d : BitVec 6) (a : BitVec 6) (b : BitVec 6) (s : State) :
    exec (.sub d a b) s = execSub d a b s := rfl
@[simp] theorem exec_and (d : BitVec 6) (a : BitVec 6) (b : BitVec 6) (s : State) :
    exec (.and d a b) s = execAnd d a b s := rfl
@[simp] theorem exec_or (d : BitVec 6) (a : BitVec 6) (b : BitVec 6) (s : State) :
    exec (.or d a b) s = execOr d a b s := rfl
@[simp] theorem exec_xor (d : BitVec 6) (a : BitVec 6) (b : BitVec 6) (s : State) :
    exec (.xor d a b) s = execXor d a b s := rfl
@[simp] theorem exec_andn (d : BitVec 6) (a : BitVec 6) (b : BitVec 6) (s : State) :
    exec (.andn d a b) s = execAndn d a b s := rfl
@[simp] theorem exec_orn (d : BitVec 6) (a : BitVec 6) (b : BitVec 6) (s : State) :
    exec (.orn d a b) s = execOrn d a b s := rfl
@[simp] theorem exec_xnor (d : BitVec 6) (a : BitVec 6) (b : BitVec 6) (s : State) :
    exec (.xnor d a b) s = execXnor d a b s := rfl
@[simp] theorem exec_shl (d : BitVec 6) (a : BitVec 6) (b : BitVec 6) (s : State) :
    exec (.shl d a b) s = execShl d a b s := rfl
@[simp] theorem exec_shr (d : BitVec 6) (a : BitVec 6) (b : BitVec 6) (s : State) :
    exec (.shr d a b) s = execShr d a b s := rfl
@[simp] theorem exec_sar (d : BitVec 6) (a : BitVec 6) (b : BitVec 6) (s : State) :
    exec (.sar d a b) s = execSar d a b s := rfl
@[simp] theorem exec_ror (d : BitVec 6) (a : BitVec 6) (b : BitVec 6) (s : State) :
    exec (.ror d a b) s = execRor d a b s := rfl
@[simp] theorem exec_shli (d : BitVec 6) (a : BitVec 6) (n : BitVec 6) (s : State) :
    exec (.shli d a n) s = execShli d a n s := rfl
@[simp] theorem exec_shri (d : BitVec 6) (a : BitVec 6) (n : BitVec 6) (s : State) :
    exec (.shri d a n) s = execShri d a n s := rfl
@[simp] theorem exec_sari (d : BitVec 6) (a : BitVec 6) (n : BitVec 6) (s : State) :
    exec (.sari d a n) s = execSari d a n s := rfl
@[simp] theorem exec_rori (d : BitVec 6) (a : BitVec 6) (n : BitVec 6) (s : State) :
    exec (.rori d a n) s = execRori d a n s := rfl
@[simp] theorem exec_addW (d : BitVec 6) (a : BitVec 6) (b : BitVec 6) (s : State) :
    exec (.addW d a b) s = execAddW d a b s := rfl
@[simp] theorem exec_subW (d : BitVec 6) (a : BitVec 6) (b : BitVec 6) (s : State) :
    exec (.subW d a b) s = execSubW d a b s := rfl
@[simp] theorem exec_shlW (d : BitVec 6) (a : BitVec 6) (b : BitVec 6) (s : State) :
    exec (.shlW d a b) s = execShlW d a b s := rfl
@[simp] theorem exec_shrW (d : BitVec 6) (a : BitVec 6) (b : BitVec 6) (s : State) :
    exec (.shrW d a b) s = execShrW d a b s := rfl
@[simp] theorem exec_sarW (d : BitVec 6) (a : BitVec 6) (b : BitVec 6) (s : State) :
    exec (.sarW d a b) s = execSarW d a b s := rfl
@[simp] theorem exec_rorW (d : BitVec 6) (a : BitVec 6) (b : BitVec 6) (s : State) :
    exec (.rorW d a b) s = execRorW d a b s := rfl
@[simp] theorem exec_addS (d : BitVec 6) (a : BitVec 6) (b : BitVec 6) (s : State) :
    exec (.addS d a b) s = execAddS d a b s := rfl
@[simp] theorem exec_subS (d : BitVec 6) (a : BitVec 6) (b : BitVec 6) (s : State) :
    exec (.subS d a b) s = execSubS d a b s := rfl
@[simp] theorem exec_addUs (d : BitVec 6) (a : BitVec 6) (b : BitVec 6) (s : State) :
    exec (.addUs d a b) s = execAddUs d a b s := rfl
@[simp] theorem exec_subUs (d : BitVec 6) (a : BitVec 6) (b : BitVec 6) (s : State) :
    exec (.subUs d a b) s = execSubUs d a b s := rfl
@[simp] theorem exec_lea2 (d : BitVec 6) (a : BitVec 6) (b : BitVec 6) (s : State) :
    exec (.lea2 d a b) s = execLea2 d a b s := rfl
@[simp] theorem exec_lea4 (d : BitVec 6) (a : BitVec 6) (b : BitVec 6) (s : State) :
    exec (.lea4 d a b) s = execLea4 d a b s := rfl
@[simp] theorem exec_lea8 (d : BitVec 6) (a : BitVec 6) (b : BitVec 6) (s : State) :
    exec (.lea8 d a b) s = execLea8 d a b s := rfl
@[simp] theorem exec_lea16 (d : BitVec 6) (a : BitVec 6) (b : BitVec 6) (s : State) :
    exec (.lea16 d a b) s = execLea16 d a b s := rfl
@[simp] theorem exec_lea64 (d : BitVec 6) (a : BitVec 6) (b : BitVec 6) (s : State) :
    exec (.lea64 d a b) s = execLea64 d a b s := rfl
@[simp] theorem exec_mul (d : BitVec 6) (a : BitVec 6) (b : BitVec 6) (s : State) :
    exec (.mul d a b) s = execMul d a b s := rfl
@[simp] theorem exec_mulh (d : BitVec 6) (a : BitVec 6) (b : BitVec 6) (s : State) :
    exec (.mulh d a b) s = execMulh d a b s := rfl
@[simp] theorem exec_mulhu (d : BitVec 6) (a : BitVec 6) (b : BitVec 6) (s : State) :
    exec (.mulhu d a b) s = execMulhu d a b s := rfl
@[simp] theorem exec_mulhsu (d : BitVec 6) (a : BitVec 6) (b : BitVec 6) (s : State) :
    exec (.mulhsu d a b) s = execMulhsu d a b s := rfl
@[simp] theorem exec_mulW (d : BitVec 6) (a : BitVec 6) (b : BitVec 6) (s : State) :
    exec (.mulW d a b) s = execMulW d a b s := rfl
@[simp] theorem exec_mulS (d : BitVec 6) (a : BitVec 6) (b : BitVec 6) (s : State) :
    exec (.mulS d a b) s = execMulS d a b s := rfl
@[simp] theorem exec_div (d : BitVec 6) (a : BitVec 6) (b : BitVec 6) (s : State) :
    exec (.div d a b) s = execDiv d a b s := rfl
@[simp] theorem exec_divu (d : BitVec 6) (a : BitVec 6) (b : BitVec 6) (s : State) :
    exec (.divu d a b) s = execDivu d a b s := rfl
@[simp] theorem exec_rem (d : BitVec 6) (a : BitVec 6) (b : BitVec 6) (s : State) :
    exec (.rem d a b) s = execRem d a b s := rfl
@[simp] theorem exec_remu (d : BitVec 6) (a : BitVec 6) (b : BitVec 6) (s : State) :
    exec (.remu d a b) s = execRemu d a b s := rfl
@[simp] theorem exec_divW (d : BitVec 6) (a : BitVec 6) (b : BitVec 6) (s : State) :
    exec (.divW d a b) s = execDivW d a b s := rfl
@[simp] theorem exec_divuW (d : BitVec 6) (a : BitVec 6) (b : BitVec 6) (s : State) :
    exec (.divuW d a b) s = execDivuW d a b s := rfl
@[simp] theorem exec_remW (d : BitVec 6) (a : BitVec 6) (b : BitVec 6) (s : State) :
    exec (.remW d a b) s = execRemW d a b s := rfl
@[simp] theorem exec_remuW (d : BitVec 6) (a : BitVec 6) (b : BitVec 6) (s : State) :
    exec (.remuW d a b) s = execRemuW d a b s := rfl
@[simp] theorem exec_cmp (d : BitVec 6) (a : BitVec 6) (b : BitVec 6) (cc : BitVec 3) (s : State) :
    exec (.cmp d a b cc) s = execCmp d a b cc s := rfl
@[simp] theorem exec_min (d : BitVec 6) (a : BitVec 6) (b : BitVec 6) (s : State) :
    exec (.min d a b) s = execMin d a b s := rfl
@[simp] theorem exec_max (d : BitVec 6) (a : BitVec 6) (b : BitVec 6) (s : State) :
    exec (.max d a b) s = execMax d a b s := rfl
@[simp] theorem exec_minu (d : BitVec 6) (a : BitVec 6) (b : BitVec 6) (s : State) :
    exec (.minu d a b) s = execMinu d a b s := rfl
@[simp] theorem exec_maxu (d : BitVec 6) (a : BitVec 6) (b : BitVec 6) (s : State) :
    exec (.maxu d a b) s = execMaxu d a b s := rfl
@[simp] theorem exec_movz (d : BitVec 6) (a : BitVec 6) (b : BitVec 6) (s : State) :
    exec (.movz d a b) s = execMovz d a b s := rfl
@[simp] theorem exec_movnz (d : BitVec 6) (a : BitVec 6) (b : BitVec 6) (s : State) :
    exec (.movnz d a b) s = execMovnz d a b s := rfl
@[simp] theorem exec_clz (d : BitVec 6) (a : BitVec 6) (b : BitVec 6) (s : State) :
    exec (.clz d a b) s = execClz d a b s := rfl
@[simp] theorem exec_ctz (d : BitVec 6) (a : BitVec 6) (b : BitVec 6) (s : State) :
    exec (.ctz d a b) s = execCtz d a b s := rfl
@[simp] theorem exec_popc (d : BitVec 6) (a : BitVec 6) (b : BitVec 6) (s : State) :
    exec (.popc d a b) s = execPopc d a b s := rfl
@[simp] theorem exec_rev8 (d : BitVec 6) (a : BitVec 6) (b : BitVec 6) (s : State) :
    exec (.rev8 d a b) s = execRev8 d a b s := rfl
@[simp] theorem exec_rev8W (d : BitVec 6) (a : BitVec 6) (b : BitVec 6) (s : State) :
    exec (.rev8W d a b) s = execRev8W d a b s := rfl
@[simp] theorem exec_bfx (d : BitVec 6) (a : BitVec 6) (b : BitVec 6) (s : State) :
    exec (.bfx d a b) s = execBfx d a b s := rfl
@[simp] theorem exec_bfxs (d : BitVec 6) (a : BitVec 6) (b : BitVec 6) (s : State) :
    exec (.bfxs d a b) s = execBfxs d a b s := rfl
@[simp] theorem exec_bfi (d : BitVec 6) (a : BitVec 6) (b : BitVec 6) (s : State) :
    exec (.bfi d a b) s = execBfi d a b s := rfl
@[simp] theorem exec_addi (d : BitVec 6) (a : BitVec 6) (im : BitVec 13) (s : State) :
    exec (.addi d a im) s = execAddi d a im s := rfl
@[simp] theorem exec_addiLit32 (d : BitVec 6) (a : BitVec 6) (l : Word32) (s : State) :
    exec (.addiLit32 d a l) s = execAddiLit32 d a l s := rfl
@[simp] theorem exec_addiLit64 (d : BitVec 6) (a : BitVec 6) (l : Word) (s : State) :
    exec (.addiLit64 d a l) s = execAddiLit64 d a l s := rfl
@[simp] theorem exec_andi (d : BitVec 6) (a : BitVec 6) (im : BitVec 13) (s : State) :
    exec (.andi d a im) s = execAndi d a im s := rfl
@[simp] theorem exec_andiLit32 (d : BitVec 6) (a : BitVec 6) (l : Word32) (s : State) :
    exec (.andiLit32 d a l) s = execAndiLit32 d a l s := rfl
@[simp] theorem exec_andiLit64 (d : BitVec 6) (a : BitVec 6) (l : Word) (s : State) :
    exec (.andiLit64 d a l) s = execAndiLit64 d a l s := rfl
@[simp] theorem exec_ori (d : BitVec 6) (a : BitVec 6) (im : BitVec 13) (s : State) :
    exec (.ori d a im) s = execOri d a im s := rfl
@[simp] theorem exec_oriLit32 (d : BitVec 6) (a : BitVec 6) (l : Word32) (s : State) :
    exec (.oriLit32 d a l) s = execOriLit32 d a l s := rfl
@[simp] theorem exec_oriLit64 (d : BitVec 6) (a : BitVec 6) (l : Word) (s : State) :
    exec (.oriLit64 d a l) s = execOriLit64 d a l s := rfl
@[simp] theorem exec_xori (d : BitVec 6) (a : BitVec 6) (im : BitVec 13) (s : State) :
    exec (.xori d a im) s = execXori d a im s := rfl
@[simp] theorem exec_xoriLit32 (d : BitVec 6) (a : BitVec 6) (l : Word32) (s : State) :
    exec (.xoriLit32 d a l) s = execXoriLit32 d a l s := rfl
@[simp] theorem exec_xoriLit64 (d : BitVec 6) (a : BitVec 6) (l : Word) (s : State) :
    exec (.xoriLit64 d a l) s = execXoriLit64 d a l s := rfl
@[simp] theorem exec_ldcb (d : BitVec 6) (a : BitVec 6) (z : Bool) (n : BitVec 8) (s : State) :
    exec (.ldcb d a z n) s = execLdcb d a z n s := rfl
@[simp] theorem exec_movi (d : BitVec 6) (im : BitVec 19) (s : State) :
    exec (.movi d im) s = execMovi d im s := rfl
@[simp] theorem exec_bz (a : BitVec 6) (o : BitVec 16) (s : State) :
    exec (.bz a o) s = execBz a o s := rfl
@[simp] theorem exec_bnz (a : BitVec 6) (o : BitVec 16) (s : State) :
    exec (.bnz a o) s = execBnz a o s := rfl
@[simp] theorem exec_bltz (a : BitVec 6) (o : BitVec 16) (s : State) :
    exec (.bltz a o) s = execBltz a o s := rfl
@[simp] theorem exec_bgez (a : BitVec 6) (o : BitVec 16) (s : State) :
    exec (.bgez a o) s = execBgez a o s := rfl
@[simp] theorem exec_blez (a : BitVec 6) (o : BitVec 16) (s : State) :
    exec (.blez a o) s = execBlez a o s := rfl
@[simp] theorem exec_bgtz (a : BitVec 6) (o : BitVec 16) (s : State) :
    exec (.bgtz a o) s = execBgtz a o s := rfl
@[simp] theorem exec_br (a : BitVec 6) (o : BitVec 16) (s : State) :
    exec (.br a o) s = execBr a o s := rfl
@[simp] theorem exec_j (o : BitVec 25) (s : State) :
    exec (.j o) s = execJ o s := rfl
@[simp] theorem exec_call (o : BitVec 25) (s : State) :
    exec (.call o) s = execCall o s := rfl
@[simp] theorem exec_jr (d : BitVec 6) (a : BitVec 6) (b : BitVec 6) (s : State) :
    exec (.jr d a b) s = execJr d a b s := rfl
@[simp] theorem exec_callr (d : BitVec 6) (a : BitVec 6) (b : BitVec 6) (s : State) :
    exec (.callr d a b) s = execCallr d a b s := rfl
@[simp] theorem exec_getpc (d : BitVec 6) (a : BitVec 6) (b : BitVec 6) (s : State) :
    exec (.getpc d a b) s = execGetpc d a b s := rfl
@[simp] theorem exec_rdctl (d : BitVec 6) (a : BitVec 6) (n : BitVec 10) (s : State) :
    exec (.rdctl d a n) s = execRdctl d a n s := rfl
@[simp] theorem exec_wrctl (d : BitVec 6) (a : BitVec 6) (n : BitVec 10) (s : State) :
    exec (.wrctl d a n) s = execWrctl d a n s := rfl
@[simp] theorem exec_setctl (d : BitVec 6) (a : BitVec 6) (n : BitVec 10) (s : State) :
    exec (.setctl d a n) s = execSetctl d a n s := rfl
@[simp] theorem exec_clrctl (d : BitVec 6) (a : BitVec 6) (n : BitVec 10) (s : State) :
    exec (.clrctl d a n) s = execClrctl d a n s := rfl
@[simp] theorem exec_wait (d : BitVec 6) (a : BitVec 6) (b : BitVec 6) (ot : BitVec 6) (s : State) :
    exec (.wait d a b ot) s = execWait d a b ot s := rfl
@[simp] theorem exec_trapi (d : BitVec 6) (a : BitVec 6) (b : BitVec 6) (s : State) :
    exec (.trapi d a b) s = execTrapi d a b s := rfl
@[simp] theorem exec_brk (d : BitVec 6) (a : BitVec 6) (b : BitVec 6) (s : State) :
    exec (.brk d a b) s = execBrk d a b s := rfl
@[simp] theorem exec_tret (d : BitVec 6) (a : BitVec 6) (b : BitVec 6) (s : State) :
    exec (.tret d a b) s = execTret d a b s := rfl
@[simp] theorem exec_ifence (d : BitVec 6) (a : BitVec 6) (b : BitVec 6) (s : State) :
    exec (.ifence d a b) s = execIfence d a b s := rfl
@[simp] theorem exec_idle (d : BitVec 6) (a : BitVec 6) (b : BitVec 6) (s : State) :
    exec (.idle d a b) s = execIdle d a b s := rfl
@[simp] theorem exec_movx (d : BitVec 6) (x : BitVec 3) (im : BitVec 13) (s : State) :
    exec (.movx d x im) s = execMovx d x im s := rfl
@[simp] theorem exec_movg (d : BitVec 6) (x : BitVec 3) (im : BitVec 13) (s : State) :
    exec (.movg d x im) s = execMovg d x im s := rfl
@[simp] theorem exec_ldx (d : BitVec 6) (x : BitVec 3) (im : BitVec 13) (s : State) :
    exec (.ldx d x im) s = execLdx d x im s := rfl
@[simp] theorem exec_addx (d : BitVec 6) (x : BitVec 3) (im : BitVec 13) (s : State) :
    exec (.addx d x im) s = execAddx d x im s := rfl
@[simp] theorem exec_fadd (f : VF) (s : State) :
    exec (.fadd f) s = execFadd f s := rfl
@[simp] theorem exec_fsub (f : VF) (s : State) :
    exec (.fsub f) s = execFsub f s := rfl
@[simp] theorem exec_fmul (f : VF) (s : State) :
    exec (.fmul f) s = execFmul f s := rfl
@[simp] theorem exec_fdiv (f : VF) (s : State) :
    exec (.fdiv f) s = execFdiv f s := rfl
@[simp] theorem exec_fsqrt (f : VF) (s : State) :
    exec (.fsqrt f) s = execFsqrt f s := rfl
@[simp] theorem exec_fmin (f : VF) (s : State) :
    exec (.fmin f) s = execFmin f s := rfl
@[simp] theorem exec_fmax (f : VF) (s : State) :
    exec (.fmax f) s = execFmax f s := rfl
@[simp] theorem exec_fabs (f : VF) (s : State) :
    exec (.fabs f) s = execFabs f s := rfl
@[simp] theorem exec_fneg (f : VF) (s : State) :
    exec (.fneg f) s = execFneg f s := rfl
@[simp] theorem exec_fsgn (f : VF) (s : State) :
    exec (.fsgn f) s = execFsgn f s := rfl
@[simp] theorem exec_fround (f : VF) (s : State) :
    exec (.fround f) s = execFround f s := rfl
@[simp] theorem exec_fmac (f : VF) (s : State) :
    exec (.fmac f) s = execFmac f s := rfl
@[simp] theorem exec_fmsc (f : VF) (s : State) :
    exec (.fmsc f) s = execFmsc f s := rfl
@[simp] theorem exec_fnmac (f : VF) (s : State) :
    exec (.fnmac f) s = execFnmac f s := rfl
@[simp] theorem exec_fnmsc (f : VF) (s : State) :
    exec (.fnmsc f) s = execFnmsc f s := rfl
@[simp] theorem exec_fmah (f : VF) (s : State) :
    exec (.fmah f) s = execFmah f s := rfl
@[simp] theorem exec_fmahLit (d : BitVec 5) (a : BitVec 5) (b : BitVec 5) (k : BitVec 3) (l : Word32) (s : State) :
    exec (.fmahLit d a b k l) s = execFmahLit d a b k l s := rfl
@[simp] theorem exec_fmsh (f : VF) (s : State) :
    exec (.fmsh f) s = execFmsh f s := rfl
@[simp] theorem exec_fnmah (f : VF) (s : State) :
    exec (.fnmah f) s = execFnmah f s := rfl
@[simp] theorem exec_fnmsh (f : VF) (s : State) :
    exec (.fnmsh f) s = execFnmsh f s := rfl
@[simp] theorem exec_fadd16 (f : VF) (bf : Bool) (s : State) :
    exec (.fadd16 f bf) s = execFadd16 f bf s := rfl
@[simp] theorem exec_fsub16 (f : VF) (bf : Bool) (s : State) :
    exec (.fsub16 f bf) s = execFsub16 f bf s := rfl
@[simp] theorem exec_fmul16 (f : VF) (bf : Bool) (s : State) :
    exec (.fmul16 f bf) s = execFmul16 f bf s := rfl
@[simp] theorem exec_fmin16 (f : VF) (bf : Bool) (s : State) :
    exec (.fmin16 f bf) s = execFmin16 f bf s := rfl
@[simp] theorem exec_fmax16 (f : VF) (bf : Bool) (s : State) :
    exec (.fmax16 f bf) s = execFmax16 f bf s := rfl
@[simp] theorem exec_fmac16 (f : VF) (bf : Bool) (s : State) :
    exec (.fmac16 f bf) s = execFmac16 f bf s := rfl
@[simp] theorem exec_fnmac16 (f : VF) (bf : Bool) (s : State) :
    exec (.fnmac16 f bf) s = execFnmac16 f bf s := rfl
@[simp] theorem exec_fmah16 (f : VF) (bf : Bool) (s : State) :
    exec (.fmah16 f bf) s = execFmah16 f bf s := rfl
@[simp] theorem exec_vmovImm (d : BitVec 5) (im : BitVec 20) (s : State) :
    exec (.vmovImm d im) s = execVmovImm d im s := rfl
@[simp] theorem exec_fmahImm (d : BitVec 5) (im : BitVec 20) (s : State) :
    exec (.fmahImm d im) s = execFmahImm d im s := rfl
@[simp] theorem exec_fcmp (f : VF) (c : BitVec 3) (s : State) :
    exec (.fcmp f c) s = execFcmp f c s := rfl
@[simp] theorem exec_icmp (f : VF) (c : BitVec 3) (s : State) :
    exec (.icmp f c) s = execIcmp f c s := rfl
@[simp] theorem exec_vsel (f : VF) (s : State) :
    exec (.vsel f) s = execVsel f s := rfl
@[simp] theorem exec_kand (f : VF) (s : State) :
    exec (.kand f) s = execKand f s := rfl
@[simp] theorem exec_kor (f : VF) (s : State) :
    exec (.kor f) s = execKor f s := rfl
@[simp] theorem exec_kxor (f : VF) (s : State) :
    exec (.kxor f) s = execKxor f s := rfl
@[simp] theorem exec_kandn (f : VF) (s : State) :
    exec (.kandn f) s = execKandn f s := rfl
@[simp] theorem exec_knot (f : VF) (s : State) :
    exec (.knot f) s = execKnot f s := rfl
@[simp] theorem exec_fcvtF16F32 (f : VF) (s : State) :
    exec (.fcvtF16F32 f) s = execFcvtF16F32 f s := rfl
@[simp] theorem exec_fcvtBf16F32 (f : VF) (s : State) :
    exec (.fcvtBf16F32 f) s = execFcvtBf16F32 f s := rfl
@[simp] theorem exec_fcvtF32F16 (f : VF) (s : State) :
    exec (.fcvtF32F16 f) s = execFcvtF32F16 f s := rfl
@[simp] theorem exec_fcvtF32Bf16 (f : VF) (s : State) :
    exec (.fcvtF32Bf16 f) s = execFcvtF32Bf16 f s := rfl
@[simp] theorem exec_fcvtI32F32 (f : VF) (s : State) :
    exec (.fcvtI32F32 f) s = execFcvtI32F32 f s := rfl
@[simp] theorem exec_fcvtI32F32Z (f : VF) (s : State) :
    exec (.fcvtI32F32Z f) s = execFcvtI32F32Z f s := rfl
@[simp] theorem exec_fcvtN32F32 (f : VF) (s : State) :
    exec (.fcvtN32F32 f) s = execFcvtN32F32 f s := rfl
@[simp] theorem exec_fcvtN32F32Z (f : VF) (s : State) :
    exec (.fcvtN32F32Z f) s = execFcvtN32F32Z f s := rfl
@[simp] theorem exec_fcvtF32I32 (f : VF) (s : State) :
    exec (.fcvtF32I32 f) s = execFcvtF32I32 f s := rfl
@[simp] theorem exec_fcvtF32N32 (f : VF) (s : State) :
    exec (.fcvtF32N32 f) s = execFcvtF32N32 f s := rfl
@[simp] theorem exec_vnarrowI8 (f : VF) (s : State) :
    exec (.vnarrowI8 f) s = execVnarrowI8 f s := rfl
@[simp] theorem exec_vnarrowN8 (f : VF) (s : State) :
    exec (.vnarrowN8 f) s = execVnarrowN8 f s := rfl
@[simp] theorem exec_vwidenI8 (f : VF) (s : State) :
    exec (.vwidenI8 f) s = execVwidenI8 f s := rfl
@[simp] theorem exec_vwidenN8 (f : VF) (s : State) :
    exec (.vwidenN8 f) s = execVwidenN8 f s := rfl
@[simp] theorem exec_vq4 (f : VF) (q : BitVec 2) (s : State) :
    exec (.vq4 f q) s = execVq4 f q s := rfl
@[simp] theorem exec_vq4a (f : VF) (q : BitVec 2) (s : State) :
    exec (.vq4a f q) s = execVq4a f q s := rfl
@[simp] theorem exec_vdq4 (f : VF) (s : State) :
    exec (.vdq4 f) s = execVdq4 f s := rfl
@[simp] theorem exec_vadd (f : VF) (s : State) :
    exec (.vadd f) s = execVadd f s := rfl
@[simp] theorem exec_vsub (f : VF) (s : State) :
    exec (.vsub f) s = execVsub f s := rfl
@[simp] theorem exec_vmul (f : VF) (s : State) :
    exec (.vmul f) s = execVmul f s := rfl
@[simp] theorem exec_vmulh (f : VF) (s : State) :
    exec (.vmulh f) s = execVmulh f s := rfl
@[simp] theorem exec_vmin (f : VF) (s : State) :
    exec (.vmin f) s = execVmin f s := rfl
@[simp] theorem exec_vmax (f : VF) (s : State) :
    exec (.vmax f) s = execVmax f s := rfl
@[simp] theorem exec_vminu (f : VF) (s : State) :
    exec (.vminu f) s = execVminu f s := rfl
@[simp] theorem exec_vmaxu (f : VF) (s : State) :
    exec (.vmaxu f) s = execVmaxu f s := rfl
@[simp] theorem exec_vand (f : VF) (s : State) :
    exec (.vand f) s = execVand f s := rfl
@[simp] theorem exec_vor (f : VF) (s : State) :
    exec (.vor f) s = execVor f s := rfl
@[simp] theorem exec_vxor (f : VF) (s : State) :
    exec (.vxor f) s = execVxor f s := rfl
@[simp] theorem exec_vandn (f : VF) (s : State) :
    exec (.vandn f) s = execVandn f s := rfl
@[simp] theorem exec_vshl (f : VF) (s : State) :
    exec (.vshl f) s = execVshl f s := rfl
@[simp] theorem exec_vshr (f : VF) (s : State) :
    exec (.vshr f) s = execVshr f s := rfl
@[simp] theorem exec_vsar (f : VF) (s : State) :
    exec (.vsar f) s = execVsar f s := rfl
@[simp] theorem exec_vabs (f : VF) (s : State) :
    exec (.vabs f) s = execVabs f s := rfl
@[simp] theorem exec_vaddI16 (f : VF) (s : State) :
    exec (.vaddI16 f) s = execVaddI16 f s := rfl
@[simp] theorem exec_vsubI16 (f : VF) (s : State) :
    exec (.vsubI16 f) s = execVsubI16 f s := rfl
@[simp] theorem exec_vdot4Ss (f : VF) (s : State) :
    exec (.vdot4Ss f) s = execVdot4Ss f s := rfl
@[simp] theorem exec_vdot4Uu (f : VF) (s : State) :
    exec (.vdot4Uu f) s = execVdot4Uu f s := rfl
@[simp] theorem exec_vdot4Us (f : VF) (s : State) :
    exec (.vdot4Us f) s = execVdot4Us f s := rfl
@[simp] theorem exec_vperm (f : VF) (s : State) :
    exec (.vperm f) s = execVperm f s := rfl
@[simp] theorem exec_vbcast (f : VF) (s : State) :
    exec (.vbcast f) s = execVbcast f s := rfl
@[simp] theorem exec_vslup (f : VF) (s : State) :
    exec (.vslup f) s = execVslup f s := rfl
@[simp] theorem exec_vsldn (f : VF) (s : State) :
    exec (.vsldn f) s = execVsldn f s := rfl
@[simp] theorem exec_vrot (f : VF) (s : State) :
    exec (.vrot f) s = execVrot f s := rfl
@[simp] theorem exec_vrev (f : VF) (s : State) :
    exec (.vrev f) s = execVrev f s := rfl
@[simp] theorem exec_vzipLo (f : VF) (s : State) :
    exec (.vzipLo f) s = execVzipLo f s := rfl
@[simp] theorem exec_vzipHi (f : VF) (s : State) :
    exec (.vzipHi f) s = execVzipHi f s := rfl
@[simp] theorem exec_vuzpEv (f : VF) (s : State) :
    exec (.vuzpEv f) s = execVuzpEv f s := rfl
@[simp] theorem exec_vuzpOd (f : VF) (s : State) :
    exec (.vuzpOd f) s = execVuzpOd f s := rfl
@[simp] theorem exec_fsum (f : VF) (s : State) :
    exec (.fsum f) s = execFsum f s := rfl
@[simp] theorem exec_fmaxr (f : VF) (s : State) :
    exec (.fmaxr f) s = execFmaxr f s := rfl
@[simp] theorem exec_fminr (f : VF) (s : State) :
    exec (.fminr f) s = execFminr f s := rfl
@[simp] theorem exec_isum (f : VF) (s : State) :
    exec (.isum f) s = execIsum f s := rfl
@[simp] theorem exec_imaxr (f : VF) (s : State) :
    exec (.imaxr f) s = execImaxr f s := rfl
@[simp] theorem exec_iminr (f : VF) (s : State) :
    exec (.iminr f) s = execIminr f s := rfl
@[simp] theorem exec_imaxur (f : VF) (s : State) :
    exec (.imaxur f) s = execImaxur f s := rfl
@[simp] theorem exec_iminur (f : VF) (s : State) :
    exec (.iminur f) s = execIminur f s := rfl
@[simp] theorem exec_frcp (f : VF) (s : State) :
    exec (.frcp f) s = execFrcp f s := rfl
@[simp] theorem exec_frsqrt (f : VF) (s : State) :
    exec (.frsqrt f) s = execFrsqrt f s := rfl
@[simp] theorem exec_vmov (f : VF) (s : State) :
    exec (.vmov f) s = execVmov f s := rfl
@[simp] theorem exec_vmovLit (d : BitVec 5) (a : BitVec 5) (b : BitVec 5) (k : BitVec 3) (l : Word32) (s : State) :
    exec (.vmovLit d a b k l) s = execVmovLit d a b k l s := rfl
@[simp] theorem exec_vbcg (f : VF) (s : State) :
    exec (.vbcg f) s = execVbcg f s := rfl
@[simp] theorem exec_vins (f : VF) (s : State) :
    exec (.vins f) s = execVins f s := rfl
@[simp] theorem exec_vext (f : VF) (s : State) :
    exec (.vext f) s = execVext f s := rfl
@[simp] theorem exec_vextu (f : VF) (s : State) :
    exec (.vextu f) s = execVextu f s := rfl
@[simp] theorem exec_kmovg (f : VF) (s : State) :
    exec (.kmovg f) s = execKmovg f s := rfl
@[simp] theorem exec_kmovk (f : VF) (s : State) :
    exec (.kmovk f) s = execKmovk f s := rfl
@[simp] theorem exec_ld (d : BitVec 6) (b : BitVec 6) (sz : BitVec 2) (w : BitVec 4) (o : BitVec 6) (s : State) :
    exec (.ld d b sz w o) s = execLd d b sz w o s := rfl
@[simp] theorem exec_ldV (d : BitVec 5) (b : BitVec 6) (w : BitVec 4) (o : BitVec 6) (s : State) :
    exec (.ldV d b w o) s = execLdV d b w o s := rfl
@[simp] theorem exec_ldu (d : BitVec 6) (b : BitVec 6) (sz : BitVec 2) (w : BitVec 4) (o : BitVec 6) (s : State) :
    exec (.ldu d b sz w o) s = execLdu d b sz w o s := rfl
@[simp] theorem exec_st (d : BitVec 6) (b : BitVec 6) (sz : BitVec 2) (w : BitVec 4) (o : BitVec 6) (s : State) :
    exec (.st d b sz w o) s = execSt d b sz w o s := rfl
@[simp] theorem exec_stV (d : BitVec 5) (b : BitVec 6) (w : BitVec 4) (o : BitVec 6) (s : State) :
    exec (.stV d b w o) s = execStV d b w o s := rfl
@[simp] theorem exec_ldw (d : BitVec 6) (b : BitVec 6) (sz : BitVec 2) (w : BitVec 4) (o : BitVec 6) (s : State) :
    exec (.ldw d b sz w o) s = execLdw d b sz w o s := rfl
@[simp] theorem exec_ldwV (d : BitVec 5) (b : BitVec 6) (w : BitVec 4) (o : BitVec 6) (s : State) :
    exec (.ldwV d b w o) s = execLdwV d b w o s := rfl
@[simp] theorem exec_ldc (d : BitVec 6) (b : BitVec 6) (sz : BitVec 2) (w : BitVec 4) (o : BitVec 6) (s : State) :
    exec (.ldc d b sz w o) s = execLdc d b sz w o s := rfl
@[simp] theorem exec_ldcV (d : BitVec 5) (b : BitVec 6) (w : BitVec 4) (o : BitVec 6) (s : State) :
    exec (.ldcV d b w o) s = execLdcV d b w o s := rfl
@[simp] theorem exec_vgather (f : VF) (n : BitVec 4) (s : State) :
    exec (.vgather f n) s = execVgather f n s := rfl
@[simp] theorem exec_vscatter (f : VF) (n : BitVec 4) (s : State) :
    exec (.vscatter f n) s = execVscatter f n s := rfl
@[simp] theorem exec_wmerge (d : BitVec 6) (a : BitVec 6) (b : BitVec 6) (s : State) :
    exec (.wmerge d a b) s = execWmerge d a b s := rfl
@[simp] theorem exec_wmovg (d : BitVec 6) (a : BitVec 6) (b : BitVec 6) (s : State) :
    exec (.wmovg d a b) s = execWmovg d a b s := rfl
@[simp] theorem exec_wmovw (d : BitVec 6) (a : BitVec 6) (b : BitVec 6) (s : State) :
    exec (.wmovw d a b) s = execWmovw d a b s := rfl
@[simp] theorem exec_wwait (d : BitVec 6) (a : BitVec 6) (b : BitVec 6) (s : State) :
    exec (.wwait d a b) s = execWwait d a b s := rfl
@[simp] theorem exec_wfence (d : BitVec 6) (a : BitVec 6) (b : BitVec 6) (s : State) :
    exec (.wfence d a b) s = execWfence d a b s := rfl
@[simp] theorem exec_wtest (d : BitVec 6) (a : BitVec 6) (b : BitVec 6) (s : State) :
    exec (.wtest d a b) s = execWtest d a b s := rfl
@[simp] theorem exec_amoSwap (d : BitVec 6) (b : BitVec 6) (dw : Bool) (w : BitVec 4) (win : Bool) (s : State) :
    exec (.amoSwap d b dw w win) s = execAmoSwap d b dw w win s := rfl
@[simp] theorem exec_amoCas (d : BitVec 6) (b : BitVec 6) (dw : Bool) (w : BitVec 4) (win : Bool) (s : State) :
    exec (.amoCas d b dw w win) s = execAmoCas d b dw w win s := rfl
@[simp] theorem exec_amoAdd (d : BitVec 6) (b : BitVec 6) (dw : Bool) (w : BitVec 4) (win : Bool) (s : State) :
    exec (.amoAdd d b dw w win) s = execAmoAdd d b dw w win s := rfl
@[simp] theorem exec_amoAnd (d : BitVec 6) (b : BitVec 6) (dw : Bool) (w : BitVec 4) (win : Bool) (s : State) :
    exec (.amoAnd d b dw w win) s = execAmoAnd d b dw w win s := rfl
@[simp] theorem exec_amoOr (d : BitVec 6) (b : BitVec 6) (dw : Bool) (w : BitVec 4) (win : Bool) (s : State) :
    exec (.amoOr d b dw w win) s = execAmoOr d b dw w win s := rfl
@[simp] theorem exec_amoXor (d : BitVec 6) (b : BitVec 6) (dw : Bool) (w : BitVec 4) (win : Bool) (s : State) :
    exec (.amoXor d b dw w win) s = execAmoXor d b dw w win s := rfl
@[simp] theorem exec_amoMin (d : BitVec 6) (b : BitVec 6) (dw : Bool) (w : BitVec 4) (win : Bool) (s : State) :
    exec (.amoMin d b dw w win) s = execAmoMin d b dw w win s := rfl
@[simp] theorem exec_amoMax (d : BitVec 6) (b : BitVec 6) (dw : Bool) (w : BitVec 4) (win : Bool) (s : State) :
    exec (.amoMax d b dw w win) s = execAmoMax d b dw w win s := rfl
@[simp] theorem exec_amoMinu (d : BitVec 6) (b : BitVec 6) (dw : Bool) (w : BitVec 4) (win : Bool) (s : State) :
    exec (.amoMinu d b dw w win) s = execAmoMinu d b dw w win s := rfl
@[simp] theorem exec_amoMaxu (d : BitVec 6) (b : BitVec 6) (dw : Bool) (w : BitVec 4) (win : Bool) (s : State) :
    exec (.amoMaxu d b dw w win) s = execAmoMaxu d b dw w win s := rfl
@[simp] theorem exec_amoFadd (d : BitVec 6) (b : BitVec 6) (w : BitVec 4) (win : Bool) (s : State) :
    exec (.amoFadd d b w win) s = execAmoFadd d b w win s := rfl
@[simp] theorem exec_dtake (d : BitVec 6) (a : BitVec 6) (b : BitVec 6) (s : State) :
    exec (.dtake d a b) s = execDtake d a b s := rfl
@[simp] theorem exec_dtakeTry (d : BitVec 6) (a : BitVec 6) (b : BitVec 6) (s : State) :
    exec (.dtakeTry d a b) s = execDtakeTry d a b s := rfl
@[simp] theorem exec_dfree (d : BitVec 6) (a : BitVec 6) (b : BitVec 6) (s : State) :
    exec (.dfree d a b) s = execDfree d a b s := rfl
@[simp] theorem exec_dclaim (d : BitVec 6) (a : BitVec 6) (b : BitVec 6) (s : State) :
    exec (.dclaim d a b) s = execDclaim d a b s := rfl
@[simp] theorem exec_dclaimTry (d : BitVec 6) (a : BitVec 6) (b : BitVec 6) (s : State) :
    exec (.dclaimTry d a b) s = execDclaimTry d a b s := rfl
@[simp] theorem exec_dpost (d : BitVec 6) (a : BitVec 6) (b : BitVec 6) (s : State) :
    exec (.dpost d a b) s = execDpost d a b s := rfl
@[simp] theorem exec_dprobe (d : BitVec 6) (a : BitVec 6) (b : BitVec 6) (s : State) :
    exec (.dprobe d a b) s = execDprobe d a b s := rfl
@[simp] theorem exec_rrot (d : BitVec 6) (a : BitVec 6) (b : BitVec 6) (s : State) :
    exec (.rrot d a b) s = execRrot d a b s := rfl
@[simp] theorem exec_rrotDn (d : BitVec 6) (a : BitVec 6) (b : BitVec 6) (s : State) :
    exec (.rrotDn d a b) s = execRrotDn d a b s := rfl
@[simp] theorem exec_pfRc (d : BitVec 6) (a : BitVec 6) (b : BitVec 6) (s : State) :
    exec (.pfRc d a b) s = execPfRc d a b s := rfl
@[simp] theorem exec_pfL2 (d : BitVec 6) (a : BitVec 6) (b : BitVec 6) (s : State) :
    exec (.pfL2 d a b) s = execPfL2 d a b s := rfl
@[simp] theorem exec_rcinv (d : BitVec 6) (a : BitVec 6) (b : BitVec 6) (s : State) :
    exec (.rcinv d a b) s = execRcinv d a b s := rfl
@[simp] theorem exec_rcinvAll (d : BitVec 6) (a : BitVec 6) (b : BitVec 6) (s : State) :
    exec (.rcinvAll d a b) s = execRcinvAll d a b s := rfl
@[simp] theorem exec_spawn (d : BitVec 6) (a : BitVec 6) (b : BitVec 6) (s : State) :
    exec (.spawn d a b) s = execSpawn d a b s := rfl
@[simp] theorem exec_join (d : BitVec 6) (a : BitVec 6) (b : BitVec 6) (s : State) :
    exec (.join d a b) s = execJoin d a b s := rfl
@[simp] theorem exec_yield (d : BitVec 6) (a : BitVec 6) (b : BitVec 6) (s : State) :
    exec (.yield d a b) s = execYield d a b s := rfl
@[simp] theorem exec_exit (d : BitVec 6) (a : BitVec 6) (b : BitVec 6) (s : State) :
    exec (.exit d a b) s = execExit d a b s := rfl
@[simp] theorem exec_send (d : BitVec 6) (a : BitVec 6) (b : BitVec 6) (s : State) :
    exec (.send d a b) s = execSend d a b s := rfl
@[simp] theorem exec_sendTry (d : BitVec 6) (a : BitVec 6) (b : BitVec 6) (s : State) :
    exec (.sendTry d a b) s = execSendTry d a b s := rfl
@[simp] theorem exec_recv (d : BitVec 6) (a : BitVec 6) (b : BitVec 6) (s : State) :
    exec (.recv d a b) s = execRecv d a b s := rfl
@[simp] theorem exec_tbset (d : BitVec 6) (a : BitVec 6) (b : BitVec 6) (s : State) :
    exec (.tbset d a b) s = execTbset d a b s := rfl
@[simp] theorem exec_tbclr (d : BitVec 6) (a : BitVec 6) (b : BitVec 6) (s : State) :
    exec (.tbclr d a b) s = execTbclr d a b s := rfl
@[simp] theorem exec_tbrd (d : BitVec 6) (a : BitVec 6) (b : BitVec 6) (s : State) :
    exec (.tbrd d a b) s = execTbrd d a b s := rfl
@[simp] theorem exec_cancel (d : BitVec 6) (a : BitVec 6) (b : BitVec 6) (s : State) :
    exec (.cancel d a b) s = execCancel d a b s := rfl
@[simp] theorem exec_ccheck (d : BitVec 6) (a : BitVec 6) (b : BitVec 6) (s : State) :
    exec (.ccheck d a b) s = execCcheck d a b s := rfl
@[simp] theorem exec_ccheckX (d : BitVec 6) (a : BitVec 6) (b : BitVec 6) (s : State) :
    exec (.ccheckX d a b) s = execCcheckX d a b s := rfl
@[simp] theorem exec_bbar (d : BitVec 6) (a : BitVec 6) (b : BitVec 6) (s : State) :
    exec (.bbar d a b) s = execBbar d a b s := rfl
@[simp] theorem exec_mbar (d : BitVec 6) (a : BitVec 6) (b : BitVec 6) (s : State) :
    exec (.mbar d a b) s = execMbar d a b s := rfl
@[simp] theorem exec_sigb (d : BitVec 6) (a : BitVec 6) (b : BitVec 6) (s : State) :
    exec (.sigb d a b) s = execSigb d a b s := rfl
@[simp] theorem exec_swait (d : BitVec 6) (a : BitVec 6) (b : BitVec 6) (s : State) :
    exec (.swait d a b) s = execSwait d a b s := rfl
@[simp] theorem exec_rgen (d : BitVec 6) (a : BitVec 6) (b : BitVec 6) (s : State) :
    exec (.rgen d a b) s = execRgen d a b s := rfl
@[simp] theorem exec_cwait (d : BitVec 6) (a : BitVec 6) (b : BitVec 6) (s : State) :
    exec (.cwait d a b) s = execCwait d a b s := rfl
@[simp] theorem exec_rdcyc (d : BitVec 6) (a : BitVec 6) (b : BitVec 6) (s : State) :
    exec (.rdcyc d a b) s = execRdcyc d a b s := rfl
@[simp] theorem exec_hwait (d : BitVec 6) (a : BitVec 6) (b : BitVec 6) (s : State) :
    exec (.hwait d a b) s = execHwait d a b s := rfl
@[simp] theorem exec_rdhor (d : BitVec 6) (a : BitVec 6) (b : BitVec 6) (s : State) :
    exec (.rdhor d a b) s = execRdhor d a b s := rfl
@[simp] theorem exec_rdvis (d : BitVec 6) (a : BitVec 6) (b : BitVec 6) (s : State) :
    exec (.rdvis d a b) s = execRdvis d a b s := rfl
@[simp] theorem exec_stset (d : BitVec 6) (a : BitVec 6) (b : BitVec 6) (s : State) :
    exec (.stset d a b) s = execStset d a b s := rfl
@[simp] theorem exec_stchk (d : BitVec 6) (a : BitVec 6) (b : BitVec 6) (s : State) :
    exec (.stchk d a b) s = execStchk d a b s := rfl
@[simp] theorem exec_stchkX (d : BitVec 6) (a : BitVec 6) (b : BitVec 6) (s : State) :
    exec (.stchkX d a b) s = execStchkX d a b s := rfl
@[simp] theorem exec_tsmin (d : BitVec 6) (a : BitVec 6) (b : BitVec 6) (s : State) :
    exec (.tsmin d a b) s = execTsmin d a b s := rfl
@[simp] theorem exec_tsrd (d : BitVec 6) (a : BitVec 6) (b : BitVec 6) (s : State) :
    exec (.tsrd d a b) s = execTsrd d a b s := rfl
@[simp] theorem exec_pub (d : BitVec 6) (a : BitVec 6) (b : BitVec 6) (s : State) :
    exec (.pub d a b) s = execPub d a b s := rfl
@[simp] theorem exec_cq (d : BitVec 6) (x : BitVec 3) (s : State) :
    exec (.cq d x) s = execCq d x s := rfl
@[simp] theorem exec_cqTry (d : BitVec 6) (x : BitVec 3) (s : State) :
    exec (.cqTry d x) s = execCqTry d x s := rfl
@[simp] theorem exec_copy (d : BitVec 6) (x : BitVec 3) (det : Bool) (q : BitVec 2) (s : State) :
    exec (.copy d x det q) s = execCopy d x det q s := rfl
@[simp] theorem exec_copyRed (d : BitVec 6) (x : BitVec 3) (det : Bool) (q : BitVec 2) (rop : BitVec 4) (s : State) :
    exec (.copyRed d x det q rop) s = execCopyRed d x det q rop s := rfl
@[simp] theorem exec_copyMc (d : BitVec 6) (x : BitVec 3) (det : Bool) (q : BitVec 2) (s : State) :
    exec (.copyMc d x det q) s = execCopyMc d x det q s := rfl
@[simp] theorem exec_bwl (d : BitVec 6) (x : BitVec 3) (g : BitVec 6) (q : BitVec 2) (slot : BitVec 3) (det : Bool) (s : State) :
    exec (.bwl d x g q slot det) s = execBwl d x g q slot det s := rfl
@[simp] theorem exec_bmm (d : BitVec 6) (x : BitVec 3) (g : BitVec 6) (q : BitVec 2) (slot : BitVec 3) (tile : BitVec 2) (det : Bool) (s : State) :
    exec (.bmm d x g q slot tile det) s = execBmm d x g q slot tile det s := rfl
@[simp] theorem exec_bdr (d : BitVec 6) (x : BitVec 3) (g : BitVec 6) (q : BitVec 2) (clr : Bool) (raw : Bool) (tile : BitVec 2) (mode : Bool) (det : Bool) (s : State) :
    exec (.bdr d x g q clr raw tile mode det) s = execBdr d x g q clr raw tile mode det s := rfl
@[simp] theorem exec_bclr (d : BitVec 6) (x : BitVec 3) (g : BitVec 6) (q : BitVec 2) (clr : Bool) (raw : Bool) (tile : BitVec 2) (mode : Bool) (det : Bool) (s : State) :
    exec (.bclr d x g q clr raw tile mode det) s = execBclr d x g q clr raw tile mode det s := rfl
@[simp] theorem exec_twait (d : BitVec 6) (a : BitVec 6) (b : BitVec 6) (s : State) :
    exec (.twait d a b) s = execTwait d a b s := rfl
@[simp] theorem exec_twaitS (d : BitVec 6) (a : BitVec 6) (b : BitVec 6) (s : State) :
    exec (.twaitS d a b) s = execTwaitS d a b s := rfl
@[simp] theorem exec_tpoll (d : BitVec 6) (a : BitVec 6) (b : BitVec 6) (s : State) :
    exec (.tpoll d a b) s = execTpoll d a b s := rfl
@[simp] theorem exec_tcancel (d : BitVec 6) (a : BitVec 6) (b : BitVec 6) (s : State) :
    exec (.tcancel d a b) s = execTcancel d a b s := rfl
@[simp] theorem exec_tdet (d : BitVec 6) (a : BitVec 6) (b : BitVec 6) (s : State) :
    exec (.tdet d a b) s = execTdet d a b s := rfl
@[simp] theorem exec_tadopt (d : BitVec 6) (a : BitVec 6) (b : BitVec 6) (s : State) :
    exec (.tadopt d a b) s = execTadopt d a b s := rfl
@[simp] theorem exec_tpri (d : BitVec 6) (a : BitVec 6) (b : BitVec 6) (s : State) :
    exec (.tpri d a b) s = execTpri d a b s := rfl
@[simp] theorem exec_qfence (d : BitVec 6) (a : BitVec 6) (b : BitVec 6) (s : State) :
    exec (.qfence d a b) s = execQfence d a b s := rfl
@[simp] theorem exec_tfrec (d : BitVec 6) (a : BitVec 6) (n : BitVec 6) (s : State) :
    exec (.tfrec d a n) s = execTfrec d a n s := rfl
@[simp] theorem exec_accessAtHome (id : Nat) (ages : List Nat) (s : State) :
    exec (.accessAtHome id ages) s = execAccessAtHome id ages s := rfl
@[simp] theorem exec_loadReply (id : Nat) (s : State) :
    exec (.loadReply id) s = execLoadReply id s := rfl
@[simp] theorem exec_witnessReturn (id : Nat) (s : State) :
    exec (.witnessReturn id) s = execWitnessReturn id s := rfl
@[simp] theorem exec_drawerEnable (core : Nat) (n : Nat) (s : State) :
    exec (.drawerEnable core n) s = execDrawerEnable core n s := rfl
@[simp] theorem exec_drawerDisable (core : Nat) (n : Nat) (s : State) :
    exec (.drawerDisable core n) s = execDrawerDisable core n s := rfl
@[simp] theorem exec_stampRegionWrite (tenant : Nat) (region : Nat) (word : Nat) (v : Word) (s : State) :
    exec (.stampRegionWrite tenant region word v) s = execStampRegionWrite tenant region word v s := rfl
@[simp] theorem exec_commandEnqueue (core : Nat) (s : State) :
    exec (.commandEnqueue core) s = execCommandEnqueue core s := rfl
@[simp] theorem exec_copyDescRead (op : Nat) (s : State) :
    exec (.copyDescRead op) s = execCopyDescRead op s := rfl
@[simp] theorem exec_leaveGrant (die : Nat) (s : State) :
    exec (.leaveGrant die) s = execLeaveGrant die s := rfl
@[simp] theorem exec_opStart (bench : Nat) (engine : Nat) (s : State) :
    exec (.opStart bench engine) s = execOpStart bench engine s := rfl
@[simp] theorem exec_copyChunk (op : Nat) (s : State) :
    exec (.copyChunk op) s = execCopyChunk op s := rfl
@[simp] theorem exec_reduceApply (op : Nat) (line : Nat) (s : State) :
    exec (.reduceApply op line) s = execReduceApply op line s := rfl
@[simp] theorem exec_applyRetry (op : Nat) (line : Nat) (s : State) :
    exec (.applyRetry op line) s = execApplyRetry op line s := rfl
@[simp] theorem exec_chunkClose (op : Nat) (s : State) :
    exec (.chunkClose op) s = execChunkClose op s := rfl
@[simp] theorem exec_copyClaimResume (op : Nat) (s : State) :
    exec (.copyClaimResume op) s = execCopyClaimResume op s := rfl
@[simp] theorem exec_berylOpComplete (op : Nat) (s : State) :
    exec (.berylOpComplete op) s = execBerylOpComplete op s := rfl
@[simp] theorem exec_opEnd (op : Nat) (s : State) :
    exec (.opEnd op) s = execOpEnd op s := rfl
@[simp] theorem exec_engineStarved (t : Nat) (s : State) :
    exec (.engineStarved t) s = execEngineStarved t s := rfl
@[simp] theorem exec_spawnStarved (t : Nat) (s : State) :
    exec (.spawnStarved t) s = execSpawnStarved t s := rfl
@[simp] theorem exec_idleTimeout (t : Nat) (s : State) :
    exec (.idleTimeout t) s = execIdleTimeout t s := rfl
@[simp] theorem exec_interrupt (t : Nat) (s : State) :
    exec (.interrupt t) s = execInterrupt t s := rfl
@[simp] theorem exec_hostDoorbell (tenant : Nat) (t : Nat) (s : State) :
    exec (.hostDoorbell tenant t) s = execHostDoorbell tenant t s := rfl
@[simp] theorem exec_taskFail (t : Nat) (s : State) :
    exec (.taskFail t) s = execTaskFail t s := rfl
@[simp] theorem exec_preempt (t : Nat) (s : State) :
    exec (.preempt t) s = execPreempt t s := rfl
@[simp] theorem exec_threadDispatch (core : Nat) (s : State) :
    exec (.threadDispatch core) s = execThreadDispatch core s := rfl
@[simp] theorem exec_traceSample (t : Nat) (s : State) :
    exec (.traceSample t) s = execTraceSample t s := rfl
@[simp] theorem exec_candidateForward (core : Nat) (slot : Nat) (thief : Nat) (s : State) :
    exec (.candidateForward core slot thief) s = execCandidateForward core slot thief s := rfl
@[simp] theorem exec_thiefStart (core : Nat) (s : State) :
    exec (.thiefStart core) s = execThiefStart core s := rfl
@[simp] theorem exec_stealRequest (core : Nat) (s : State) :
    exec (.stealRequest core) s = execStealRequest core s := rfl
@[simp] theorem exec_stealWithdraw (core : Nat) (s : State) :
    exec (.stealWithdraw core) s = execStealWithdraw core s := rfl
@[simp] theorem exec_thiefBackoffEnd (core : Nat) (s : State) :
    exec (.thiefBackoffEnd core) s = execThiefBackoffEnd core s := rfl
@[simp] theorem exec_candidateAgeing (core : Nat) (slot : Nat) (s : State) :
    exec (.candidateAgeing core slot) s = execCandidateAgeing core slot s := rfl
@[simp] theorem exec_messageArrival (id : Nat) (s : State) :
    exec (.messageArrival id) s = execMessageArrival id s := rfl
@[simp] theorem exec_cancelBroadcast (tenant : Nat) (job : Nat) (bench : Nat) (s : State) :
    exec (.cancelBroadcast tenant job bench) s = execCancelBroadcast tenant job bench s := rfl
@[simp] theorem exec_signalAdd (id : Nat) (s : State) :
    exec (.signalAdd id) s = execSignalAdd id s := rfl
@[simp] theorem exec_launchRecord (tenant : Nat) (window : Nat) (offset : Nat) (bytes : List Byte) (s : State) :
    exec (.launchRecord tenant window offset bytes) s = execLaunchRecord tenant window offset bytes s := rfl
@[simp] theorem exec_badlnchClear (tenant : Nat) (window : Nat) (s : State) :
    exec (.badlnchClear tenant window) s = execBadlnchClear tenant window s := rfl
@[simp] theorem exec_hostAnswer (tenant : Nat) (seq : Word) (answer : Word) (s : State) :
    exec (.hostAnswer tenant seq answer) s = execHostAnswer tenant seq answer s := rfl
@[simp] theorem exec_configMailboxRequest (r : CfgReq) (s : State) :
    exec (.configMailboxRequest r) s = execConfigMailboxRequest r s := rfl
@[simp] theorem exec_hostImageAccess (tenant : Nat) (offset : Nat) (len : Nat) (data : Option (List Byte)) (s : State) :
    exec (.hostImageAccess tenant offset len data) s = execHostImageAccess tenant offset len data s := rfl
@[simp] theorem exec_releaseBufferSend (s : State) :
    exec (.releaseBufferSend) s = execReleaseBufferSend s := rfl
@[simp] theorem exec_pageMapped (req : Nat) (s : State) :
    exec (.pageMapped req) s = execPageMapped req s := rfl
@[simp] theorem exec_pageRefused (req : Nat) (s : State) :
    exec (.pageRefused req) s = execPageRefused req s := rfl
@[simp] theorem exec_shootdown (tenant : Nat) (va : Nat) (len : Nat) (s : State) :
    exec (.shootdown tenant va len) s = execShootdown tenant va len s := rfl
@[simp] theorem exec_spareShelfMove (tenant : Nat) (va : Nat) (core : Nat) (im : Nat) (s : State) :
    exec (.spareShelfMove tenant va core im) s = execSpareShelfMove tenant va core im s := rfl
@[simp] theorem exec_migrationMove (tenant : Nat) (va : Nat) (s : State) :
    exec (.migrationMove tenant va) s = execMigrationMove tenant va s := rfl
@[simp] theorem exec_settleExpiry (tenant : Nat) (va : Nat) (s : State) :
    exec (.settleExpiry tenant va) s = execSettleExpiry tenant va s := rfl
@[simp] theorem exec_epochAdvance (s : State) :
    exec (.epochAdvance) s = execEpochAdvance s := rfl
@[simp] theorem exec_visibilityPublish (s : State) :
    exec (.visibilityPublish) s = execVisibilityPublish s := rfl
@[simp] theorem exec_horizonPublish (bench : Nat) (s : State) :
    exec (.horizonPublish bench) s = execHorizonPublish bench s := rfl
@[simp] theorem exec_cycleStart (n : Nat) (s : State) :
    exec (.cycleStart n) s = execCycleStart n s := rfl
@[simp] theorem exec_frameIngress (f : Frame) (s : State) :
    exec (.frameIngress f) s = execFrameIngress f s := rfl
@[simp] theorem exec_pubCutoff (n : Nat) (s : State) :
    exec (.pubCutoff n) s = execPubCutoff n s := rfl
@[simp] theorem exec_publishInstant (n : Nat) (s : State) :
    exec (.publishInstant n) s = execPublishInstant n s := rfl
@[simp] theorem exec_timeCorrection (ns : Int) (s : State) :
    exec (.timeCorrection ns) s = execTimeCorrection ns s := rfl
@[simp] theorem exec_holdoverEntry (s : State) :
    exec (.holdoverEntry) s = execHoldoverEntry s := rfl
@[simp] theorem exec_classStart (n : Nat) (v : Word) (s : State) :
    exec (.classStart n v) s = execClassStart n v s := rfl
@[simp] theorem exec_classStop (n : Nat) (s : State) :
    exec (.classStop n) s = execClassStop n s := rfl
@[simp] theorem exec_budgetExhausted (tenant : Nat) (entry : Nat) (s : State) :
    exec (.budgetExhausted tenant entry) s = execBudgetExhausted tenant entry s := rfl
@[simp] theorem exec_budgetGraceEnd (t : Nat) (s : State) :
    exec (.budgetGraceEnd t) s = execBudgetGraceEnd t s := rfl
@[simp] theorem exec_recoveryMarkOpen (s : State) :
    exec (.recoveryMarkOpen) s = execRecoveryMarkOpen s := rfl
@[simp] theorem exec_recoveryMarkClose (s : State) :
    exec (.recoveryMarkClose) s = execRecoveryMarkClose s := rfl
@[simp] theorem exec_markHoldTimeout (s : State) :
    exec (.markHoldTimeout) s = execMarkHoldTimeout s := rfl
@[simp] theorem exec_machineCheck (addr : Nat) (s : State) :
    exec (.machineCheck addr) s = execMachineCheck addr s := rfl
@[simp] theorem exec_pairWrite (v : Word) (s : State) :
    exec (.pairWrite v) s = execPairWrite v s := rfl
@[simp] theorem exec_logFlit (h : FlitHdr) (es : List LogEntry) (s : State) :
    exec (.logFlit h es) s = execLogFlit h es s := rfl
@[simp] theorem exec_progFlit (h : FlitHdr) (ts : List Nat) (s : State) :
    exec (.progFlit h ts) s = execProgFlit h ts s := rfl
@[simp] theorem exec_ackFlit (h : FlitHdr) (pos : Word) (s : State) :
    exec (.ackFlit h pos) s = execAckFlit h pos s := rfl
@[simp] theorem exec_heartFlit (h : FlitHdr) (b : HeartBody) (s : State) :
    exec (.heartFlit h b) s = execHeartFlit h b s := rfl
@[simp] theorem exec_fillReq (h : FlitHdr) (pos : Nat) (tenant : Nat) (region : Nat) (s : State) :
    exec (.fillReq h pos tenant region) s = execFillReq h pos tenant region s := rfl
@[simp] theorem exec_fillFlit (h : FlitHdr) (pos : Nat) (tenant : Nat) (region : Nat) (offset : Nat) (data : List Byte) (s : State) :
    exec (.fillFlit h pos tenant region offset data) s = execFillFlit h pos tenant region offset data s := rfl
@[simp] theorem exec_fcrcFlit (h : FlitHdr) (entry : Nat) (cycle : Word) (crc : Word32) (s : State) :
    exec (.fcrcFlit h entry cycle crc) s = execFcrcFlit h entry cycle crc s := rfl
@[simp] theorem exec_peerFlit (h : FlitHdr) (payload : List Byte) (s : State) :
    exec (.peerFlit h payload) s = execPeerFlit h payload s := rfl
@[simp] theorem exec_resign (h : FlitHdr) (s : State) :
    exec (.resign h) s = execResign h s := rfl
@[simp] theorem exec_standbyAck (s : State) :
    exec (.standbyAck) s = execStandbyAck s := rfl
@[simp] theorem exec_heartTimer (s : State) :
    exec (.heartTimer) s = execHeartTimer s := rfl
@[simp] theorem exec_flitResend (s : State) :
    exec (.flitResend) s = execFlitResend s := rfl
@[simp] theorem exec_laneRetrainDone (s : State) :
    exec (.laneRetrainDone) s = execLaneRetrainDone s := rfl
@[simp] theorem exec_peerLossTimeout (s : State) :
    exec (.peerLossTimeout) s = execPeerLossTimeout s := rfl
@[simp] theorem exec_lagmaxTimeout (s : State) :
    exec (.lagmaxTimeout) s = execLagmaxTimeout s := rfl
@[simp] theorem exec_tenantSwitch (bench : Nat) (tenant : Option Nat) (s : State) :
    exec (.tenantSwitch bench tenant) s = execTenantSwitch bench tenant s := rfl
@[simp] theorem exec_l2LockEnable (v : Word) (s : State) :
    exec (.l2LockEnable v) s = execL2LockEnable v s := rfl
@[simp] theorem exec_l2LockDisable (s : State) :
    exec (.l2LockDisable) s = execL2LockDisable s := rfl
@[simp] theorem exec_l2LockDone (s : State) :
    exec (.l2LockDone) s = execL2LockDone s := rfl
@[simp] theorem exec_benchGate (bench : Nat) (s : State) :
    exec (.benchGate bench) s = execBenchGate bench s := rfl
@[simp] theorem exec_benchWake (bench : Nat) (s : State) :
    exec (.benchWake bench) s = execBenchWake bench s := rfl
@[simp] theorem exec_thermalEmergency (die : Nat) (tj : Nat) (s : State) :
    exec (.thermalEmergency die tj) s = execThermalEmergency die tj s := rfl
@[simp] theorem exec_powerCapAdjust (milliwatts : Nat) (s : State) :
    exec (.powerCapAdjust milliwatts) s = execPowerCapAdjust milliwatts s := rfl
@[simp] theorem exec_packageReset (s : State) :
    exec (.packageReset) s = execPackageReset s := rfl
@[simp] theorem exec_firmwareRecoveryWrite (image : List Byte) (s : State) :
    exec (.firmwareRecoveryWrite image) s = execFirmwareRecoveryWrite image s := rfl
@[simp] theorem exec_coreReset (core : Nat) (s : State) :
    exec (.coreReset core) s = execCoreReset core s := rfl
@[simp] theorem exec_benchReset (bench : Nat) (s : State) :
    exec (.benchReset bench) s = execBenchReset bench s := rfl
@[simp] theorem exec_stopJob (id : Nat) (s : State) :
    exec (.stopJob id) s = execStopJob id s := rfl
@[simp] theorem exec_goJob (id : Nat) (s : State) :
    exec (.goJob id) s = execGoJob id s := rfl
@[simp] theorem exec_rdrec (id : Nat) (s : State) :
    exec (.rdrec id) s = execRdrec id s := rfl
@[simp] theorem exec_rdctx (id : Nat) (s : State) :
    exec (.rdctx id) s = execRdctx id s := rfl
@[simp] theorem exec_debugHalt (t : Nat) (s : State) :
    exec (.debugHalt t) s = execDebugHalt t s := rfl
@[simp] theorem exec_debugRelease (t : Nat) (s : State) :
    exec (.debugRelease t) s = execDebugRelease t s := rfl
@[simp] theorem exec_debugAccess (r : DebugReq) (s : State) :
    exec (.debugAccess r) s = execDebugAccess r s := rfl
@[simp] theorem exec_unlock (die : Nat) (s : State) :
    exec (.unlock die) s = execUnlock die s := rfl
@[simp] theorem exec_wipe (die : Nat) (s : State) :
    exec (.wipe die) s = execWipe die s := rfl
@[simp] theorem exec_openPort (die : Nat) (s : State) :
    exec (.openPort die) s = execOpenPort die s := rfl
@[simp] theorem exec_attest (die : Nat) (s : State) :
    exec (.attest die) s = execAttest die s := rfl
@[simp] theorem exec_keyload (die : Nat) (s : State) :
    exec (.keyload die) s = execKeyload die s := rfl
@[simp] theorem exec_deploy (die : Nat) (s : State) :
    exec (.deploy die) s = execDeploy die s := rfl
@[simp] theorem exec_retire (die : Nat) (s : State) :
    exec (.retire die) s = execRetire die s := rfl
@[simp] theorem exec_powerLoss (burned : Nat) (s : State) :
    exec (.powerLoss burned) s = execPowerLoss burned s := rfl
@[simp] theorem exec_qbvGateOpen (port : Nat) (s : State) :
    exec (.qbvGateOpen port) s = execQbvGateOpen port s := rfl
@[simp] theorem exec_flitDiscard (h : FlitHdr) (s : State) :
    exec (.flitDiscard h) s = execFlitDiscard h s := rfl
@[simp] theorem exec_stewardNotice (t : Nat) (s : State) :
    exec (.stewardNotice t) s = execStewardNotice t s := rfl
@[simp] theorem exec_perstRelease (s : State) :
    exec (.perstRelease) s = execPerstRelease s := rfl
@[simp] theorem exec_pcieConfigRequest (s : State) :
    exec (.pcieConfigRequest) s = execPcieConfigRequest s := rfl

end Sys2Proof.Machine
end

