-- ==== Sys2Proof/Laws/Log.lean ====
section
/-! SUPPORT. What the choices of the order log come to on a package that leads (R262): each is written and goes on. -/

namespace Sys2Proof.Machine

theorem State.choose_leads {s : State} (h : s.replaying = false) (e : LogEntry) (f : Bool) (w : Out) (k : State → LogEntry → Out) :
    s.choose e f w k = k (s.writeLog e) e := by
  unfold State.choose; rw [h]; rfl

theorem State.read_leads {s : State} (h : s.replaying = false) (m f : Nat) (v : Word) (k : State → Word → Out) :
    s.read m f v k = k (s.noted (m * 128 + f) v) v := by
  unfold State.read State.noted
  split
  · rfl
  · rw [State.choose_leads h]

theorem State.arbitrate_leads {s : State} (h : s.replaying = false) (site n src : Nat) (w : Out) (k : State → Out) :
    s.arbitrate site n src w k = k (s.writeLog ⟨0x06, site, n, word src⟩) := by
  unfold State.arbitrate
  rw [State.choose_leads h, h]
  rfl

theorem State.epochAt_leads {s : State} (h : s.replaying = false) (site : Nat) (w : Out) (k : State → Nat → Out) :
    s.epochAt site w k = k (s.dated site) (word s.pkg.ecur).toNat := by
  unfold State.epochAt State.dated
  rw [State.choose_leads h]

/-- The role and the inbox, on which leading rests, are kept by an entry written. -/
theorem State.writeLog_replaying (s : State) (e : LogEntry) : (s.writeLog e).replaying = s.replaying := by
  unfold State.writeLog State.writeAt State.keepForMark State.sendFlit State.replaying
  simp only
  repeat' split
  all_goals rfl

theorem State.noted_replaying (s : State) (c : Nat) (v : Word) : (s.noted c v).replaying = s.replaying := by
  unfold State.noted
  split
  · rfl
  · exact State.writeLog_replaying ..

/-- What an entry written leaves alone: all but the pair, the flits sent and the entries kept for the open marks. -/
theorem State.writeLog_rest (s : State) (e : LogEntry) :
    { s.writeLog e with pair := s.pair, outputs := s.outputs, marks := s.marks } = s := by
  unfold State.writeLog State.writeAt State.keepForMark State.sendFlit
  simp only
  repeat' split
  all_goals rfl

end Sys2Proof.Machine
end

