-- ==== Sys2Proof/Laws/Memory.lean ====
section
/-! SUPPORT. Bytes of memory: what a read gives, what a write leaves, and that every operation over memory keeps its canonical
form. -/

namespace Sys2Proof.Machine

/-! ### Bytes and numbers -/

theorem readMem_lt (m : Store Byte) (a n : Nat) : readMem m a n < 256 ^ n := by
  induction n generalizing a with
  | zero => simp [readMem]
  | succ n ih => have := ih (a + 1); have h2 := (m.get 0 a).isLt; simp only [readMem, Nat.pow_succ]; omega

theorem bytesNat_byteList (v n : Nat) : bytesNat (byteList v n) = v % 256 ^ n := by
  induction n generalizing v with
  | zero => simp [bytesNat, byteList, Nat.mod_one]
  | succ n ih =>
    rw [byteList, bytesNat, ih, BitVec.toNat_ofNat, Nat.pow_succ (n := 256), Nat.mul_comm (256 ^ n) 256, Nat.mod_mul]

@[simp] theorem byteList_length (v n : Nat) : (byteList v n).length = n := by
  induction n generalizing v with
  | zero => rfl
  | succ n ih => simp [byteList, ih]

/-! ### A write and the bytes outside it -/

theorem writeMem_get_below (m : Store Byte) (a v n x : Nat) (h : x < a) : (writeMem m a v n).get 0 x = m.get 0 x := by
  induction n generalizing m a v with
  | zero => rfl
  | succ n ih => rw [writeMem, ih _ _ _ (by omega), Store.get_set_ne _ _ _ (by omega)]

theorem writeMem_get_above (m : Store Byte) (a v n x : Nat) (h : a + n ≤ x) : (writeMem m a v n).get 0 x = m.get 0 x := by
  induction n generalizing m a v with
  | zero => rfl
  | succ n ih => rw [writeMem, ih _ _ _ (by omega), Store.get_set_ne _ _ _ (by omega)]

/-- Reads of equal bytes are equal. -/
theorem readMem_congr (m m' : Store Byte) (a n : Nat) (h : ∀ x, a ≤ x → x < a + n → m.get 0 x = m'.get 0 x) : readMem m a n = readMem m' a n := by
  induction n generalizing a with
  | zero => rfl
  | succ n ih => rw [readMem, readMem, h a (by omega) (by omega), ih (a + 1) fun x h1 h2 => h x (by omega) (by omega)]

/-- A read outside a write gives what it gave before. -/
theorem readMem_writeMem_ne (m : Store Byte) (a v n b k : Nat) (h : b + k ≤ a ∨ a + n ≤ b) : readMem (writeMem m a v n) b k = readMem m b k :=
  readMem_congr _ _ _ _ fun x h1 h2 => h.elim (fun h => writeMem_get_below _ _ _ _ _ (by omega)) fun h => writeMem_get_above _ _ _ _ _ (by omega)

/-- A read of what was written gives it. -/
theorem readMem_writeMem (m : Store Byte) (a v n : Nat) : readMem (writeMem m a v n) a n = v % 256 ^ n := by
  induction n generalizing m a v with
  | zero => simp [readMem, Nat.mod_one]
  | succ n ih =>
    rw [writeMem, readMem, ih, writeMem_get_below _ _ _ _ _ (by omega), Store.get_set_self, BitVec.toNat_ofNat,
      Nat.pow_succ (n := 256), Nat.mul_comm (256 ^ n) 256, Nat.mod_mul]

theorem bytesNat_lt (l : List Byte) : bytesNat l < 256 ^ l.length := by
  induction l with
  | nil => simp [bytesNat]
  | cons b r ih => have := b.isLt; simp only [bytesNat, List.length_cons, Nat.pow_succ]; omega

/-! ### The canonical form -/

theorem writeMem_wf (m : Store Byte) (a v n : Nat) (h : Memory.wf m) : Memory.wf (writeMem m a v n) := by
  induction n generalizing m a v with
  | zero => exact h
  | succ n ih => exact ih _ _ _ (Store.wf_set _ _ _ _ h)

/-- A change made for each element of a list keeps the canonical form when each single change does. -/
theorem foldl_wf {α : Type} (f : Pkg → α → Pkg) (hf : ∀ a p, Memory.wf p.mem → Memory.wf (f p a).mem) (l : List α) (p : Pkg)
    (h : Memory.wf p.mem) : Memory.wf (l.foldl f p).mem := by
  induction l generalizing p with
  | nil => exact h
  | cons a r ih => rw [List.foldl_cons]; exact ih _ (hf a p h)

theorem Pkg.perform_wf (th : Option (Nat × Nat)) (a n v : Nat) (p : Pkg) (h : Memory.wf p.mem) :
    Memory.wf (p.perform th a n v).mem :=
  writeMem_wf _ _ _ _ h

theorem Pkg.performAs_wf (th : Option (Nat × Nat)) (at_ len a n v : Nat) (p : Pkg) (h : Memory.wf p.mem) :
    Memory.wf (p.performAs th at_ len a n v).mem :=
  writeMem_wf _ _ _ _ h

theorem Pkg.keep_wf (a : Nat) (v : Word) (p : Pkg) (h : Memory.wf p.mem) : Memory.wf (p.keep a v).mem :=
  writeMem_wf _ _ _ _ h

theorem Pkg.wr_wf (a : Nat) (v : Word) (p : Pkg) (h : Memory.wf p.mem) :
    Memory.wf (p.wr a v).mem :=
  Pkg.perform_wf none a 8 _ p h

theorem Pkg.zero_wf (a n : Nat) (p : Pkg) (h : Memory.wf p.mem) :
    Memory.wf (p.zero a n).mem :=
  Store.wf_filter _ _ _ h

@[simp] theorem Pkg.onOp_mem (p : Pkg) (k : Nat) (f : Op → Op) : (p.onOp k f).mem = p.mem := rfl
@[simp] theorem Pkg.takeSlot_mem (p : Pkg) (slot : Nat) : (p.takeSlot slot).mem = p.mem := rfl
@[simp] theorem Pkg.candidate_mem (p : Pkg) (c slot tenant now : Nat) (cyc handed : Bool) :
    (p.candidate c slot tenant now cyc handed).mem = p.mem := rfl

theorem Pkg.touch_wf (at_ : Nat) (e : Word) (u : Use) (p : Pkg) (h : Memory.wf p.mem) :
    Memory.wf (p.touch at_ e u).mem := by
  unfold Pkg.touch; extract_lets; split
  all_goals first | exact h | exact Pkg.perform_wf _ _ _ _ p h

theorem Pkg.putRecord_wf (slot : Nat) (r : Rec) (p : Pkg) (h : Memory.wf p.mem) :
    Memory.wf (p.putRecord slot r).mem :=
  Pkg.perform_wf none slot 64 _ p h

theorem Pkg.pushNewest_wf (c slot : Nat) (p : Pkg) (h : Memory.wf p.mem) :
    Memory.wf (p.pushNewest c slot).mem := by
  unfold Pkg.pushNewest; extract_lets; split
  · exact h
  · exact Pkg.wr_wf _ _ p h

theorem Pkg.shiftUp_wf (c n : Nat) (p : Pkg) (h : Memory.wf p.mem) :
    Memory.wf (p.shiftUp c n).mem := by
  induction n generalizing p with
  | zero => exact h
  | succ n ih => exact ih _ (Pkg.wr_wf _ _ p h)

theorem Pkg.pushOldest_wf (c slot : Nat) (p : Pkg) (h : Memory.wf p.mem) :
    Memory.wf (p.pushOldest c slot).mem := by
  unfold Pkg.pushOldest; extract_lets; split
  · exact h
  · exact Pkg.wr_wf _ _ _ (Pkg.shiftUp_wf _ _ p h)

theorem Pkg.refill_mem (p : Pkg) (c : Nat) : (p.refill c).mem = p.mem := by
  unfold Pkg.refill; extract_lets k n; split <;> rfl

theorem Pkg.closeGap_wf (c i n : Nat) (p : Pkg) (h : Memory.wf p.mem) :
    Memory.wf (p.closeGap c i n).mem := by
  induction n generalizing i p with
  | zero => exact h
  | succ n ih => exact ih (i + 1) _ (Pkg.wr_wf _ _ p h)

theorem Pkg.takeDeque_wf (c slot : Nat) (p : Pkg) (h : Memory.wf p.mem) :
    Memory.wf (p.takeDeque c slot).mem := by
  unfold Pkg.takeDeque; split
  · exact h
  · split
    · exact Pkg.closeGap_wf _ _ _ p h
    · exact h

theorem Pkg.used_wf (t va : Nat) (u : Use) (p : Pkg) (h : Memory.wf p.mem) : Memory.wf (p.used t va u).mem := by
  unfold Pkg.used
  split
  · exact Pkg.touch_wf _ _ _ p h
  all_goals exact h

theorem Pkg.noteEntry_wf (die t i : Nat) (p : Pkg) (h : Memory.wf p.mem) : Memory.wf (p.noteEntry die t i).mem := by
  unfold Pkg.noteEntry
  split
  · exact Pkg.used_wf _ _ _ p h
  · exact h

theorem Pkg.useGen_wf (b t job : Nat) (p : Pkg) (h : Memory.wf p.mem) : Memory.wf (p.useGen b t job).mem := by
  unfold Pkg.useGen
  split
  · exact Pkg.used_wf _ _ _ p h
  · split <;> exact h

theorem Pkg.rouse_mem (b : Nat) (p : Pkg) : (p.rouse b).mem = p.mem := by
  unfold Pkg.rouse; split <;> rfl

theorem Pkg.createLaunch_wf (slot : Nat) (l : LaunchWait) (p q : Pkg) (h : Memory.wf p.mem) (e : p.createLaunch slot l = some q) :
    Memory.wf q.mem := by
  unfold Pkg.createLaunch at e
  obtain ⟨x, -, rfl⟩ := Option.map_eq_some_iff.mp e
  exact Pkg.pushNewest_wf _ _ _ (Pkg.perform_wf none _ _ _ _ (Pkg.useGen_wf _ _ _ p h))

theorem Pkg.grantSlot_wf (slot : Nat) (l : List LaunchWait) (p : Pkg) (h : Memory.wf p.mem) : Memory.wf (p.grantSlot slot l).mem := by
  induction l generalizing p with
  | nil => exact h
  | cons a r ih =>
    have hq := Pkg.noteEntry_wf (slotCore slot / 128) a.tenant (launchEntry a.words) p h
    unfold Pkg.grantSlot
    extract_lets q
    split
    · next x e => exact Pkg.createLaunch_wf slot a q x hq e
    · exact ih _ hq

theorem Pkg.freeUp_wf (slot : Nat) (p : Pkg) (h : Memory.wf p.mem) : Memory.wf (p.freeUp slot).mem := by
  rw [Pkg.freeUp, Pkg.rouse_mem]; exact Pkg.grantSlot_wf slot _ p h

theorem Pkg.wakeAs_wf (now slot : Nat) (cyc : Bool) (p : Pkg) (h : Memory.wf p.mem) :
    Memory.wf (p.wakeAs now slot cyc).mem := by
  unfold Pkg.wakeAs
  split
  · exact h
  · extract_lets r rest q
    have hq : Memory.wf q.mem := Pkg.useGen_wf _ _ _ p h
    have hr : ∀ r l, Memory.wf { q.putRecord slot r with sleepers := l }.mem := fun r _ => Pkg.putRecord_wf slot r q hq
    split
    · exact hq
    · split
      · exact hq
      · split
        · exact hr _ _
        · rw [Pkg.candidate_mem]; exact hr _ _

theorem Pkg.wake_wf (now slot : Nat) (p : Pkg) (h : Memory.wf p.mem) :
    Memory.wf (p.wake now slot).mem :=
  Pkg.wakeAs_wf now slot false p h

theorem Pkg.wakeWhere_wf (now : Nat) (f : Sleeper → Bool) (p : Pkg) (h : Memory.wf p.mem) : Memory.wf (p.wakeWhere now f).mem :=
  foldl_wf _ (fun z p h => Pkg.wake_wf now z.slot p h) _ _ h

theorem Pkg.wakeReaders_wf (now a : Nat) (p : Pkg) (h : Memory.wf p.mem) : Memory.wf (p.wakeReaders now a).mem :=
  Pkg.wakeWhere_wf now _ p h

theorem Pkg.putDrawer_wf (a : Nat) (d : Drawer) (p : Pkg) (h : Memory.wf p.mem) :
    Memory.wf (p.putDrawer a d).mem :=
  Pkg.wr_wf _ _ p h

theorem Pkg.claim_wf (a : Nat) (p : Pkg) (h : Memory.wf p.mem) :
    Memory.wf ((p.claim a).2).mem :=
  Pkg.putDrawer_wf _ _ p h

theorem Pkg.post_wf (now a : Nat) (w : Word) (p : Pkg) (h : Memory.wf p.mem) :
    Memory.wf (p.post now a w).mem := by
  unfold Pkg.post; extract_lets; split
  · exact h
  · exact Pkg.wakeReaders_wf _ _ _ (Pkg.putDrawer_wf a _ p h)

theorem Pkg.takeFilled_wf (a : Nat) (p : Pkg) (h : Memory.wf p.mem) :
    Memory.wf ((p.takeFilled a).2.2).mem :=
  Pkg.putDrawer_wf _ _ p h

theorem Pkg.storeRegion_wf (t r w : Nat) (v : Word) (p : Pkg) (h : Memory.wf p.mem) :
    Memory.wf (p.storeRegion t r w v).mem := by
  have hw : ∀ a v, Memory.wf (p.keep a v).mem := fun a v => Pkg.keep_wf a v p h
  have hw2 : ∀ a v b u, Memory.wf ((p.keep a v).keep b u).mem := fun a v b u => Pkg.keep_wf b u _ (hw a v)
  have hz : ∀ a v b u x n l, Memory.wf { ((p.keep a v).keep b u).zero x n with filling := l }.mem :=
    fun a v b u x n _ => Pkg.zero_wf x n _ (hw2 a v b u)
  unfold Pkg.storeRegion
  extract_lets
  split
  · split
    · exact hw _ _
    · exact h
  · split
    · split
      · split
        · exact hz ..
        · exact hw2 ..
      · exact hw _ _
    · split <;> exact hw _ _
  · exact hw _ _
  · exact hw _ _

theorem Pkg.storeRegionBytes_wf (a n v : Nat) (p : Pkg) (h : Memory.wf p.mem) :
    Memory.wf (p.storeRegionBytes a n v).mem := by
  rw [Pkg.storeRegionBytes]
  generalize List.range 9 = l
  generalize imageBase + 0xFF0000 = b
  induction l generalizing p with
  | nil => exact h
  | cons i r ih =>
    rw [List.foldl_cons]
    apply ih
    dsimp only
    split
    · exact h
    · exact Pkg.storeRegion_wf _ _ _ _ p h

/-- A write performed at a home keeps the canonical form. -/
theorem Pkg.writeHome_wf (now : Nat) (th : Option (Nat × Nat)) (a n v : Nat) (p : Pkg) (h : Memory.wf p.mem) :
    Memory.wf (p.writeHome now th a n v).mem := by
  unfold Pkg.writeHome
  split
  · exact Pkg.storeRegionBytes_wf _ _ _ (p.note th a n a n) h
  · split
    · extract_lets d old new q
      have hq : Memory.wf q.mem := Pkg.performAs_wf _ _ _ _ _ _ p h
      split
      · exact Pkg.wakeReaders_wf _ _ _ hq
      · exact hq
    · exact Pkg.perform_wf _ _ _ _ p h

end Sys2Proof.Machine
end

