-- ==== Sys2Proof/Laws/Vector.lean ====
section
/-! SUPPORT. Packed elements, and what the completion of a vector instruction does. -/

namespace Sys2Proof.Machine

theorem pack_elem (w : Nat) (l : List Nat) (i : Nat) : pack w l / 2 ^ (w * i) % 2 ^ w = l.getD i 0 % 2 ^ w := by
  induction l generalizing i with
  | nil => simp [pack]
  | cons x r ih =>
    have hw : 0 < 2 ^ w := Nat.two_pow_pos w
    cases i with
    | zero => simp only [pack, Nat.mul_zero, Nat.pow_zero, Nat.div_one, List.getD_cons_zero]; rw [Nat.add_mul_mod_self_left, Nat.mod_mod]
    | succ i =>
      rw [pack, List.getD_cons_succ, ← ih i, Nat.mul_succ, Nat.add_comm (w * i) w, Nat.pow_add, ← Nat.div_div_eq_div_mul,
        Nat.add_mul_div_left _ _ hw, Nat.div_eq_of_lt (Nat.mod_lt _ hw), Nat.zero_add]

/-- Element i of a vector built from a list. -/
theorem elem_vecOf (w : Nat) (l : List Nat) (i : Nat) (h : w * (i + 1) ≤ 512) : elem w (vecOf w l) i = l.getD i 0 % 2 ^ w := by
  rw [← pack_elem, elem, vecOf, BitVec.toNat_ofNat]
  have e : (2 : Nat) ^ 512 = 2 ^ (w * i) * 2 ^ (512 - w * i) := by rw [← Nat.pow_add]; congr 1; rw [Nat.mul_succ] at h; omega
  rw [e, Nat.mod_mul_right_div_self, Nat.mod_mod_of_dvd]
  exact Nat.pow_dvd_pow 2 (by rw [Nat.mul_succ] at h; omega)

theorem getD_map_range (f : Nat → Nat) (n i : Nat) (h : i < n) : ((List.range n).map f).getD i 0 = f i := by
  rw [List.getD_eq_getElem?_getD, List.getElem?_map, List.getElem?_range h]; rfl

theorem statAfter_raise (s : State) (fl : Nat) (w : Bool) : statAfter (s.setMe (s.me.raise fl)) 0 w = statAfter s fl w := by
  cases w <;> simp [statAfter, Thread.raise]

/-- A retired vector result. -/
theorem retire_vec {s : State} (d len fl : Nat) (v : Vec) (w : Bool) :
    ∃ u, s.retirePrefixed ((s.me.raise fl).wv d v) len w = .next u ∧
      Ran [.v d] (s.me.pc + word len) (statAfter s fl w) s u ∧ u.me.rv d = v := by
  refine ⟨_, rfl, ?_, ?_⟩
  · exact Ran.completeAt fl _ _ (KeepsRegs.raise fl (KeepsRegs.wv (s.me.raise fl) d v)) rfl
  · rw [State.completeAt_me]
    have : ∀ (t : Thread) (b : Bool) (pc : Word), ({ t.dropPrefix.warn b with pc := pc, prog := 0, stall := none } : Thread).rv d = t.rv d := by
      intro t b pc; cases b <;> rfl
    rw [this, Thread.rv_wv, if_pos rfl]

end Sys2Proof.Machine
end

