-- ==== Sys2Proof/Tests/Slice0.lean ====
section
/-! SUPPORT. The model's own tests: ill-formed terms that the checks refuse, words written out from the spec's encodings, small
steps with results worked by hand from the rules, and for each statement a state that meets its hypotheses. -/

namespace Sys2Proof.Tests

set_option Elab.async false

open Sys2Proof.Machine

/-! ### Ill-formed terms: one for each check -/

/-- A vector form with the registers given. -/
def vf (d a b k : Nat) : VF := ⟨BitVec.ofNat 5 d, BitVec.ofNat 5 a, BitVec.ofNat 5 b, BitVec.ofNat 3 k, .reg⟩

/-- The same with a literal word. -/
def vfLit (d a b k : Nat) (l : Word32) : VF := { vf d a b k with src := .lit l }

theorem test_wf_scalar : ([.cmp16 1 2 6, .cmp 1 2 3 6, .fmt 6 0 false false 0, .fmt 0 6 false false 0, .addi 1 2 0x1000, .andi 1 2 0x1001,
    .ori 1 2 0x1000, .xori 1 2 0x1001] : List Instr).all (fun i => !i.wf) = true := by decide +kernel

theorem test_wf_vector : ([.fmah (vfLit 1 2 0 0 5), .vmov (vfLit 1 0 0 0 5), .fcmp (vf 8 2 3 0) 2, .fcmp (vf 1 2 3 0) 7, .icmp (vf 8 2 3 0) 2,
    .icmp (vf 1 2 3 0) 6, .kand (vf 8 1 1 0), .kor (vf 1 8 1 0), .kxor (vf 1 1 8 0), .kandn (vf 8 1 1 0), .knot (vf 1 8 0 0),
    .fcvtF32F16 (vf 1 2 2 0), .fcvtF32Bf16 (vf 1 2 2 0), .vnarrowI8 (vf 1 2 4 0), .vnarrowN8 (vf 1 2 4 0), .vwidenI8 (vf 1 2 4 0),
    .vwidenN8 (vf 1 2 4 0), .vdq4 (vf 1 2 8 0), .vbcast (vf 1 2 16 0), .vslup (vf 1 2 16 0), .vsldn (vf 1 2 16 0), .vrot (vf 1 2 16 0),
    .vins (vf 1 2 16 0), .vext (vf 1 2 16 0), .vextu (vf 1 2 16 0), .kmovg (vf 1 8 0 0), .kmovk (vf 8 1 0 0), .vgather (vf 2 2 7 0) 0] :
    List Instr).all (fun i => !i.wf) = true := by decide +kernel

theorem test_wf_memory : ([.wmerge 16 1 1, .wmerge 1 16 1, .wmerge 1 1 16, .wmovg 1 16 0, .wmovw 16 1 0, .wwait 0 16 0, .wfence 16 0 0, .wtest 1 16 0,
    .amoCas 1 2 true 0 false, .dtake 1 2 16, .dtakeTry 1 2 16, .dpost 1 2 16, .rrot 16 1 1, .rrotDn 16 1 1] :
    List Instr).all (fun i => !i.wf) = true := by decide +kernel

theorem test_wf_tasks_engines : ([.join 16 1 0, .join 1 0 0, .join 1 5 0, .send 1 32 0, .sendTry 1 32 0, .mbar 16 0 0, .cq 1 5, .cqTry 1 5,
    .copy 1 6 false 0, .copyRed 1 6 false 0 0, .copyMc 1 6 false 0, .bwl 1 6 2 0 0 false, .bmm 1 6 2 0 0 0 false,
    .bdr 1 6 2 0 false false 0 false false, .twait 1 0 1, .twait 1 5 1, .twait 1 1 16, .twaitS 1 9 16, .tfrec 1 2 4] :
    List Instr).all (fun i => !i.wf) = true := by decide +kernel

theorem test_wf_events : ([.drawerEnable 512 0, .drawerEnable 0 64, .stampRegionWrite 8 0 0 0, .stampRegionWrite 0 256 0 0, .stampRegionWrite 0 0 4 0,
    .commandEnqueue 512, .copyDescRead 53248, .leaveGrant 4, .opStart 64 0, .opStart 0 2, .engineStarved 2052, .hostDoorbell 8 0,
    .candidateForward 0 0 512, .cancelBroadcast 0 65536 0, .launchRecord 0 4 0 [], .spareShelfMove 0 0 0 4, .horizonPublish 64, .cycleStart 8,
    .budgetExhausted 0 1024, .fillReq ⟨0, 0, false, true, true⟩ 0 8 0, .fcrcFlit ⟨0, 0, false, true, true⟩ 256 0 0, .unlock 4, .qbvGateOpen 10] :
    List Instr).all (fun i => !i.wf) = true := by decide +kernel

/-! ### Words written out field by field from the encodings (R34, R41, R46) -/

/-- An R-format word: major, d, a, b, func. -/
def rWord (major d a b func : Nat) : Word32 :=
  1#1 ++ BitVec.ofNat 6 major ++ BitVec.ofNat 6 d ++ BitVec.ofNat 6 a ++ BitVec.ofNat 6 b ++ BitVec.ofNat 7 func

/-- A V-format word: major, vd, va, vb, k, func. -/
def vWord (major d a b k func : Nat) : Word32 :=
  1#1 ++ BitVec.ofNat 6 major ++ BitVec.ofNat 5 d ++ BitVec.ofNat 5 a ++ BitVec.ofNat 5 b ++ BitVec.ofNat 3 k ++ BitVec.ofNat 7 func

/-- The instruction in one word. -/
noncomputable def dec (w : Word32) : Decoded := decode (wordParcels w)

/-! The words of R102, R129, R155, R182 and R213. -/

theorem test_words_scalar : dec 0x810C5180 = .instr (.add 33 34 35) ∧ dec 0x8228C388 = .instr (.div 5 6 7) ∧
    dec 0x905001C8 = .instr (.ldcb 10 0 true 200) ∧ dec 0x944AFFFC = .instr (.bltz 9 0xFFFC) ∧ dec 0x98000100 = .instr (.call 0x100) ∧
    dec 0x9E390800 = .instr (.clrctl 7 8 0) ∧ dec 0xA0101F85 = .instr (.wait 2 0 63 5) ∧ dec 0xA00002C0 = .instr (.trapi 0 0 5) ∧
    dec 0xA2634002 = .instr (.ldx 12 3 2) := ⟨rfl, rfl, rfl, rfl, rfl, rfl, rfl, rfl, rfl⟩

theorem test_words_vector : dec 0xA4110C00 = .instr (.fadd (vf 1 2 3 0)) ∧
    dec 0xA6219024 = .instr (.fmah { vf 2 3 4 0 with src := .bank }) ∧ dec 0xAC23F000 = .instr (.fmahImm 2 0x3F000) ∧
    decode (wordParcels 0xA6218044 ++ litParcels 0x3DCCCCCD) = .instr (.fmahLit 2 3 0 0 0x3DCCCCCD) ∧
    dec 0xAA73F800 = .instr (.vmovImm 7 0x3F800) ∧ dec 0xAE221482 = .instr (.fcmp (vf 2 4 5 1) 2) ∧
    dec 0xB0649818 = .instr (.vdq4 (vf 6 9 6 0)) ∧ dec 0xB6040180 = .instr (.fsum (vf 0 8 0 3)) :=
  ⟨rfl, rfl, rfl, rfl, rfl, rfl, rfl, rfl⟩

theorem test_words_memory : decode [0x2288#16] = .instr (.ldD16 5 1 0) ∧ dec 0xBC282C00 = .instr (.ld 5 1 3 0 0) ∧
    dec 0xC048C8C3 = .instr (.st 9 6 2 3 3) ∧ dec 0xC2404CC2 = .instr (.ldw 8 2 3 3 2) ∧ dec 0xC6411C01 = .instr (.vgather (vf 4 2 7 0) 1) ∧
    dec 0xC8286200 = .instr (.wmerge 5 3 4) ∧ dec 0xCA594C82 = .instr (.amoAdd 11 10 true 2 false) ∧ dec 0xCC282100 = .instr (.dtake 5 1 2) ∧
    dec 0xCE084180 = .instr (.rrot 1 2 3) := ⟨rfl, rfl, rfl, rfl, rfl, rfl, rfl, rfl, rfl⟩

theorem test_words_tasks : dec 0xD000A300 = .instr (.spawn 0 5 6) ∧ dec 0xD0102001 = .instr (.join 2 1 0) ∧ dec 0xD0000002 = .instr (.yield 0 0 0) ∧
    dec 0xD0000003 = .instr (.exit 0 0 0) ∧ dec 0xD2386000 = .instr (.send 7 3 0) ∧ dec 0xD2002002 = .instr (.recv 0 1 0) ∧
    dec 0xD6188000 = .instr (.cancel 3 4 0) ∧ dec 0xD8494000 = .instr (.bbar 9 10 0) ∧ dec 0xDA004000 = .instr (.cwait 0 2 0) ∧
    dec 0xDA188002 = .instr (.hwait 3 4 0) ∧ dec 0xDC00A300 = .instr (.stset 0 5 6) ∧ dec 0xDE412500 = .instr (.pub 8 9 10) :=
  ⟨rfl, rfl, rfl, rfl, rfl, rfl, rfl, rfl, rfl, rfl, rfl, rfl⟩

theorem test_words_engines : dec 0xE03C0000 = .instr (.cq 7 4) ∧ dec 0xE2100000 = .instr (.copy 2 0 false 0) ∧
    dec 0xE22B0049 = .instr (.copyRed 5 3 false 1 2) ∧ dec 0xE6302560 = .instr (.bmm 6 0 9 1 3 0 false) ∧
    dec 0xE8222488 = .instr (.bdr 4 2 9 0 true false 1 false false) ∧ dec 0xEA184080 = .instr (.twait 3 2 1) ∧
    dec 0xEE010000 = .instr (.qfence 0 8 0) := ⟨rfl, rfl, rfl, rfl, rfl, rfl, rfl⟩

/-- The 16-bit forms of R41, bit by bit: op4, then its fields. -/
theorem test_words_short : decode [0b0_0001_0101_1010_000#16] = .instr (.mov16 5 10) ∧ decode [0b0_0010_0100_0110100#16] = .instr (.addi16 4 0x34) ∧
    decode [0b0_0110_0011_1111110#16] = .instr (.bz16 3 0x7E) ∧ decode [0b0_1001_0111_10_00101#16] = .instr (.sar16 7 5) ∧
    decode [0b0_1010_0001_0010_101#16] = .instr (.cmp16 1 2 5) ∧ decode [0b0_1101_00000000000#16] = .instr .nop ∧
    decode [0b0_1111_010_001_1_0_10_0#16] = .instr (.fmt 2 1 true false 2) := ⟨rfl, rfl, rfl, rfl, rfl, rfl, rfl⟩

/-- One word of each other major, from its fields (R46). -/
theorem test_words_fields : dec (rWord 0x02 1 2 3 0x09) = .instr (.max 1 2 3) ∧ dec (rWord 0x03 4 5 6 0x0A) = .instr (.bfi 4 5 6) ∧
    dec (1#1 ++ 0x09#6 ++ 7#6 ++ 0x12345#19) = .instr (.movi 7 0x12345) ∧ dec (1#1 ++ 0x0B#6 ++ 0x1FFFFFF#25) = .instr (.j 0x1FFFFFF) ∧
    dec (rWord 0x0D 8 9 0 0x01) = .instr (.callr 8 9 0) ∧ dec (1#1 ++ 0x0E#6 ++ 1#6 ++ 0#6 ++ 0x012#13) = .instr (.rdctl 1 0 0x012) ∧
    dec (vWord 0x1C 1 2 3 4 0x00) = .instr (.frcp (vf 1 2 3 4)) ∧ dec (rWord 0x2A 1 2 0 0x00) = .instr (.tbset 1 2 0) ∧
    dec (rWord 0x2C 1 2 3 0x02) = .instr (.sigb 1 2 3) ∧ dec (rWord 0x36 1 2 3 0x02) = .instr (.tadopt 1 2 3) ∧
    decode (wordParcels (1#1 ++ 0x04#6 ++ 5#6 ++ 0#6 ++ 0x1000#13) ++ litParcels 0x12340000#32) = .instr (.addiLit32 5 0 0x12340000) :=
  ⟨rfl, rfl, rfl, rfl, rfl, rfl, rfl, rfl, rfl, rfl, rfl⟩

/-- Reserved patterns are refused: majors 0x38 and 0x3F, op4 0x0 and 0xE, an unlisted func (R47, R48). -/
theorem test_words_reserved : dec 0xF0000000 = .illegal ∧ dec 0xFFFFFFFF = .illegal ∧ decode [0#16] = .illegal ∧ decode [0x7000#16] = .illegal ∧
    dec (rWord 0x01 1 2 3 0x06) = .illegal := ⟨rfl, rfl, rfl, rfl, rfl⟩

/-! ### States for the steps and the witnesses -/

/-- Thread 0 runs a task of tenant 0 on bench 0, with page tables for its first 64 KiB; the fuses read PROVISIONED. -/
noncomputable def base : State :=
  let s := State.reset.withFetchWord 0 0
  { s with pkg := { s.pkg with onyx := { s.pkg.onyx with lc := 1, unlockCnt := 0, dbgOpen := false, recovery := false } } }

/-- `base` with thread 0 changed. -/
noncomputable def me (f : Thread → Thread) : State := base.setMe (f base.me)

/-- `base` with general registers of thread 0 set. -/
noncomputable def regs (l : List (Nat × Word)) : State := me fun t => l.foldl (fun t p => t.wg p.1 p.2) t

/-- A state with its package changed. -/
def pk (s : State) (f : Pkg → Pkg) : State := { s with pkg := f s.pkg }

/-- A state with its security core changed. -/
def ox (s : State) (f : Onyx → Onyx) : State := pk s fun p => { p with onyx := f p.onyx }

/-- A state with 8-byte words placed in memory. -/
def words (s : State) (l : List (Nat × Nat)) : State :=
  pk s fun p => { p with mem := l.foldl (fun m x => writeMem m x.1 x.2 8) p.mem }

/-- The next state of an answer, the state itself for anything else. -/
def after (s : State) : Out → State
  | .next t => t
  | .fault _ => s
  | .refused _ => s

/-- Thread 0 after instruction i of state s. -/
noncomputable def run (i : Instr) (s : State) : Thread := (after s (exec i s)).thr 0

/-- v1 with 32-bit lanes given, lane 0 first. -/
def lanesV (l : List Nat) : Vec := vecOf 32 l

/-! ### Small steps: the values are worked out from the rules -/

/-- R82: the sum keeps bits 63:0. -/
theorem test_add_wraps : (run (.add 3 1 2) (regs [(1, 0xFFFFFFFFFFFFFFFF), (2, 2)])).rg 3 = 1 := by decide +kernel
/-- R82, R23: g0 ignores the write; the pc moves on by 4. -/
theorem test_g0_ignores : (run (.add 0 1 1) (regs [(1, 5)])).rg 0 = 0 ∧ (run (.add 0 1 1) (regs [(1, 5)])).pc = 4 := by decide +kernel
/-- R82: a shift by 64 is a shift by 0. -/
theorem test_shl_by_64 : (run (.shl 3 1 2) (regs [(1, 5), (2, 64)])).rg 3 = 5 := by decide +kernel
/-- R82: the 32-bit sum is sign-extended. -/
theorem test_addW : (run (.addW 3 1 2) (regs [(1, 0x7FFFFFFF), (2, 1)])).rg 3 = 0xFFFFFFFF80000000 := by decide +kernel
/-- R85, the table: -7 ÷ 2 = -3, remainder -1; 100 ÷ 0 = all ones; the signed overflow. -/
theorem test_div : (run (.div 3 1 2) (regs [(1, 0xFFFFFFFFFFFFFFF9), (2, 2)])).rg 3 = 0xFFFFFFFFFFFFFFFD ∧
    (run (.rem 3 1 2) (regs [(1, 0xFFFFFFFFFFFFFFF9), (2, 2)])).rg 3 = 0xFFFFFFFFFFFFFFFF ∧
    (run (.div 3 1 2) (regs [(1, 100)])).rg 3 = 0xFFFFFFFFFFFFFFFF ∧
    (run (.div 3 1 2) (regs [(1, 0x8000000000000000), (2, 0xFFFFFFFFFFFFFFFF)])).rg 3 = 0x8000000000000000 := by decide +kernel
/-- R85, the table: divu.w 0xFFFFFFFE by 1, and mul.s 2^62 by 4. -/
theorem test_divuW : (run (.divuW 3 1 2) (regs [(1, 0xFFFFFFFE), (2, 1)])).rg 3 = 0xFFFFFFFFFFFFFFFE ∧
    (run (.mulS 3 1 2) (regs [(1, 0x4000000000000000), (2, 4)])).rg 3 = 0x7FFFFFFFFFFFFFFF := by decide +kernel
/-- R86: cc 2 is signed less, cc 4 unsigned less. -/
theorem test_cmp_signs : (run (.cmp 3 1 2 2) (regs [(1, 0xFFFFFFFFFFFFFFFF), (2, 1)])).rg 3 = 1 ∧
    (run (.cmp 3 1 2 4) (regs [(1, 0xFFFFFFFFFFFFFFFF), (2, 1)])).rg 3 = 0 := by decide +kernel
/-- R36, R83: the immediate of 13 bits is signed; the two escapes take literals. -/
theorem test_addi : (run (.addi 3 1 0x1FFF) (regs [(1, 5)])).rg 3 = 4 ∧ (run (.addiLit64 3 1 0x100000000) (regs [(1, 5)])).rg 3 = 0x100000005 ∧
    (run (.addiLit64 3 1 0x100000000) (regs [(1, 5)])).pc = 12 := by decide +kernel
/-- R89: bz taken by -4 parcels, and not taken. -/
theorem test_bz : (run (.bz 1 0xFFFC) (regs [])).pc = 0xFFFFFFFFFFFFFFF8 ∧ (run (.bz 1 0xFFFC) (regs [(1, 1)])).pc = 4 := by decide +kernel
/-- R91: call leaves the next address in g63. -/
theorem test_call : (run (.call 0x100) base).rg 63 = 4 ∧ (run (.call 0x100) base).pc = 0x200 := by decide +kernel
/-- R91: jr to an odd address traps ALIGN, code 0x03, with the address. -/
theorem test_jr_odd : (run (.jr 0 1 0) (regs [(1, 7)])).cause = 3 ∧ (run (.jr 0 1 0) (regs [(1, 7)])).tval = 7 := by decide +kernel
/-- R346: a trap sets S, saves the status and the stack pointer, and goes to ctl.tvec. -/
theorem test_trap_entry : let t := run (.trapi 0 0 5) (me fun t => { t with tvec := 0x4000, tstat := 0x80, tstk := 0x99, g := [(63, 7)] })
    t.pc = 0x4000 ∧ t.tstat = 0x100080 ∧ t.tsave = 0x80 ∧ t.tsg = 7 ∧ t.rg 63 = 0x99 ∧ t.tf = true ∧ t.epc = 4 := by decide +kernel
/-- R349: a second trap before ctl.cause is read parks the thread. -/
theorem test_double_fault : (run (.trapi 0 0 5) (me fun t => { t with tf := true })).park = some .doubleFault := by decide +kernel
/-- R50: user mode traps PRIV at `tret`. -/
theorem test_tret_user : (run (.tret 0 0 0) base).cause = 2 := by decide +kernel
/-- R348: `tret` gives back status, progress and PC. -/
theorem test_tret : let t := run (.tret 0 0 0) (me fun t => { t with tstat := 0x100000, tsave := 0xC00083, epc := 0x200, tf := true })
    t.pc = 0x200 ∧ t.tstat = 0x83 ∧ t.prog = 3 ∧ t.tf = false := by decide +kernel
/-- R346: reading ctl.cause clears TF. -/
theorem test_rdctl_cause : let t := run (.rdctl 3 0 0x011) (me fun t => { t with tstat := 0x100000, cause := 0x0D, tf := true })
    t.rg 3 = 0x0D ∧ t.tf = false := by decide +kernel
/-- R43, R44: fmt makes a prefix pending; an instruction that takes none drops it with WARN. -/
theorem test_fmt : (run (.fmt 1 2 false true 3) base).pp = true ∧
    (run (.add 3 1 2) (after base (exec (.fmt 1 2 false true 3) base))).tstat = 0x80 := by decide +kernel
/-- R107: 1.5 + 0.25 = 1.75 in each lane that the mask has; lane 1 keeps its bits. -/
theorem test_fadd : let t := run (.fadd (vf 3 1 2 1)) (me fun t => { t with
      v := [(1, lanesV [0x3FC00000, 0x3FC00000]), (2, lanesV [0x3E800000, 0x3E800000]), (3, lanesV [7, 9])], k := [(1, 1)] })
    elem 32 (t.rv 3) 0 = 0x3FE00000 ∧ elem 32 (t.rv 3) 1 = 9 ∧ t.tstat = 0 := by decide +kernel
/-- R61: the sum of opposite infinities is the default NaN with NV. -/
theorem test_fadd_nan : let t := run (.fadd (vf 3 1 2 0)) (me fun t => { t with v := [(1, lanesV [0x7F800000]), (2, lanesV [0xFF800000])] })
    elem 32 (t.rv 3) 0 = 0x7FC00000 ∧ t.tstat = 0x40 := by decide +kernel
/-- R62: fused: 2^24 × 1 + 1 rounds to even, with NX. -/
theorem test_fmac : let t := run (.fmac (vf 3 1 2 0)) (me fun t => { t with
      v := [(1, lanesV [0x4B800000]), (2, lanesV [0x3F800000]), (3, lanesV [0x3F800000])] })
    elem 32 (t.rv 3) 0 = 0x4B800000 ∧ t.tstat = 0x4 := by decide +kernel
/-- R108: 1 ÷ 0 is infinity with DZ. -/
theorem test_fdiv : let t := run (.fdiv (vf 3 1 2 1)) (me fun t => { t with v := [(1, lanesV [0x3F800000])], k := [(1, 1)] })
    elem 32 (t.rv 3) 0 = 0x7F800000 ∧ t.tstat = 0x20 := by decide +kernel
/-- R117: 2.5 to an integer rounds to even. -/
theorem test_fcvt : elem 32 ((run (.fcvtI32F32 (vf 3 1 0 0)) (me fun t => { t with v := [(1, lanesV [0x40200000])] })).rv 3) 0 = 2 := by decide +kernel
/-- R122: vadd wraps, and a zip takes lanes in turn. -/
theorem test_vadd : elem 32 ((run (.vadd (vf 3 1 2 0)) (me fun t => { t with v := [(1, lanesV [0xFFFFFFFF]), (2, lanesV [2])] })).rv 3) 0 = 1 ∧
    elem 32 ((run (.vzipLo (vf 3 1 2 0)) (me fun t => { t with v := [(1, lanesV [1, 2]), (2, lanesV [8, 9])] })).rv 3) 3 = 9 := by decide +kernel
/-- R115: a compare writes the mask; inactive lanes are 0. -/
theorem test_icmp : (run (.icmp (vf 3 1 2 1) 0) (me fun t => { t with k := [(1, 0x5)] })).rk 3 = 5 := by decide +kernel
/-- R125: the tree sum of 1, 2, 3, 4. -/
theorem test_fsum : elem 32 ((run (.fsum (vf 3 1 0 1)) (me fun t => { t with
      v := [(1, lanesV [0x3F800000, 0x40000000, 0x40400000, 0x40800000])], k := [(1, 0xF)] })).rv 3) 0 = 0x41200000 := by decide +kernel
/-- R146: of two entries of one home the later number stays; an epoch absorbs a witness. -/
theorem test_wmerge : mergeWit 9 (witOf 3 5) (witOf 3 7) = (witOf 3 7, false) ∧ mergeWit 9 (epochWit 4) (witOf 3 5) = (epochWit 9, true) := by decide +kernel
/-- R132: a store leaves its thread with OS 1; performed at its home it stands in memory. -/
theorem test_store : let s := regs [(1, 0x7F0000000100), (2, 0x1122334455667788)]
    let u := after s (exec (.st 2 1 3 0 0) s)
    u.me.os = 1 ∧ (after u (exec (.accessAtHome 0 []) u)).pkg.mem.get 0 0x7F0000000101 = 0x77 := by decide +kernel
/-- R133: a misaligned load traps ALIGN. -/
theorem test_load_align : (run (.ld 2 1 3 0 0) (regs [(1, 0x7F0000000101)])).cause = 3 := by decide +kernel
/-- R26, R131: a load outside the windows of another bench's shelf traps SHELF_PERM with the byte. -/
theorem test_load_shelf_perm : let t := run (.ld 2 1 3 0 0) (regs [(1, 0x7F0000400000)])
    t.cause = 6 ∧ t.tval = 0x7F0000400000 := by decide +kernel
/-- R176: rgen of core 0 is its RGEN. -/
theorem test_rgen : (run (.rgen 3 1 0) (pk base fun p => p.onCore 0 fun c => { c with rgen := 0x1234 })).rg 3 = 0x1234 := by decide +kernel
/-- R180: tsmin lowers TS, and never raises it. -/
theorem test_tsmin : (run (.tsmin 0 1 0) (me fun t => { t with ts := 9, g := [(1, 4)] })).ts = 4 ∧
    (run (.tsmin 0 1 0) (me fun t => { t with ts := 3, g := [(1, 4)] })).ts = 3 := by decide +kernel
/-- R161: spawn takes the lowest free slot; the child is the newest of the deque. -/
theorem test_spawn : let s := regs [(5, 0x100)]
    let u := after s (exec (.spawn 0 5 6) s)
    (u.pkg.core 0).hwDeque = [0x7F0000004000] ∧ (u.pkg.record 0x7F0000004000).resume = 0x100 := by decide +kernel
/-- R164: exit frees the thread. -/
theorem test_exit : (run (.exit 0 0 0) base).task = none := by decide +kernel
/-- R191: a push of a fence-free copy gets slot 0 at generation 1. -/
theorem test_push : let t := run (.copy 2 0 false 0) base
    bits (t.rg 2) 24 16 = 1 ∧ bits (t.rg 2) 0 12 = 0 ∧ t.oc = 1 := by decide +kernel
/-- R184: a token of generation 0 is malformed: cause 0x0C, reason 4. -/
theorem test_token_malformed : (run (.tpoll 3 1 0) base).cause = 0x40C := by decide +kernel
/-- R233: an offset beyond 10 µs steps T, here by 20 µs, 160,000 eighths of a nanosecond. -/
theorem test_time_step : (after base (exec (.timeCorrection 20000) base)).time = 160000 := by decide +kernel
/-- R256: CRC-32 of the ASCII digits 1 to 9 is the published check value. -/
theorem test_crc32 : crc32 [0x31, 0x32, 0x33, 0x34, 0x35, 0x36, 0x37, 0x38, 0x39] = 0xCBF43926 := by decide +kernel

/-! ### States that meet the hypotheses of the statements, clause by clause -/

/-- No register of a thread waits for a write where nothing is in flight. -/
theorem base_ready (rs : List Reg) : base.ready rs := by
  have h : base.me.busy = [] := rfl
  simp [State.ready, Thread.isBusy, h]

/-- The same of a state whose running thread is `base`'s with other fields. -/
theorem ready_of (s : State) (h : s.me.busy = []) (rs : List Reg) : s.ready rs := by
  simp [State.ready, Thread.isBusy, h]

/-- A trap can be taken where no register is held and no trap stands. -/
theorem canTrap_of (s : State) (h : s.me.busy = []) (h' : s.me.tf = false) : s.canTrap s.cur :=
  ⟨ready_of s h [.g 63], h'⟩

/-- `base` in supervisor mode. -/
noncomputable def sup : State := me fun t => { t with tstat := 0x100000 }

theorem wit_ScalarArithmetic : base.ready [.g 63, .g 63, .g 0] ∧ base.ready [.g 0, .g 63] ∧ base.ready [.g 0] :=
  ⟨base_ready _, base_ready _, base_ready _⟩
theorem wit_MultiplyDivide : base.ready [.g 63, .g 0, .g 63] := base_ready _
theorem wit_CompareAndBits : base.ready [.g 63, .g 0] ∧ base.ready [.g 63, .g 0, .g 1] := ⟨base_ready _, base_ready _⟩
/-- The limits met exactly, one passed by one, and a thread with no store on its way. -/
theorem wit_ShortFormsAndWaits : base.ready [.g 15, .g 0] ∧ (base.me.ol ≤ 0 ∧ base.me.os ≤ 0 ∧ base.me.oc ≤ 0 ∧ base.me.ot ≤ 0) ∧
    ¬(me fun t => { t with ol := 64 }).me.ol ≤ 63 ∧ base.ready [.g 0, .x 7] ∧ base.storesOut base.cur = false :=
  ⟨base_ready _, by decide +kernel, by decide +kernel, base_ready _, by decide +kernel⟩
theorem wit_ControlFlow : let s := regs [(1, 7)]
    s.ready [.g 1, .g 63] ∧ (s.me.rg 0).getLsbD 0 = false ∧ (s.me.rg 1).getLsbD 0 = true :=
  ⟨ready_of _ rfl _, by decide +kernel, by decide +kernel⟩
theorem wit_TakingATrap : base.canTrap 0 ∧ let s := me fun t => { t with tf := true }
    (s.thr 0).isBusy [.g 63] = false ∧ (s.thr 0).tf = true := ⟨canTrap_of base rfl rfl, by decide +kernel⟩
/-- An idle thread whose limit is this tick, and one with an interrupt pending. -/
theorem wit_SystemTrapsAndIdle : base.canTrap base.cur ∧ (base.onyx.dbgOpen && base.onyx.haltOnBrk) = false ∧
    (let s := ox base fun o => { o with dbgOpen := true, haltOnBrk := true }
     s.canTrap s.cur ∧ (s.onyx.dbgOpen && s.onyx.haltOnBrk) = true) ∧
    (sup.me.sup = true ∧ sup.ready [.g 1, .g 2] ∧ sup.replaying = false ∧ sup.me.irqNow = false ∧ sup.me.stall = none) ∧
    (let s := me fun t => { t with tstat := 0x100000, stall := some (.idle (some 0) 2 false) }
     s.me.irqNow = false ∧ s.me.stall = some (.idle (some 0) 2 false) ∧ 0 ≤ s.tick) ∧
    (let s := me fun t => { t with tstat := 0x100000, irq := some 5 }
     s.me.sup = true ∧ s.me.irqNow = true ∧ s.me.irq = some 5 ∧ s.canTrap s.cur) ∧
    (let s := me fun t => { t with tstat := 0x100000, irq := some 5, busy := [.g 63] }
     s.me.sup = true ∧ s.ready [.g 1, .g 2] ∧ s.replaying = false ∧ s.me.irqNow = true ∧ s.me.isBusy [.g 63] = true) :=
  ⟨canTrap_of base rfl rfl, by decide +kernel, ⟨canTrap_of _ rfl rfl, by decide +kernel⟩,
    ⟨by decide +kernel, ready_of _ rfl _, by decide +kernel, by decide +kernel, by decide +kernel⟩, by decide +kernel,
    ⟨by decide +kernel, by decide +kernel, by decide +kernel, canTrap_of _ rfl rfl⟩,
    by decide +kernel, by unfold State.ready; decide +kernel, by decide +kernel, by decide +kernel, by decide +kernel⟩
theorem wit_ReturnAndPrivilege : (sup.me.sup = true ∧ sup.me.epc.getLsbD 0 = false) ∧
    (let s := me fun t => { t with tstat := 0x100000, epc := 1 }
     s.canTrap s.cur ∧ s.me.sup = true ∧ s.me.epc.getLsbD 0 = true) ∧
    (base.canTrap base.cur ∧ base.me.sup = false ∧ assignedCtl (isSteward base.cur) 6 = true ∧ assignedCtl (isSteward base.cur) 0x3FF = false) :=
  ⟨by decide +kernel, ⟨canTrap_of _ rfl rfl, by decide +kernel⟩, canTrap_of base rfl rfl, by decide +kernel⟩
theorem wit_ReadControl : base.ready [.g 63] ∧ (2 < 6) ∧ (0x002, word base.me.cls) ∈ [(0x002, word base.me.cls)] ∧
    sup.ready [.g 0] ∧ sup.me.sup = true := ⟨base_ready _, by decide, by simp, ready_of _ rfl _, by decide +kernel⟩
theorem wit_WriteControl : sup.ready [.g 63, .g 0] ∧ sup.me.sup = true ∧ base.ready [.g 1, .g 2] ∧ (1 ≤ (5 : BitVec 10).toNat ∧ (5 : BitVec 10).toNat ≤ 5) :=
  ⟨ready_of _ rfl _, by decide +kernel, base_ready _, by decide⟩
theorem wit_FlagSummary : 2047 < 2048 ∧ ({ base.me with tstat := 0x40 }.tstat &&& ~~~(base.thr 0).tstat).toNat / 4 % 64 = 16 := by decide +kernel

/-- FPTE set, with infinities of both signs in v1 and v2. -/
noncomputable def fpte : State := me fun t => { t with tstat := 0x200000, v := [(1, lanesV [0x7F800000]), (2, lanesV [0xFF800000])] }

theorem wit_Float32 : let fl := fun (s : State) => lanes.map fun j => (f32.addBits s.me.rm (elem 32 (s.me.rv 1) j) (elem 32 (s.me.rv 2) j)).2
    base.ready [.v 31, .v 1, .k 7, .v 2] ∧ base.me.fpTraps (fl base) = false ∧ fpte.me.fpTraps (fl fpte) = true ∧ fpte.canTrap fpte.cur :=
  ⟨base_ready _, by decide +kernel, by decide +kernel, canTrap_of _ rfl rfl⟩
/-- The last group but one of a division, with a stop due; and groups 0 and 3 that trap or complete. -/
theorem wit_Float16AndLong : let s := me fun t => { t with prog := 2, irq := some 5 }
    base.ready [.v 1, .v 2, .k 0, .v 3] ∧ base.me.fpTraps (lanes.map fun _ => 0) = false ∧
    (base.me.stopDueNow = false ∧ base.lastPart = none ∧ { base with upTo := some 0 }.lastPart = some 0) ∧
    (s.me.fpTraps (lanes.map fun _ => 0) = false ∧ s.me.stopDueNow = true ∧ s.me.prog.toNat % 4 < 3) ∧
    (fpte.me.fpTraps (lanes.map fun j => if j / 4 = 0 then (f32.div fpte.me.rm (f32.value (elem 32 (fpte.me.rv 1) j)) (f32.value (elem 32 (fpte.me.rv 2) j))).2 else 0) = true ∧
      fpte.canTrap fpte.cur) :=
  ⟨base_ready _, by decide +kernel, by decide +kernel, by decide +kernel, ⟨by decide +kernel, canTrap_of _ rfl rfl⟩⟩
theorem wit_Conversions : let fl := fun (s : State) => lanes.map fun j => (toInt 0 (-(2 ^ 31)) (2 ^ 31 - 1) (f32.value (elem 32 (s.me.rv 1) j))).2
    base.ready [.v 1, .v 2, .k 0] ∧ base.me.fpTraps (fl base) = false ∧ fpte.me.fpTraps (fl fpte) = true ∧ fpte.canTrap fpte.cur :=
  ⟨base_ready _, by decide +kernel, by decide +kernel, canTrap_of _ rfl rfl⟩
theorem wit_Quantize : let vals := fun (s : State) => (lanes.map fun j => f32.value (elem 32 (s.me.rv 1) j)) ++ lanes.map fun j => f32.value (elem 32 (s.me.rv 2) j)
    let fl := fun (s : State) => lanes.map fun j => (((vals s).map (q4Encode 0)).getD j (0, 0)).2 ||| (((vals s).map (q4Encode 0)).getD (16 + j) (0, 0)).2
    base.ready [.v 3, .v 1, .x 0, .v 2] ∧ base.ready [.x 0, .v 3, .v 1, .k 7] ∧ base.me.fpTraps (fl base) = false ∧
    fpte.me.fpTraps (fl fpte) = true ∧ fpte.canTrap fpte.cur :=
  ⟨base_ready _, base_ready _, by decide +kernel, by decide +kernel, canTrap_of _ rfl rfl⟩
theorem wit_IntegerVectorAndReductions : let fl := fun (s : State) => [(f32.addBits s.me.rm (elem 32 (s.me.rv 1) 0) (elem 32 (s.me.rv 2) 0)).2]
    base.ready [.v 31, .v 0, .k 7, .v 2] ∧ base.me.fpTraps (fl base) = false ∧ fpte.me.fpTraps (fl fpte) = true ∧ fpte.canTrap fpte.cur :=
  ⟨base_ready _, by decide +kernel, by decide +kernel, canTrap_of _ rfl rfl⟩
theorem wit_MasksAndMoves : let q := me fun t => { t with tstat := 0x200000, v := [(1, lanesV [0x7F800001])] }
    let fl := fun (s : State) => lanes.map fun j => (fcompare 2 (elem 32 (s.me.rv 1) j) (elem 32 (s.me.rv 2) j)).2
    base.ready [.k 7, .v 1, .k 0, .v 2] ∧ base.ready [.g 0, .v 31] ∧ (vf 1 2 15 0).b.toNat < 16 ∧
    base.me.fpTraps (fl base) = false ∧ q.me.fpTraps (fl q) = true ∧ q.canTrap q.cur :=
  ⟨base_ready _, base_ready _, by decide, by decide +kernel, by decide +kernel, canTrap_of _ rfl rfl⟩
theorem wit_RoundingAndNan : (bf16 ∈ [f32, f16, bf16] ∧ 0xFF80 < 2 ^ (bf16.ebits + bf16.fbits + 1) ∧ (bf16.value 0xFF80).isNan = false) ∧
    (3 < 4 ∧ f32.value 0x3F800000 = .fin false (2 ^ 23) (-23) ∧ (2 : Nat) ^ 23 ≠ 0 ∧ signed false (2 ^ 23) + signed false (2 ^ 23) ≠ 0) ∧
    (0xFFFFFFFF < 2 ^ 32 ∧ (f32.value 0xFFFFFFFF).isNan = true ∧ f32.value 0 = .fin false 0 (-149)) := by decide +kernel
theorem wit_RoundTrip : WellFormed (.addiLit64 63 63 0x100000000) := by decide +kernel

/-- The state that a fetch leaves. -/
noncomputable def fetchedFrom (s : State) : State := after s (s.fetch fun u _ => .next u)

theorem wit_fetch : base.fetches [0] (fetchedFrom base) := fun _ => rfl

theorem wit_DecodeExactAndReserved : decode [0x1234] = .instr (.addi16 4 0x34) ∧ (0xF0000000#32).getLsbD 31 = true ∧
    0x38 ≤ ((0xF0000000#32).extractLsb' 25 6).toNat ∧ (((0 : Parcel).extractLsb' 11 4).toNat = 0 ∧ (0 : Parcel).getLsbD 15 = false) ∧
    ((0x7000 : Parcel).extractLsb' 11 4).toNat = 14 ∧
    decode [0] = .illegal ∧ base.me.cbNeed = false ∧ (fetchedFrom base).cur = base.cur ∧ (fetchedFrom base).canTrap (fetchedFrom base).cur :=
  ⟨by decide +kernel, by decide +kernel, by decide +kernel, by decide +kernel, by decide +kernel, by decide +kernel, by decide +kernel, by decide +kernel,
    canTrap_of _ rfl rfl⟩

/-! ### The machine as a whole, control registers, accesses -/

/-- A turn of thread 0 in `base`, and an event. -/
theorem wit_StepRunsDecoded : let e : Instr := .hostDoorbell 0 0
    (base.agenda = [.thread 0] ∧ base.stopped = false ∧ base.onyx.recovery = false ∧ (base.turned []).restoring = false) ∧
    ({ base with agenda := [.part 0 1] }.agenda = [.part 0 1] ∧
      ({ base.turned [] with upTo := some 1 }.as 0).fetches [0] (fetchedFrom ({ base.turned [] with upTo := some 1 }.as 0))) ∧
    ({ base with agenda := [.event e] }.agenda = [.event e] ∧ e.isEvent = true ∧ isHostWrite e = true ∧ isHostWrite (.timeCorrection 0) = false ∧
      (base.turned []).pair.recov = false ∧ (base.turned []).replaying = false ∧ ∃ u, exec e (base.turned []) = .next u) ∧
    { base with stopped := true }.stopped = true ∧
    (base.turned []).free2run 0 ∧ ((base.turned []).as 0).fetches [0] (fetchedFrom ((base.turned []).as 0)) ∧ decode [0x1234] = .instr (.addi16 4 0x34) ∧
    (∃ u, base.fetched base.me.pc 0 u) ∧ literalWords (0x810C#16 ++ 0x5180#16) = 0 ∧
    (∃ leaf, base.view base.cur base.me.sup .fetch 0 = .ok 0x10000 leaf) ∧
    (base.pkg.pageMoves (base.tenantOf base.cur) 0 2 = false ∧ (0x10000 / 64) ∉ base.pkg.errLines ∧ base.me.watch .fetch 0 2 = none ∧ isForeign 0x10000 = false ∧ isForeign 0x10001 = false ∧ base.pkg.hist = []) ∧
    Instr.isEvent (.timeCorrection 0) = true :=
  ⟨by decide +kernel, ⟨rfl, fun _ => rfl⟩, ⟨rfl, rfl, rfl, rfl, by decide +kernel, by decide +kernel, _, rfl⟩, rfl,
    ⟨rfl, .inr ⟨rfl, by decide +kernel⟩, rfl, by decide +kernel, by decide +kernel, rfl⟩, fun _ => rfl, by decide +kernel,
    ⟨_, fun _ => rfl⟩, by decide +kernel, ⟨_, rfl⟩, by decide +kernel, by decide +kernel⟩
theorem wit_StepKeepsMemory : Machine.Inv base ∧ ∃ t, step base = .next t := ⟨⟨by decide +kernel, by decide +kernel, fun _ h => nomatch h⟩, ⟨_, rfl⟩⟩
theorem wit_MemoryBytes : (0xFFF < 0x1000 ∨ 0x1000 + 8 ≤ 0xFFF) ∧ (0x1007 < 0x1000 ∨ 0x1000 + 7 ≤ 0x1007) ∧ Memory.wf (writeMem [] 0x1000 1 8) := by
  decide +kernel

/-- The hub with class 0 enabled and running in cycle c, of period 1 (31.25 µs, 250,000 eighths of a nanosecond), at a time. -/
noncomputable def clocked (c : Word) (time : Nat) (f : Pkg → Pkg := id) : State :=
  { pk State.reset (fun p => f { p with classes := [(0, { Class.init with per := 0x8001000000000000, pub := word (1000 * 2 ^ 30 + 1000), started := true, cyc := c })] }) with
    time := time }

/-- A supervisor on a tenant that owns class 7 and the L2 lock. -/
noncomputable def owner (f : Thread → Thread) : State :=
  pk (me fun t => f { t with tstat := 0x100000 }) fun p => { p with descs := p.descs.set none 0 (some { placedTenant with clown := 0x80, l2own := true }) }

/-- The hypotheses at each register's edges: a running class, a locked lock, a window that fits exactly, and one too far. -/
theorem wit_PackageControl : let s := owner id
    (s.replaying = false ∧ (∀ m, m < 4 → s.pkg.occupied (coreOf s.cur) m ≤ 16) ∧ s.pkg.liveBeryl (benchOf s.cur) < 128) ∧
    (s.synced = false ∧ { s with sync := true, synced := true }.synced = true ∧ (s.pkg.cls 7).en = false ∧ ((clocked 0 0).pkg.cls 0).en = true) ∧
    (s.pkg.bench (benchOf s.cur)).tbuf = [] ∧ (s.ready [.g 1, .g 2] ∧ s.me.sup = true) ∧ (s.privCtl 0x13F true = false ∧ s.privCtl 0x160 true = false ∧ s.privCtl 0x105 true = false) ∧
    (let st := { s with cur := 2048, threads := s.threads.set Thread.init 2048 { s.me with task := none } }
     st.privCtl 0x140 true = false ∧ st.privCtl 0x1A0 true = false ∧ st.me.sup = true) ∧
    (3 * 10 ≤ 30 ∧ ¬3 * 10 ≤ 29) ∧
    (let v : Word := 0x8C00000000000000#64 ||| word (0x1E0 - 48 <<< 21)
     1 ≤ bits v 56 4 ∧ bits v 56 4 ≤ 12 ∧ bits v 21 25 * 2 ^ 21 + bits v 56 4 * 2 ^ 23 ≤ 0x3C00000000) ∧
    (let v : Word := 0x8001000000000000#64
     1 ≤ bits v 48 15 ∧ bits v 0 30 < bits v 48 15 * 31250 ∧ (let c : Word := word (1000 * 2 ^ 30 + 1000); bits c 0 30 < bits v 48 15 * 31250 ∧ 1000 ≤ bits c 30 30 ∧ bits c 30 30 ≤ bits c 0 30)) :=
  ⟨by decide +kernel, by decide +kernel, by decide +kernel, ⟨ready_of _ rfl _, by decide +kernel⟩, by decide +kernel, by decide +kernel, by decide,
    by decide +kernel, by decide +kernel⟩

/-- g1 points into the own shelf, g2 at another bench's, g3 at an odd address; w1 is an epoch to come, w2 is malformed. -/
noncomputable def mem (f : Thread → Thread := id) : State := me fun t => f { t with
  g := [(1, 0x7F0000000100), (2, 0x7F0000400000), (3, 0x7F0000000101)], w := [(1, epochWit 5), (2, allOnes)], ol := 62, os := 62 }

/-- The piece of the own shelf that g1 names. -/
def here (n : Nat) : Piece := ⟨0x7F0000000100, n, 0⟩

theorem wit_LoadsAndStores : let s := mem
    (s.ready [.g 1, .g 5, .w 1] ∧ s.me.ol ≠ 63 ∧ s.me.os ≠ 63 ∧ s.canTrap s.cur) ∧
    (validWit (s.me.rw 1) = true ∧ validWit (s.me.rw 2) = false) ∧
    s.passes .load (s.me.rg 1) 8 8 [here 8] (s.useLeaves .load []) ∧ s.passes .load (s.me.rg 1) 64 4 [here 64] (s.useLeaves .load []) ∧
    s.passes .store (s.me.rg 1) 8 8 [here 8] (s.useLeaves .store []) ∧
    ((s.me.rg 3).toNat % 8 ≠ 0 ∧ (s.me.rg 2).toNat % 8 = 0) ∧
    (s.me.watch .load (s.me.rg 1) 8 = none ∧ s.pkg.pageMoves (s.tenantOf s.cur) (s.me.rg 1) 8 = false ∧
      s.view s.cur s.me.sup .load (s.me.rg 1) = .ok 0x7F0000000100 none ∧ s.view s.cur s.me.sup .store (s.me.rg 1) = .ok 0x7F0000000100 none ∧
      (s.me.rg 1).toNat < imageBase) ∧
    s.fails .load (s.me.rg 2) 8 .shelfPerm (s.me.rg 2) ∧ s.fails .store (s.me.rg 2) 8 .shelfPerm (s.me.rg 2) :=
  ⟨⟨ready_of _ rfl _, by decide +kernel, by decide +kernel, canTrap_of _ rfl rfl⟩, by decide +kernel,
    ⟨by decide +kernel, by decide +kernel, by decide +kernel, [], rfl, rfl⟩, ⟨by decide +kernel, by decide +kernel, by decide +kernel, [], rfl, rfl⟩,
    ⟨by decide +kernel, by decide +kernel, by decide +kernel, [], rfl, rfl⟩, by decide +kernel, by decide +kernel, ⟨by decide +kernel, rfl⟩,
    ⟨by decide +kernel, rfl⟩⟩

/-- `mem` with the tenant's second page at the first address beyond DRAM, a foreign home; g5 points into it. -/
noncomputable def foreign : State := words (mem fun t => { t with g := (5, 0x10000) :: t.g }) [(0x4008, 0x1000000000FF)]

theorem wit_Atomics : let s := mem
    (s.ready [.g 1, .g 5, .w 0, .g 6] ∧ s.me.ol ≠ 63 ∧ s.me.os ≠ 63) ∧
    (s.passes .atomic (s.me.rg 1) 8 8 [here 8] (s.useLeaves .atomic []) ∧ isForeign (here 8).addr = false) ∧
    (s.satisfied (s.nodeV s.cur) (s.me.rw 0) = true ∧ s.satisfied (s.nodeV s.cur) (s.me.rw 1) = false ∧ validWit (s.me.rw 1) = true) ∧
    (∃ l, foreign.passes .atomic (foreign.me.rg 5) 8 8 [⟨0x100000000000, 8, 0⟩] (foreign.useLeaves .atomic l)) ∧
    (isForeign 0x100000000000 = true ∧ (s.me.rg 3).toNat % 4 ≠ 0) ∧ (s.canTrap s.cur ∧ validWit (s.me.rw 2) = false) ∧
    s.fails .atomic (s.me.rg 2) 8 .shelfPerm (s.me.rg 2) ∧ (0 < 8 ∧ 255 < 2 ^ 8) ∧
    (f32.value 0x7F800000 = .inf false ∧ f32.value 0xFF800000 = .inf true ∧ (f32.value 0x7FC00000).isNan = true ∧
      f32.value 0x3F800000 = .fin false (2 ^ 23) (-23) ∧ f32.value 0x80000000 = .fin true 0 (-149) ∧ 0xFFFFFFFF < 2 ^ 32) :=
  ⟨⟨ready_of _ rfl _, by decide +kernel, by decide +kernel⟩, ⟨⟨by decide +kernel, by decide +kernel, by decide +kernel, [], rfl, rfl⟩, by decide +kernel⟩, by decide +kernel,
    ⟨_, by decide +kernel, by decide +kernel, by decide +kernel, _, rfl, rfl⟩, by decide +kernel, ⟨canTrap_of _ rfl rfl, by decide +kernel⟩,
    ⟨by decide +kernel, rfl⟩, by decide, by decide +kernel⟩

/-- Region 0 of tenant 0 begins at g1, is 8 bytes long, of class 0 with limit 1 and stamp 4; the class runs in cycle c. -/
noncomputable def stamped (c : Word) : State :=
  pk (words mem [(regionAddr 0 0, 0x7F0000000100), (regionAddr 0 0 + 8, 2 * 2 ^ 62 + 1 * 2 ^ 32 + 8), (regionAddr 0 0 + 16, 4)])
    fun p => { p with classes := [(0, { Class.init with started := true, cyc := c })] }

/-- The same of a region in the foreign page. -/
noncomputable def stampedAway : State :=
  pk (words foreign [(regionAddr 0 0, 0x10000), (regionAddr 0 0 + 8, 2 * 2 ^ 62 + 1 * 2 ^ 32 + 8), (regionAddr 0 0 + 16, 4)])
    fun p => { p with classes := [(0, { Class.init with started := true, cyc := 5 })] }

/-- The age at the limit, and one beyond it; a span that no region holds. -/
theorem wit_StampLoads : let s := stamped 5
    (s.ready [.g 1, .g 5, .g 6] ∧ s.me.ol ≠ 63 ∧ isSteward s.cur = false ∧ s.replaying = false) ∧
    (s.pkg.regionAt (s.tenantOf s.cur) (s.me.rg 1).toNat 8 = some 0 ∧ s.pkg.stale (s.pkg.region 0 0) = false) ∧
    ((s.me.rg 1).toNat % 8 = 0 ∧ s.pkg.pageMoves (s.tenantOf s.cur) (s.me.rg 1) 8 = false ∧ s.me.watch .load (s.me.rg 1) 8 = none) ∧
    checkParts (s.view s.cur s.me.sup .load) .load (splitLines (s.me.rg 1) 8) = .ok [here 8] [] ∧
    ((here 8).addr / 64 ∉ (s.writeLog ⟨0x03, s.cur, 0, 4⟩).pkg.errLines ∧ isForeign (here 8).addr = false ∧ isForeign 0x100000000000 = true) ∧
    (∀ x lo bs, ((s.writeLog ⟨0x03, s.cur, 0, 4⟩).useLeaves .load []).ownBytes s.cur x lo bs = bs) ∧
    ((stamped 6).pkg.regionAt 0 (s.me.rg 1).toNat 8 = some 0 ∧ (stamped 6).pkg.stale ((stamped 6).pkg.region 0 0) = true ∧
      s.pkg.regionAt 0 (s.me.rg 1).toNat 64 = none ∧ (s.me.rg 1).toNat % 64 = 0) ∧
    checkParts (s.view s.cur s.me.sup .load) .load (splitLines (s.me.rg 1) 64) = .ok [here 64] [] ∧ (stamped 6).canTrap (stamped 6).cur ∧
    (let f := stampedAway
     f.pkg.regionAt (f.tenantOf f.cur) 0x10000 8 = some 0 ∧ f.pkg.stale (f.pkg.region 0 0) = false ∧
       ∃ ls, checkParts (f.view f.cur f.me.sup .load) .load (splitLines 0x10000 8) = .ok [⟨0x100000000000, 8, 0⟩] ls) :=
  ⟨⟨ready_of _ rfl _, by decide +kernel, by decide +kernel, by decide +kernel⟩, by decide +kernel,
    by decide +kernel, rfl, by decide +kernel, fun _ _ _ => rfl, by decide +kernel, rfl, canTrap_of _ rfl rfl, by decide +kernel, by decide +kernel, _, rfl⟩

/-- `mem` with lane 15 alone in k1. -/
noncomputable def lane15 : State := mem fun t => { t with k := [(1, 0x8000)] }

theorem lane15_addr : laneAddr (vf 4 5 2 1) lane15.me 15 = 0x7F0000400000 := by decide +kernel

/-- Lane 15 alone is active, and its address is g1 (permitted), g2 (not permitted) or misaligned; then no lane, and a stop that is due
with a first lane before the last. -/
theorem wit_GatherScatter : let s := lane15
    let f := vf 4 5 1 1
    let g := vf 4 5 2 1
    let js := fun (s : State) => (List.range 16).filter fun j => decide (bits s.me.prog 0 4 ≤ j) && (vf 4 5 1 1).active s.me j
    let idle := mem fun t => { t with k := [(1, 0)] }
    let due := mem fun t => { t with k := [(1, 0x8003)], irq := some 5 }
    (s.ready [.g 1, .v 5, .k 1, .v 4, .w 0] ∧ s.me.ol ≠ 63 ∧ s.me.os ≠ 63 ∧ validWit (s.me.rw 0) = true ∧ s.me.prog = 0 ∧ s.lastPart = none ∧ s.me.stopDueNow = false) ∧
    (js s = [15] ∧ js idle = [] ∧ due.me.stopDueNow = true) ∧
    (bits due.me.prog 0 4 ≤ 0 ∧ f.active due.me 0 = true ∧ ∀ i, i < 15 → f.active s.me i = false) ∧ f.active s.me 15 = true ∧
    ((laneAddr f s.me 15).toNat % 4 = 0 ∧ s.me.watch .load (laneAddr f s.me 15) 4 = none ∧ s.pkg.pageMoves (s.tenantOf s.cur) (laneAddr f s.me 15) 4 = false) ∧
    (s.view s.cur s.me.sup .load (laneAddr f s.me 15) = .ok 0x7F0000000100 none ∧ s.view s.cur s.me.sup .store (laneAddr f s.me 15) = .ok 0x7F0000000100 none ∧
      (laneAddr f s.me 15).toNat < imageBase) ∧
    (s.canTrap s.cur ∧ (laneAddr g s.me 15).toNat % 4 = 0 ∧ (laneAddr (vf 4 5 3 1) s.me 15).toNat % 4 ≠ 0) ∧
    s.fails .load (laneAddr g s.me 15) 4 .shelfPerm 0x7F0000400000 ∧ s.fails .store (laneAddr g s.me 15) 4 .shelfPerm 0x7F0000400000 ∧
    (15 + 1 = 16 ∧ ∀ i, i < 16 → f.active idle.me i = false) := by
  refine ⟨⟨ready_of _ rfl _, by decide +kernel, by decide +kernel, by decide +kernel, by decide +kernel, rfl, by decide +kernel⟩, by decide +kernel, by decide +kernel,
    by decide +kernel, by decide +kernel, by decide +kernel, ⟨canTrap_of _ rfl rfl, by decide +kernel⟩, ?_, ?_, by decide +kernel⟩ <;> simp only [lane15_addr] <;>
    exact ⟨by decide +kernel, rfl⟩

/-- An access of thread 0. -/
def acc (k : AccKind) (todo : List Piece) (wait : Option Word) : Access :=
  ⟨7, 0, k, todo, [], some (.g 5), .sext 8, 1, wait, 0, 0, false, false, none, 0, [], 0, 0, 0⟩

/-- `base` with the access on its way. -/
noncomputable def flying (a : Access) : State := { base with flight := [a] }

/-- A load, an atomic and a store at the last bytes of a shelf's data; a line in error; a witness not satisfied. -/
theorem wit_AccessHome : let p : Piece := ⟨shelfBase + 0x5EFF8, 8, 0⟩
    let a := acc .home [p] none
    let b := acc (.store 1) [p] none
    let c := acc (.atomic 2 1 0) [p] none
    ((flying a).inFlight 7 = some a ∧ a.id = 7 ∧ a.todo = [p] ∧ a.acc = [] ∧ a.replied = false ∧ (flying a).firstAtHome a p = true ∧ isForeign p.addr = false ∧
      p.addr % 64 + p.len ≤ 64 ∧ (p.addr / 64) ∉ (flying a).pkg.errLines ∧ (flying a).latchDue p.addr p.len = false) ∧
    (∀ lo bs, (flying a).ownBytes a.thread 7 lo bs = bs) ∧
    ((flying b).inFlight 7 = some b ∧ (flying b).firstAtHome b p = true ∧ b.wit = 0 ∧ ∀ x ∈ (flying b).flight, ∀ y ∈ x.acc, y.2.1 ≠ homeOf p.addr) ∧
    (flying b).pkg.plainAt p.addr ∧
    ((flying c).inFlight 7 = some c ∧ (flying c).firstAtHome c p = true ∧ (flying c).replaying = false) ∧
    p.addr / 64 ∈ (pk (flying a) fun q => { q with errLines := [p.addr / 64] }).pkg.errLines ∧
    (flying a).satisfied ((flying a).nodeV 0) (epochWit 5) = false ∧
    (let d := { acc (.store 5) [] none with acc := [(p, 0, 7, 1)] }
     (flying d).inFlight 7 = some d ∧ d.acc[0]? = some (p, 0, 7, 1) ∧ 0 < 131072 ∧
       ∀ b ∈ (flying d).flight, ∀ y ∈ b.acc, y.2.1 = 0 → y.2.2.1 = 7) :=
  ⟨by decide +kernel, fun _ _ => rfl, by decide +kernel, .inr (.inl (by decide +kernel)), by decide +kernel, by decide +kernel, by decide +kernel,
    by decide +kernel⟩
theorem wit_Replies : let a := acc .home [] none
    let b := acc (.store 1) [] none
    ((flying a).inFlight 7 = some a ∧ a.id = 7 ∧ a.todo = [] ∧ a.refused = false ∧ a.gs = none ∧ a.dst = some (.g 5) ∧ a.ext = .sext 8) ∧
    ((mergeValid (flying b).pkg.ecur ((flying b).thr 0).fw b.wit).2 = false ∧ b.replied = false ∧ { a with refused := true }.refused = true ∧
      (let c := acc (.atomic 2 1 0) [] none
       (flying c).inFlight 7 = some c ∧ c.todo = [] ∧ c.refused = false ∧ c.dst = some (.g 5) ∧ c.gs = none)) := by
  decide +kernel

/-! ### Order, drawers, barriers, the scan cycle -/

/-- A performed store of w3's home that no home has carried out yet. -/
noncomputable def awaited : State := { mem fun t => { t with w := [(1, epochWit 1), (2, allOnes), (3, witOf 3 7)], os := 0 } with
  flight := [{ acc (.store 1) [] none with acc := [(here 8, 3, 7, 1)] }] }

theorem wit_WitnessesAndMerge : let s := awaited
    (s.replaying = false ∧ s.cur < 2056 ∧ s.pkg.ecur < 2 ^ 48) ∧ s.ready [.w 15, .w 1, .w 2] ∧ s.ready [.g 63, .w 2] ∧ s.canTrap s.cur ∧
    (validWit (s.me.rw 0) = true ∧ validWit (s.me.rw 1) = true ∧ validWit (s.me.rw 2) = false) ∧
    (s.satisfied (s.nodeV s.cur) (s.me.rw 0) = true ∧ s.satisfied (s.nodeV s.cur) (s.me.rw 1) = false ∧ s.satisfied (s.nodeV s.cur) (s.me.rw 3) = false) ∧
    (s.me.os = 0 ∧ mem.me.os ≠ 0) ∧ (∃ l, s.view s.cur s.me.sup .load (s.me.rg 5) = .ok 0x10000 l) ∧ (0x10000 < dramEnd) ∧
    (∃ l, s.view s.cur s.me.sup .load (s.me.rg 1) = .ok 0x7F0000000100 l ∧ dramEnd ≤ 0x7F0000000100) ∧
    s.pkg.pageMoves (s.tenantOf s.cur) (s.me.rg 5) 1 = false ∧
    (emptyWit 0 = true ∧ emptyWit (witOf 644 0xFFFFF) = false ∧ (642 < 643 ∧ 643 < 644 ∧ 644 ≤ 644 ∧ 0xFFFFF < 2 ^ 20) ∧ 2 ^ 48 - 1 < 2 ^ 48) :=
  ⟨by decide +kernel, ready_of _ rfl _, ready_of _ rfl _, canTrap_of _ rfl rfl, by decide +kernel, by decide +kernel, by decide +kernel, ⟨_, rfl⟩, by decide +kernel,
    ⟨_, rfl, by decide +kernel⟩, by decide +kernel, by decide +kernel⟩

/-- Drawer 0 of core 0: enabled, two slots of 64 bytes at offset 0, with the counters given; g1 holds its descriptor's address. -/
noncomputable def drawer (dctl dstate : Nat) : State :=
  words (me fun t => { t with g := [(1, 0x7F000005F000), (2, 0x7F000005F001), (3, 0x7F000005EFC0)], w := [(2, allOnes)] })
    [(0x7F000005F000, dctl), (0x7F000005F010, dstate)]

theorem maySuspend_of (s : State) {k : Task} (h : s.replaying = false) (h1 : s.mayPass = none) (h2 : s.me.task = some k)
    (h3 : s.pkg.genAt (benchOf s.cur) k.tenant k.job = some k.gen) (h4 : s.flight = []) : s.maySuspend k :=
  ⟨h, h1, by simp [h4], h2, h3⟩

/-- The task of `base` may pass a suspension point. -/
theorem maySuspend_base : base.maySuspend placedTask := maySuspend_of _ rfl rfl rfl (by decide +kernel) rfl

/-- A request of thread 0 for drawer 0, on its way. -/
def ask (func : Nat) : DrawerAsk := ⟨9, 0, func, 0x7F000005F000, 5, 2, 0⟩

/-- One slot filled, taken, free or claimed at a time; a `dtake` whose drawer was found empty; a request of each kind at the shelf. -/
theorem wit_DrawerOperations : let s := fun (d : Nat) => drawer 0x80010001 d
    ((s 0).replaying = false ∧ (s 0).ready [.g 5, .g 1, .w 2] ∧ (s 0).canTrap (s 0).cur ∧ (s 0).me.stall = none) ∧
    ((s 0).atDesc ((s 0).me.rg 1) ∧ ((s 0).pkg.drawer 0x7F000005F000).filled = 0 ∧ ((s 0).pkg.drawer 0x7F000005F000).free = 0 ∧
      ((s 0).pkg.drawer 0x7F000005F000).taken = 0 ∧ ((s 0).pkg.drawer 0x7F000005F000).claimed = 0) ∧
    (let u := (s 0).setMe { (s 0).me with stall := some .drawer }
     u.me.stall = some .drawer ∧ u.maySuspend placedTask ∧ ((u.parked placedTask u.me.pc 3 (keyOfDrawer 0x7F000005F000) u.pkg).drawer 0x7F000005F000).en = true ∧
       ((u.parked placedTask u.me.pc 3 (keyOfDrawer 0x7F000005F000) u.pkg).drawer 0x7F000005F000).filled = 0) ∧
    (∀ func, func < 7 → let u := pk (s 0) fun p => { p with asks := [ask func] }
      u.inFlight 9 = none ∧ u.pkg.asks.find? (fun y => y.id == 9) = some (ask func) ∧ (∀ y ∈ u.pkg.asks, y.thread = 0 → y.id < 9 → homeOf y.at_ ≠ homeOf (ask func).at_) ∧
        isSteward (ask func).thread = false ∧ (u.pkg.drawer (ask func).at_).en = true ∧
        u.pkg.inMap (u.tenantOf (ask func).thread) (homeOf (ask func).at_ / 8) = true ∧
        word ((u.pkg.drawer (ask func).at_).base + 0 * (u.pkg.drawer (ask func).at_).size * 64) ≠ 0) ∧
    ((s (2 ^ 9)).pkg.drawer 0x7F000005F000).filled ≠ 0 ∧ ((s (2 ^ 27)).pkg.drawer 0x7F000005F000).taken ≠ 0 ∧
    ((s 1).pkg.drawer 0x7F000005F000).free ≠ 0 ∧ ((s (2 ^ 18)).pkg.drawer 0x7F000005F000).claimed ≠ 0 ∧
    (((s 0).me.rg 2).toNat % 64 ≠ 0 ∧ ((s 0).me.rg 3).toNat % 64 = 0) ∧ ¬(s 0).atDesc ((s 0).me.rg 3) ∧ ¬(drawer 0x00010001 0).atDesc ((drawer 0x00010001 0).me.rg 1) ∧
    (validWit ((s 0).me.rw 0) = true ∧ validWit ((s 0).me.rw 2) = false) ∧
    ((s 0).pkg.sleepers = [] ∧ drawerAddr 0 0 = 0x7F000005F000 ∧ 511 < 512 ∧ 63 < 64 ∧ ((s 0).pkg.drawer 0x7F000005F000).en = true) ∧
    (let D := (drawer 0x00010001 0).pkg.drawer 0x7F000005F000
     D.en = false ∧ D.size ≠ 0 ∧ D.slots * D.size * 64 ≤ 0x5F000) ∧
    (let D := (drawer 0x00FF1000 0).pkg.drawer 0x7F000005F000
     D.en = false ∧ ¬D.slots * D.size * 64 ≤ 0x5F000) :=
  ⟨⟨by decide +kernel, ready_of _ rfl _, canTrap_of _ rfl rfl, by decide +kernel⟩,
    ⟨by unfold State.atDesc; decide +kernel, by decide +kernel, by decide +kernel, by decide +kernel, by decide +kernel⟩,
    ⟨by decide +kernel, ⟨by decide +kernel, rfl, by decide +kernel, by decide +kernel⟩, by decide +kernel, by decide +kernel⟩, by decide +kernel,
    by decide +kernel, by decide +kernel, by decide +kernel, by decide +kernel, by decide +kernel, by unfold State.atDesc; decide +kernel,
    by unfold State.atDesc; decide +kernel, by decide +kernel, by decide +kernel, by decide +kernel, by decide +kernel⟩

/-- Threads 1 and 2 wait at barrier 0 with masks of their own; g1 is the mask, g2 the amount. -/
noncomputable def barrier (mine : Word) (l : List Arrival) : State :=
  pk (me fun t => { t with g := [(1, mine), (2, 5)] }) fun p => p.onBench 0 fun b => { b with arrivals := l }

/-- A signal add to counter 7 of core 0. -/
def add7 : SignalMsg := ⟨9, 0, 0, 7, 0, 5, 0, 3⟩

/-- Seven cores of bench 0 joined with the longest tile that fits. -/
noncomputable def ring (len : Nat) (l : List RotJoin) : State :=
  pk (me fun t => { t with g := [(1, 0x5E000), (2, word len), (3, 1), (4, 0x3000)] }) fun p => p.onBench 0 fun b => { b with rotate := l }

/-- The joins of cores 1 to 7. -/
def others : List RotJoin := (List.range 7).map fun i => ⟨4 * (i + 1), false, 0x40 * i, 4096, 1⟩

theorem wit_BarriersSignalsRotate : let p := barrier 7 [⟨0, 7, 1, 4, false⟩]
    let q := barrier 7 [⟨0, 7, 1, 4, false⟩, ⟨0, 7, 2, 4, false⟩]
    (p.replaying = false ∧ p.pkg.ecur < 2 ^ 48 ∧ p.ready [.g 3, .g 1, .g 2] ∧ p.ready [.w 15] ∧ p.canTrap p.cur ∧ p.me.os = 0 ∧ mem.me.os ≠ 0) ∧
    ((7 : Nat).testBit 0 = true ∧ (6 : Nat).testBit 0 = false ∧ [1, 2].Nodup) ∧
    (∀ i, i < 32 → (7 : Nat).testBit i = true → i = 0 ∨ ∃ y ∈ (q.pkg.bench 0).arrivals, y.thread % 32 = i) ∧
    (∃ i, i < 32 ∧ (7 : Nat).testBit i = true ∧ i ≠ 0 ∧ ∀ y ∈ (p.pkg.bench 0).arrivals, y.thread % 32 ≠ i) ∧
    (∃ y ∈ ((barrier 5 [⟨0, 7, 1, 4, false⟩]).pkg.bench 0).arrivals, y.mask ≠ 5) ∧
    (p.me.stall = none ∧ isSteward p.cur = false ∧ 0 < p.nodeV 0 ∧ ¬1 < p.nodeV 0) ∧
    (p.pkg.inMap 0 (7 / 8) = true ∧ p.pkg.inMap 0 (8 / 8) = false) ∧
    ((p.pkg.core 0).signals.get 0 7 < 5 ∧ 0 ≤ (p.pkg.core 0).signals.get 0 7) ∧
    (let s := pk base fun x => { x with adds := [add7] }
     let idle := pk { s with threads := s.threads.set Thread.init 0 { s.thr 0 with task := none } } fun x => { x with waits := [(0, 0, 0x7F0000004000)] }
     s.pkg.adds.find? (fun y => y.id == add7.id) = some add7 ∧ isSteward add7.thread = false ∧ (s.pkg.core 0).rgen = add7.rgen ∧
       { add7 with rgen := 1 }.rgen ≠ (s.pkg.core 0).rgen ∧ s.pkg.inMap add7.tenant 0 = true ∧ s.pkg.inMap 1 0 = false ∧ (s.pkg.bench 0).gated = false ∧ (s.pkg.bench 1).gated = true ∧ (s.thr 0).task.isSome = true ∧
       (∀ i, i < 4 → (idle.thr (4 * 0 + i)).task.isSome = false) ∧ ∃ y ∈ idle.pkg.waits, y.1 = 0) ∧
    (let s := ring 4096 others
     s.ready [.w 1, .g 1, .g 2] ∧ (s.cur < 2048 ∧ 0x5E000 % 64 = 0 ∧ 4096 % 64 = 0 ∧ 0x5E000 + 4096 ≤ 0x5F000 ∧ 0x8000 ≤ 0x5E000 ∧
       s.me.os < 63 ∧ s.shelfStoresOut 0 = false ∧ others.length = 7 ∧ (∀ j ∈ others, coreOf j.thread ≠ 0)) ∧
       ((∀ j ∈ others, j.down = false ∧ j.len = 4096 ∧ j.off % 64 = 0 ∧ j.off + j.len ≤ 0x5F000 ∧ coreOf j.thread / 8 = 0) ∧ s.flight = [] ∧
       ((others ++ [(⟨0, false, 0x5E000, 4096, 1⟩ : RotJoin)]).map fun j => coreOf j.thread).Nodup)) ∧
    (∀ h q, (mergeValid (ring 4096 others).pkg.ecur 0 (witOf h q)).2 = false) ∧
    ((∃ j ∈ others, j.down ≠ true ∨ j.len ≠ 4096) ∧ (∃ j ∈ others, j.down ≠ false ∨ j.len ≠ 64) ∧
      ((others ++ [(⟨0, true, 0x5E000, 4096, 1⟩ : RotJoin)]).map (·.thread)).Nodup ∧ (ring 4096 (others.take 6)).cur < 2048 ∧ (others.take 6).length < 7) ∧
    (∀ j ∈ others, j.thread ≠ 0) ∧
    (let s := ring 4160 []
     s.canTrap s.cur ∧ (s.me.rg 3).toNat % 64 ≠ 0 ∧ 4096 < (s.me.rg 2).toNat ∧ (0x5F000 < 0x5E040 + 4096 ∧ 0x8000 ≤ 0x5E040) ∧
       (s.me.sup = false ∧ (s.me.rg 4).toNat < 0x8000 ∧ 0x3800 < (s.me.rg 4).toNat + 4096)) :=
  ⟨⟨by decide +kernel, by decide +kernel, ready_of _ rfl _, ready_of _ rfl _, canTrap_of _ rfl rfl, by decide +kernel, by decide +kernel⟩, by decide,
    by decide +kernel, ⟨2, by decide +kernel⟩, by decide +kernel, by decide +kernel, by decide +kernel, by decide +kernel, by decide +kernel,
    ⟨ready_of _ rfl _, by decide +kernel, by decide +kernel⟩, fun _ _ => rfl, by decide +kernel, by decide +kernel,
    canTrap_of _ rfl rfl, by decide +kernel⟩

/-- Class 0 runs in cycle 5 with the horizon 3; region 0 is of kind k, limit 1 and stamp 4; TS is 2, and g1 to g4 hold 0 to 3. -/
noncomputable def cycles (k : Nat) : State :=
  pk (words (me fun t => { t with ts := 2, g := [(2, 1), (3, 2), (4, 3)] })
    [(regionAddr 0 0, 0x7F0000000100), (regionAddr 0 0 + 8, k * 2 ^ 62 + 2 ^ 32 + 8), (regionAddr 0 0 + 16, 4)])
    fun p => ({ p with classes := [(0, { Class.init with started := true, cyc := 5 })] }.onBench 0 fun b => { b with nodeH := [(0, 1)] })

theorem wit_CycleAndStamps : let s := cycles 2
    (s.replaying = false ∧ s.ready [.g 5, .g 1, .g 2] ∧ s.canTrap s.cur ∧ s.maySuspend placedTask) ∧
    ((s.pkg.cls s.me.cls).started = true ∧ (base.pkg.cls base.me.cls).started = false) ∧
    (let w := s.setMe { s.me with stall := some (.cycle 5), os := 1 }
     s.me.stall = none ∧ w.me.stall = some (.cycle (w.pkg.cls w.me.cls).cyc.toNat) ∧ w.mayPass = some .leaving ∧
       (s.setMe { s.me with os := 1 }).mayPass = some .leaving) ∧
    (let w := s.setMe { s.me with stall := some (.cycle 5) }
     w.me.stall = some (.cycle (w.pkg.cls w.me.cls).cyc.toNat) ∧ (w.pkg.cls w.me.cls).started = true ∧ w.maySuspend placedTask) ∧
    (s.me.ts.toNat ≤ (s.me.rg 3).toNat ∧ ((s.me.rg 1).toNat < s.me.ts.toNat ∧ (s.me.rg 1).toNat < s.nodeH s.cur) ∧
      ((s.me.rg 2).toNat < s.me.ts.toNat ∧ s.nodeH s.cur ≤ (s.me.rg 2).toNat)) ∧
    ((cycles 0).pkg.region 0 0).kind = 0 ∧ ((cycles 1).pkg.region 0 0).kind = 1 ∧ (s.pkg.region 0 0).kind = 2 ∧ ((cycles 3).pkg.region 0 0).kind = 3 ∧
    (s.me.os = 0 ∧ mem.me.os ≠ 0) ∧
    (let g := s.pkg.region 0 0
     (s.pkg.cls g.cls).cyc - g.stamp ≠ allOnes ∧ ((s.pkg.cls g.cls).cyc - g.stamp).toNat ≤ g.limit ∧ g.limit < (6 - g.stamp).toNat) :=
  ⟨⟨by decide +kernel, ready_of _ rfl _, canTrap_of _ rfl rfl, maySuspend_of _ rfl rfl rfl (by decide +kernel) rfl⟩, by decide +kernel, by decide +kernel,
    ⟨by decide +kernel, by decide +kernel, maySuspend_of _ rfl rfl rfl (by decide +kernel) rfl⟩, by decide +kernel, by decide +kernel, by decide +kernel,
    by decide +kernel, by decide +kernel, by decide +kernel, by decide +kernel⟩

/-! ### Tasks, messages, commands and engines -/

/-- An op of the placed task with a command word, its descriptor's address, a state and a place. -/
def op (cmd w1 : Word) (state place : Nat) : Op where
  cmd := cmd
  w1 := w1
  w2 := 0
  w3 := 0
  state := state
  cause := 0
  reason := 0
  flags := 0
  prog := 0
  faddr := 0
  witn := 0
  token := 0
  owner := .task 0 0x7F0000004000
  tenant := 0
  job := 0
  cls := 0
  stamp := 0
  sup := false
  thread := some 0
  place := place
  descRead := false
  leaveAsked := none
  leaveHeld := 0
  claim := none
  posted := false
  stopping := false
  homes := []
  chunks := []
  plan := none
  finished := false
  born := 0
  pageReq := none
  counted := true
  stopped := false
  issued := 0
  rows := []
  behind := []
  written := []

/-- `base` with the op o in slot k, thread 0 holding g1 and the stall given. -/
noncomputable def withOp (k : Nat) (o : Op) (g1 : Word := 0) (st : Option Stall := none) : State :=
  pk (me fun t => { t with g := [(1, g1)], stall := st }) fun p => p.setOp k (some o)

/-- An op of the placed task in a state, in slot 0. -/
noncomputable def withLive (state : Nat) : State := withOp 0 (op 0 0 state 2)

/-- Core 0 of `base` changed; g1 and g2 given, and the operand extension x4. -/
noncomputable def core0 (g1 g2 : Word) (f : Core → Core) : State :=
  pk (me fun t => { t with g := [(1, g1), (2, g2)], x := [(4, 0x7F0000008000)] }) fun p => p.onCore 0 f

/-- The join block at the start of a shelf's data of the tenant, with COUNT and WAITER. -/
noncomputable def joinBlock (count waiter : Nat) : State :=
  words (me fun t => { t with g := [(1, 0x7F0000008000), (2, 0x7F0000008001), (3, 0x10000)] })
    [(0x7F0000008000, count), (0x7F0000008010, waiter)]

theorem wit_TaskFlow : let s := core0 0x100 0 id
    (s.replaying = false ∧ s.me.task = some placedTask ∧ s.ready [.g 1, .g 2, .x 0, .x 1, .x 2, .x 3, .x 4] ∧ s.canTrap s.cur ∧ s.maySuspend placedTask) ∧
    ((s.me.rg 1).getLsbD 0 = false ∧ ((core0 0x101 0 id).me.rg 1).getLsbD 0 = true ∧ s.pkg.freeSlot 0 = some 0x7F0000004000) ∧
    (core0 0x100 0 fun c => { c with pool := List.range 256 }).pkg.freeSlot 0 = none ∧
    (s.passes .atomic (s.me.rx 4) 32 32 [⟨0x7F0000008000, 32, 0⟩] s ∧ (s.me.rx 4).toNat % 32 = 0 ∧ shelfBase ≤ (s.me.rx 4).toNat ∧
      (s.me.rx 4).toNat < shelfBase + 0x10000000 ∧ s.flight = []) ∧
    (s.pkg.thiefFor 0 0 0 = none ∧ (core0 0x100 0 fun c => { c with steals := [7] }).pkg.thiefFor 0 0 0 = some 7 ∧
      (core0 0x100 0 fun c => { c with steals := [7] }).pkg.thiefFor 0 1 0 = none) ∧
    ((joinBlock 0 0).pkg.rd 0x7F0000008000 = 0 ∧ (joinBlock 1 0).pkg.rd 0x7F0000008000 ≠ 0 ∧ (joinBlock 1 0).pkg.rd 0x7F0000008010 = 0 ∧
      (joinBlock 1 1).pkg.rd 0x7F0000008010 ≠ 0 ∧ (joinBlock 1 1).pkg.rd 0x7F0000008010 ≠ word placedTask.slot ∧ (joinBlock 0 0).me.rg 2 = 0x7F0000008001 ∧ ((joinBlock 0 0).me.rg 3).toNat < shelfBase) ∧
    (let j := joinBlock 1 placedTask.slot
     let w := j.setMe { j.me with stall := some (.joining 0x7F0000008000) }
     let q := w.parked placedTask w.me.pc 2 0 w.pkg
     w.me.stall = some (.joining 0x7F0000008000) ∧ j.me.stall = none ∧ j.pkg.rd 0x7F0000008010 = word placedTask.slot ∧ q.rd 0x7F0000008000 ≠ 0 ∧
       q.rd 0x7F0000008010 = word placedTask.slot ∧ w.pkg.genAt (benchOf w.cur) placedTask.tenant placedTask.job = some placedTask.gen) ∧
    ((joinBlock 1 0).maySuspend placedTask ∧ ((joinBlock 1 0).setMe { (joinBlock 1 0).me with os := 1 }).mayPass = some .leaving) ∧
    (let k := { placedTask with link := 0x7F0000008000 }
     let e := (joinBlock 2 0).setMe { (joinBlock 2 0).me with task := some k }
     e.maySuspend k ∧ e.pkg.opsOf 0 k.slot = [] ∧ k.link ≠ 0 ∧ e.flight = [] ∧ 2 ≤ ((e.pkg.looked k).rd 0x7F0000008000).toNat ∧
       validWit ((e.pkg.looked k).rd 0x7F0000008008) = true) ∧
    ((withLive 4).pkg.holdsLive 0 placedTask.slot = false ∧ (withLive 2).pkg.holdsLive 0 placedTask.slot = true) ∧
    (s.me.stopDue = false ∧ (s.pkg.core (slotCore placedTask.slot)).memLen = 0 ∧ (s.pkg.core (slotCore placedTask.slot)).hwDeque.length < 64 ∧ mem.mayPass = some .leaving) ∧
    ((me fun t => { t with task := none }).me.task = none ∧ s.pkg.opsOf 0 placedTask.slot = [] ∧ (s.pkg.core 0).launches = [] ∧ placedTask.link = 0) ∧
    (2 ≤ ((joinBlock 2 0).pkg.rd 0x7F0000008000).toNat ∧ validWit ((joinBlock 2 0).pkg.rd 0x7F0000008008) = true ∧
      (mergeValid (joinBlock 2 0).pkg.ecur 0 (joinBlock 2 0).me.fw).2 = false) :=
  ⟨⟨by decide +kernel, rfl, ready_of _ rfl _, canTrap_of _ rfl rfl, maySuspend_of _ rfl rfl rfl (by decide +kernel) rfl⟩, by decide +kernel, by decide +kernel,
    ⟨⟨by decide +kernel, by decide +kernel, by decide +kernel, [], rfl, rfl⟩, by decide +kernel⟩, by decide +kernel, by decide +kernel, by decide +kernel,
    ⟨maySuspend_of _ rfl rfl rfl (by decide +kernel) rfl, by decide +kernel⟩,
    ⟨maySuspend_of _ rfl rfl rfl (by decide +kernel) rfl, by decide +kernel⟩, by decide +kernel, by decide +kernel, by decide +kernel, by decide +kernel⟩

/-- A message of thread 0's core to a task table's entry. -/
def msg (id : Nat) : Message := ⟨id, 0, 0, 0, 0, [], id, 0, 0, false, 0⟩

/-- The mailbox of priority 0 with n messages. -/
noncomputable def mailbox (n : Nat) : State := core0 0 0 fun c => { c with mail := [(0, (List.range n).map msg)] }

theorem wit_Messages : let s := core0 0 0 id
    (s.replaying = false ∧ s.ready [.g 3, .v 1] ∧ s.ready [.g 3, .g 1] ∧ s.canTrap s.cur ∧ s.maySuspend placedTask) ∧
    (s.pkg.inMap 0 (0 / 8) = true ∧ s.pkg.inMap 0 (511 / 8) = false) ∧
    ((mailbox 14).pkg.occupied 0 0 < 15 ∧ (mailbox 15).pkg.occupied 0 0 = 15 ∧ 16 ≤ (mailbox 16).pkg.occupied 0 0) ∧
    ((core0 0x7F0000000001 0 id).me.rg 1).toNat % 64 ≠ 0 ∧
    (¬shelfOf 0 + 0x5EFC0 + 64 + 64 ≤ shelfOf 0 + 0x5F000 ∧ shelfOf 0 + 0x5EFC0 + 64 ≤ shelfOf 0 + 0x5F000 ∧ (shelfOf 0 + 0x5EFC0) % 64 = 0) ∧
    16 ≤ ((core0 0 0 fun c => { c with waiters := List.replicate 16 ⟨0, 0, 0, 0⟩ }).pkg.core 0).waiters.length ∧ s.pkg.mailFor 0 0 5 0 = none ∧
    (s.pkg.entryAddr 0 1023 .load = some 0x1FFC0 ∧ (pk s fun p => { p with descs := [] }).pkg.entryAddr 0 0 .load = none ∧
      s.pkg.entryAddr 0 1023 .atomic = some 0x1FFC0 ∧ (pk s fun p => { p with descs := [] }).pkg.entryAddr 0 0 .atomic = none ∧ s.flight = []) :=
  ⟨⟨by decide +kernel, ready_of _ rfl _, ready_of _ rfl _, canTrap_of _ rfl rfl, maySuspend_of _ rfl rfl rfl (by decide +kernel) rfl⟩, by decide +kernel, by decide +kernel,
    by decide +kernel, by decide +kernel, by decide +kernel, by decide +kernel, by decide +kernel⟩
/-- A cancel whose bench is the last to acknowledge, and one that waits for another bench too. -/
theorem wit_Cancel : let m : CancelWait := ⟨0, 3, 0, 0, 1⟩
    let w := fun (f : Pkg → Pkg) => pk base fun p => f { (p.onBench 0 fun b => { b with gens := [(0, 1)] }) with cancels := [m] }
    let two := fun (p : Pkg) => { (p.onBench 1 fun b => { b with tenant := some 0, gens := [(0, 1)] }) with descs := p.descs.set none 0 (some { placedTenant with bmap := 3 }) }
    (base.replaying = false ∧ base.ready [.g 63, .g 1] ∧ base.canTrap base.cur) ∧
    (base.pkg.desc 0 = some placedTenant ∧ base.pkg.place 0 (placedTenant.gtbase + 0) .store = some 0x10000 ∧ base.flight = [] ∧ base.pkg.generation 0 0 = some 0 ∧
      base.pkg.assisted 0 3 = false ∧ base.pkg.inMap 0 0 = true) ∧
    ((w id).pkg.cancels = [m] ∧ (w id).pkg.inMap 0 0 = true ∧ ((w id).pkg.bench 0).gens.get 0 (0 * 65536 + 0) ≠ 0 ∧ (0, 0) ∉ (w id).pkg.cancelHeld ∧
      (w id).pkg.sleepers = [] ∧ ∀ y, y < 64 → y ≠ 0 → ((w id).pkg.bench y).gens.get 0 (0 * 65536 + 0) = 0) ∧
    ((w two).pkg.cancels = [m] ∧ (w two).pkg.inMap 0 1 = true ∧ ((w two).pkg.bench 1).gens.get 0 (0 * 65536 + 0) ≠ 0 ∧ ((w two).pkg.bench 0).gens.get 0 (0 * 65536 + 0) ≠ 0) ∧
    ((me fun t => { t with task := none }).me.task = none ∧ base.me.task = some placedTask ∧ base.pkg.genAt 0 0 0 = some 0 ∧
      (pk base fun p => p.onBench 0 fun b => { b with gens := [(0, 2)] }).pkg.genAt 0 0 0 = some 1 ∧ placedTask.gen = 0) :=
  ⟨⟨by decide +kernel, base_ready _, canTrap_of base rfl rfl⟩, by decide +kernel, by decide +kernel, by decide +kernel, by decide +kernel⟩

/-- Good words and bad ones; a full FIFO; no slot; a count at its limit. -/
theorem wit_Push : let full := core0 0 0 fun c => { c with fifo := List.replicate 16 (.fence 1 0) }
    (base.replaying = false ∧ base.me.task = some placedTask ∧ base.cur < 2048 ∧ base.ready [.g 3, .g 1, .x 7, .x 8, .x 9, .x 10]) ∧
    ((me fun t => { t with oc := 63 }).me.oc = 63 ∧ base.me.oc ≠ 63) ∧
    (base.pkg.freeOp 0 false = some 0 ∧ base.pkg.freeOp 0 true = some 768 ∧ (base.pkg.core 0).fifo.length < 16 ∧ ¬(full.pkg.core 0).fifo.length < 16) ∧
    (pushFault 0 0 0 0 = none ∧ pushFault 8 0 0 0 = some (1, 5, 0) ∧ pushFault 0 0 allOnes 0 = some (0x12, 0, 0)) ∧
    (base.pkg.sleepers = [] ∧ (base.pkg.core 0).fifo = [] ∧ base.me.stall = none ∧ base.flight = [] ∧ base.pkg.halting 0 = false ∧
      (pk base fun p => p.onBench 0 fun b => { b with halting := some 0 }).pkg.halting 0 = true) ∧
    tokenOf 0 0 1 0 ≠ 0 ∧ (3 < 4 ∧ 7 < 8 ∧ 15 < 16) :=
  ⟨⟨by decide +kernel, rfl, by decide +kernel, base_ready _⟩, by decide +kernel, by decide +kernel, by decide +kernel, by decide +kernel, by decide +kernel⟩

/-- Tokens in each case of R184 and ops in each state. -/
theorem wit_Tokens : let t : Word := tokenOf 0 0 1 0
    let s := fun (o : Op) (st : Option Stall) => withOp 0 o t st
    ((s (op 0 0 0 1) none).replaying = false ∧ (s (op 0 0 0 1) none).cur < 2048 ∧ (s (op 0 0 0 1) none).ready [.g 3, .g 1, .g 2, .w 2] ∧
      (s (op 0 0 0 1) none).canTrap 0 ∧ (s (op 0 0 0 1) none).maySuspend placedTask) ∧
    ((bits t 59 5 = 0 ∧ bits t 22 2 = 0 ∧ bits t 12 4 < 2 ∧ bits t 0 12 < 768 ∧ bits t 24 16 ≠ 0) ∧ bits (0 : Word) 24 16 = 0) ∧
    ((s (op 0 0 0 1) none).pkg.inMap 0 (bits t 16 6) = true ∧ (s (op 0 0 0 1) none).pkg.inMap 0 63 = false ∧ bits t 40 16 = (s (op 0 0 0 1) none).me.job ∧
      bits (tokenOf 0 1 1 0) 40 16 ≠ 0) ∧
    ((s (op 0 0 0 1) none).pkg.gens.get 1 0 = bits t 24 16 ∧ base.pkg.gens.get 1 0 ≠ bits (tokenOf 0 0 2 0) 24 16 ∧ base.pkg.op 0 = none) ∧
    ((s (op 0 0 4 2) none).pkg.op 0 = some (op 0 0 4 2) ∧ ¬(op 0 0 4 2).state < 4 ∧ (op 0 0 3 2).state < 4 ∧ (op 0 0 1 1).state ≤ 1 ∧ 2 ≤ (op 0 0 2 2).state ∧
      isCopy 0 = true ∧ isCopy 768 = false) ∧
    ((s (op 0 0 0 1) (some .token)).me.stall = some .token ∧ (s (op 0 0 0 1) none).me.stall = none) ∧
    ((op 0 0 0 1).homes = [] ∧ (op 0 0 0 1).claim = none ∧ (op 0 0 0 1).w3.getLsbD 63 = false ∧ (op 0 0 0 1).counted = true ∧ (op 0 0 0 1).thread = some 0) ∧
    (let q := pk (s (op 0 0 4 2) none) fun p => p.setOp (outKey 0 0) (some (op 0 0 2 2))
     q.pkg.opKey 0 0 = outKey 0 0 ∧ q.pkg.tokenOp (outKey 0 0) = some (op 0 0 2 2) ∧ isOut (outKey 0 0) = true ∧ isCopy (outKey 0 0) = true ∧ isOut 0 = false) ∧
    ({ op 0 0 0 1 with thread := none }.thread = none ∧ { op 0x100 0 0 1 with owner := .tenant 0 }.owner = .tenant 0 ∧ (op 0 0 2 2).finished = false) ∧
    ((op 0x100 0 0 1).cmd.getLsbD 8 = true ∧ (op 0 0 0 1).cmd.getLsbD 8 = false ∧ bits t 0 8 = 0 ∧ bits (0xFF : Word) 0 8 ≠ 0) :=
  ⟨⟨by decide +kernel, by decide +kernel, ready_of _ rfl _, canTrap_of _ rfl rfl, maySuspend_of _ rfl rfl rfl (by decide +kernel) rfl⟩, by decide +kernel,
    by decide +kernel, by decide +kernel, by decide +kernel, by decide +kernel, by decide +kernel, by decide +kernel, by decide +kernel, by decide +kernel⟩

/-- Core 0's FIFO with one command and the op in slot k. -/
noncomputable def queued (c : Cmd) (k : Nat) (o : Op) : State := pk (withOp k o) fun p => p.onCore 0 fun x => { x with fifo := [c] }

/-- A tick at which a push or a spawn of tick 1 that still has no room has waited long enough, and the one before it. -/
theorem wit_EnqueueAndStarved : let s := fun (tick : Nat) (st : Stall) =>
      { pk (me fun t => { t with stall := some st }) (fun p => p.onCore 0 fun c => { c with fifo := List.replicate 16 (.fence 1 0), pool := List.range 256 }) with tick := tick }
    (((queued (.op 0) 0 (op 0 0 0 0)).pkg.bench 0).halting = none ∧ ((queued (.op 0) 0 (op 0 0 0 0)).pkg.core 0).fifo = [.op 0] ∧
      (queued (.op 0) 0 (op 0 0 0 0)).pkg.op 0 = some (op 0 0 0 0) ∧ isCopy 0 = true ∧ (queued (.op 0) 0 (op 0 0 0 0)).pkg.berylHeads 0 = []) ∧
    (((queued (.op 768) 768 (op 8 0 0 0)).pkg.core 0).fifo = [.op 768] ∧ (queued (.op 768) 768 (op 8 0 0 0)).pkg.op 768 = some (op 8 0 0 0) ∧ isCopy 768 = false ∧
      (op 8 0 0 0).state = 0 ∧ (op 8 0 0 0).kind ≤ 9 ∧ (op 8 0 0 0).behind = [] ∧ (op 8 0 0 0).leaveHeld = 0 ∧ (op 8 0 0 0).leaveAsked = none ∧
      (queued (.op 768) 768 (op 8 0 0 0)).replaying = false) ∧
    ((queued (.fence 255 0) 0 (op 0 0 0 0)).pkg.core 0).fifo = [.fence 255 0] ∧
    (((s (2 ^ 20 + 1) (.fifo 1 0)).thr 0).stall = some (.fifo 1 0) ∧ 1 + 2 ^ 20 ≤ (s (2 ^ 20 + 1) (.fifo 1 0)).tick ∧ (s (2 ^ 20) (.fifo 1 0)).tick < 1 + 2 ^ 20 ∧
      16 ≤ ((s (2 ^ 20 + 1) (.fifo 1 0)).pkg.core 0).fifo.length ∧ base.pkg.freeOp 0 false ≠ none ∧ ¬16 ≤ (base.pkg.core 0).fifo.length) ∧
    (((s (2 ^ 20 + 1) (.pool 1)).thr 0).stall = some (.pool 1) ∧ (s (2 ^ 20 + 1) (.pool 1)).pkg.freeSlot 0 = none ∧ base.pkg.freeSlot 0 ≠ none) ∧
    (s (2 ^ 20 + 1) (.pool 1)).canTrap 0 :=
  ⟨by decide +kernel, by decide +kernel, by decide +kernel, by decide +kernel, by decide +kernel, ⟨rfl, rfl⟩⟩

/-- A copy plan of n elements of one byte from the tenant's page to it. -/
def plan (n : Nat) : CopyPlan := ⟨0x200, 1, none, [(n, 1, 1)], [0x300]⟩

/-- The leaf of the tenant's page, A and D set. -/
def leaf0 : Leaf := ⟨0x4000, 0x100FF, 0, 3⟩

/-- The op at the head of queue 0 of core 0, or of bench 0, with words at the descriptor's place. -/
noncomputable def atHead (k : Nat) (o : Op) (l : List (Nat × Nat)) : State :=
  words (pk (withOp k o) fun p => (p.onCore 0 fun c => { c with queues := if isCopy k then [(0, [.op k])] else [] }).onBench 0
    fun b => { b with bqueues := if isCopy k then [] else [(0, [.op k])] }) l

/-- A waiting op, its descriptor of one and a half lines read, and each later place of a copy; a Beryl request and a head. -/
theorem wit_OpSteps : let o := op 0 0x100 0 1
    let s := atHead 0 o [(0x10100, 0x200), (0x10108, 0x300), (0x10140, 65536)]
    let as := (List.range 8).map fun i => 0x10100 + 8 * i
    let ls := List.replicate 8 (leaf0, Use.load)
    let v := { s.useOp 0 o ls with free := s.free + 8 }
    let d := { op 0 0x100 2 2 with descRead := true, plan := some { plan 1 with bases := [0x10000] } }
    let r := atHead 0 d [(0x4008, 0x200FF)]
    (s.replaying = false ∧ 0 < 65536 ∧ (s.pkg.bench 0).halting = none ∧ s.pkg.op 0 = some o ∧ s.pkg.isHead 0 = true ∧
      s.satisfied (s.pkg.bench 0).nodeV o.w2 = true ∧ o.w1.toNat % 64 = 0 ∧ (0x101 : Word).toNat % 64 ≠ 0) ∧
    (o.claim = none ∧ o.homes.length ≤ 2 ∧ o.w3.getLsbD 63 = false ∧ o.owner = .task 0 0x7F0000004000 ∧ s.pkg.sleepers = []) ∧
    (s.engineFind 0 o (wordReads o.w1 8) = .ok as ls ∧ s.pkg.errorAt (wordReads o.w1 8) as = none ∧ ∀ a ∈ as, isForeign a = false) ∧
    (v.engineFind 0 o (wordReads (o.w1 + 64) 2) = .ok [0x10140, 0x10148] (List.replicate 2 (leaf0, .load)) ∧
      v.pkg.errorAt (wordReads (o.w1 + 64) 2) [0x10140, 0x10148] = none) ∧
    (badDesc 0 0 (as.map fun a => word (readMem s.pkg.mem a 8)) = false ∧ badDesc 0 0 [0, 0, allOnes] = true ∧ o.kind ≠ 2) ∧
    ((plan 1).misaligned = none ∧ { plan 1 with esz := 2, src := 1 }.misaligned = some 1 ∧ ¬65536 ≤ (plan 65535).count * 1 ∧ 65536 ≤ (plan 65536).count * 1) ∧
    (let r := atHead 768 { op 9 0 1 1 with leaveAsked := some 3 } []
     (768, 0, 3, 0) ∈ r.pkg.requests 0 ∧ r.pkg.grantable 0 (768, 0, 3, 0) = true ∧ ∀ i, i < 16 → r.pkg.settleHeads i = r.pkg) ∧
    (let w := { op 0 0x100 0 1 with descRead := true, plan := some (plan 1) }
     0 ∈ ((atHead 0 w []).pkg.copyHeads 0).filter (atHead 0 w []).pkg.ready ∧ (atHead 0 w []).pkg.settleHeads 0 = (atHead 0 w []).pkg ∧ (plan 1).drawer = none ∧
       ((atHead 768 (op 10 0 0 1) []).pkg.berylHeads 0).filter (atHead 768 (op 10 0 0 1) []).pkg.ready = [768] ∧
       (atHead 768 (op 10 0 0 1) []).pkg.settleHeads 0 = (atHead 768 (op 10 0 0 1) []).pkg) ∧
    (r.pkg.op 0 = some d ∧ d.place = 2 ∧ d.state = 2 ∧ d.finished = false ∧ d.stopped = false ∧ d.stopping = false ∧ d.chunks = [] ∧ d.kind = 0 ∧ d.prog = 0 ∧
      (plan 1).count = 1 ∧ (plan 1).chunks ≤ 1 ∧ r.copyTurn 0 d = true ∧ r.flight = [] ∧ r.releaseRoom 0 = true ∧ 0x20000 % 64 + 1 ≤ 64) ∧
    (∃ l, r.engineFind 0 d [(.load, 0x200, 1), (.store, 0x10000, 1)] = .ok [0x10200, 0x20000] l ∧
      (r.useOp 0 d l).pkg.plainAt 0x20000) ∧
    (let D := (drawer 0x80010001 1).pkg.drawer 0x7F000005F000
     D.en = true ∧ D.free ≠ 0 ∧ 0 ≤ (plan 64).span.1 ∧ (plan 64).span.2 + 1 ≤ (D.size * 64 : Int) ∧ ¬(plan 65).span.2 + 1 ≤ (D.size * 64 : Int)) ∧
    ((drawer 0x00010001 0).pkg.drawer 0x7F000005F000).en = false ∧ (op 0 0 3 2).state < 4 :=
  ⟨by decide +kernel, by decide +kernel, by decide +kernel, by decide +kernel, by decide +kernel, by decide +kernel, by decide +kernel, by decide +kernel,
    by decide +kernel, ⟨[(leaf0, .load), (⟨0x4008, 0x200FF, 1, 3⟩, .store)], by decide +kernel, .inl (by decide +kernel)⟩, by decide +kernel, by decide +kernel⟩

/-- Op 0 of the placed task with a descriptor for a drawer copy or a list, read as 8 words and one dimension. -/
theorem wit_OpSteps_forms : let D := 0x7F000005F000
    let s := words (atHead 0 (op 0 0x100 0 1) [(0x10100, 0x200), (0x10108, D), (0x10110, 0x100), (0x10140, 1)]) [(D, 0x80010001), (D + 16, 1)]
    let hd := fun (dst dctl : Word) => [(0x200 : Word), dst, dctl, 0, 0, 0, 0, 0]
    (badDesc 0 0 (hd 0x7F000005F000 0x100) = false ∧ badDesc 2 0 (hd 0x300 0x10000) = false ∧ badDesc 2 0 (hd 0x304 0) = false ∧ (0x300 : Word).toNat % 8 = 0 ∧
      (0x304 : Word).toNat % 8 ≠ 0 ∧ (0x100 : Word).getLsbD 8 = true) ∧
    (D % 64 = 0 ∧ (D + 1) % 64 ≠ 0 ∧ shelfBase ≤ D ∧ D < shelfBase + 0x10000000 ∧ 0x5F000 ≤ (D - shelfBase) % 0x80000 ∧ (D - shelfBase) % 0x80000 < 0x60000 ∧
      s.pkg.inMap 0 ((D - shelfBase) / 0x80000 / 8) = true ∧ ¬shelfBase ≤ 0x7E0000000000) ∧
    (let l := words (atHead 0 (op 2 0x100 0 1) []) []
     l.engineFind 0 (op 2 0x100 0 1) (wordReads 0x300 1) = .ok [0x10300] [(leaf0, .load)]) := by decide +kernel

/-- Requests of two priorities; a drawer copy at its start; a multiply with its A whose mode fits its tile and one whose mode does not, a weight
load, and RAW drains to good and bad addresses. -/
theorem wit_OpSteps_start : let A : Nat := 0x7F000005F000
    let r := atHead 768 { op 9 0 1 1 with leaveAsked := some 3 } []
    let w := { op 0 0x100 0 1 with descRead := true, plan := some { plan 64 with drawer := some A, bases := [0] } }
    let s := words (atHead 0 w []) [(A, 0x80010001), (A + 16, 1)]
    let D := s.pkg.drawer A
    let rows := List.replicate 32 (⟨[], 0, 0⟩ : KVec)
    let m := fun (cmd : Word) => { op cmd 0 0 1 with leaveHeld := 3, rows := rows }
    let ready := fun (o : Op) => let p := (atHead 768 o []).pkg; (p.berylHeads 0).filter p.ready = [768] ∧ (p.settleHeads 0).ops = p.ops
    (r.pkg.requests 0 = [(768, 0, 3, 0)] ∧ bits (r.pkg.pgov.get pgovReset 0) 40 12 + 0 ≤ bits (r.pkg.pgov.get pgovReset 0) 16 12) ∧
    ((s.pkg.copyHeads 0).filter s.pkg.ready = [0] ∧ (s.pkg.settleHeads 0).ops = s.pkg.ops ∧ D.en = true ∧ D.free ≠ 0 ∧ 0 ≤ (plan 64).span.1 ∧
      (plan 64).span.2 + 1 ≤ (D.size * 64 : Int)) ∧
    (ready (m 9) ∧ ready (m 0x209) ∧ ready { op 8 0 0 1 with leaveHeld := 8 } ∧ ready (op 0x10000A 0 0 1) ∧ Tile.init.f32 = (9 : Word).getLsbD 9 ∧
      Tile.init.f32 ≠ (0x209 : Word).getLsbD 9) ∧
    (rawMisaligned (op 0x10000A 0 0 1) Tile.init = none ∧ rawMisaligned (op 0x10000A 4 0 1) Tile.init = some 4 ∧ (0x10000A : Word).getLsbD 20 = true) := by
  decide +kernel

/-- A chunk of a reducing copy, one to two destinations, and what a performed line leaves. -/
theorem wit_OpSteps_chunk : let d := { op 1 0x100 2 2 with descRead := true, plan := some { plan 1 with bases := [0x10000] } }
    let r := atHead 0 d [(0x4008, 0x200FF)]
    let y : Access := { acc (.store 5) [] none with thread := 0x10000, replied := true, acc := [(⟨0x20300, 1, 0⟩, 512, 7, 1)] }
    let g := { flying y with pkg := (withOp 0 { d with cmd := 0 }).pkg }
    (r.pkg.op 0 = some d ∧ r.writesOut 0 = false ∧ r.copyTurn 0 d = true ∧ r.releaseRoom 0 = true ∧ d.prog < { plan 1 with bases := [0x10000] }.chunks) ∧
    (∃ l, r.engineFind 0 d [(.load, 0x200, 1), (.atomic, 0x10000, 1)] = .ok [0x10200, 0x20000] l) ∧
    (0x20000 + 1 ≤ 0x10200 ∨ 0x10200 + 1 ≤ 0x20000) ∧
    (g.pkg.op 0 = some { d with cmd := 0 } ∧ g.flight = [y] ∧ y.kind = .store 5 ∧ isForeign 0x20300 = false) ∧ g.pkg.plainAt 0x20300 ∧
    (let c := { d with issued := 1, stopping := true, prog := 1 }
     c.issued ≤ c.prog ∧ (withOp 0 c).writesOut 0 = false) := by
  refine ⟨by decide +kernel, ⟨[(leaf0, .load), (⟨0x4008, 0x200FF, 1, 3⟩, .atomic)], by decide +kernel⟩, by decide, by decide +kernel,
    .inl (by decide +kernel), by decide +kernel⟩

/-- The ends of an op: of three homes, with a slot, with a signal that finds its target, an unmapped bench or another RGEN, with a
waiter, and of a join block, a tenant or nobody. -/
theorem wit_OpSteps_ends : let A : Nat := 0x7F000005F000
    let o := { op 0 0x100 2 2 with finished := true }
    let s := withOp 0 o
    let g := fun (w : Word) => { o with w3 := w }
    let z : Sleeper := ⟨0x7F0000004040, 0, 4, 0⟩
    let q := pk s fun p => { p with sleepers := [z] }
    let h := pk (joinBlock 2 0) fun p => p.setOp 0 (some { o with owner := .block 0 0x7F0000008000 })
    (o.state < 4 ∧ o.finished = true ∧ s.flight = [] ∧ s.pkg.op 0 = some o ∧ s.replaying = false ∧ (s.pkg.bench 0).halting = none) ∧
    (3 ≤ { o with homes := [(0, 1), (1, 1), (2, 1)] }.homes.length ∧
      { o with claim := some A }.posted = false ∧ ((words s [(A, 0x80010001), (A + 16, 2 ^ 18)]).pkg.drawer A).claimed ≠ 0) ∧
    ((g (2 ^ 63)).w3.getLsbD 63 = true ∧ s.pkg.inMap 0 (bits (g (2 ^ 63)).w3 0 9 / 8) = true ∧
      (s.pkg.core (bits (g (2 ^ 63)).w3 0 9)).rgen = bits (g (2 ^ 63)).w3 16 16 ∧ s.pkg.inMap 0 (bits (g (2 ^ 63 + 511)).w3 0 9 / 8) = false ∧
      (s.pkg.core 0).rgen ≠ bits (g (2 ^ 63 + 65536)).w3 16 16) ∧
    (q.pkg.sleepers = [z] ∧ z.state = 4 ∧ z.key = 0 ∧ z.tenant = o.tenant ∧ (q.pkg.record z.slot).state ≠ 10 ∧ (q.pkg.record z.slot).bud = false ∧
      (q.pkg.useGen (slotCore z.slot / 8) z.tenant (q.pkg.record z.slot).job).outdated z.tenant z.slot = false) ∧
    (s.pkg.entryOf 0 1023 = none ∧ ∃ e, (words s [(0x1FFC0, 0x8000000000000000)]).pkg.entryOf 0 1023 = some e ∧
      s.pkg.occupied (bits (word (o.job * 2 ^ 48 + opCore 0 * 2 ^ 38 + e.pri * 2 ^ 19 + 1023 * 2 ^ 9 + e.home)) 0 9)
        (bits (word (o.job * 2 ^ 48 + opCore 0 * 2 ^ 38 + e.pri * 2 ^ 19 + 1023 * 2 ^ 9 + e.home)) 19 2) < 15) ∧
    (h.flight = [] ∧ 2 ≤ (h.pkg.rd 0x7F0000008000).toNat ∧ validWit (h.pkg.rd 0x7F0000008008) = true ∧
      (mergeValid h.pkg.ecur (h.pkg.rd 0x7F0000008008) (homesWit h.pkg.ecur o.homes)).2 = false ∧ { o with owner := .gone }.owner = .gone) := by
  refine ⟨by decide +kernel, by decide +kernel, by decide +kernel, by decide +kernel, ⟨by decide +kernel, _, rfl, by decide +kernel⟩, by decide +kernel⟩

/-- An op of Beryl's that runs. -/
noncomputable def running (cmd w1 : Word) : State := withOp 768 (op cmd w1 2 2)

/-- A chunk of one element, one line. -/
def chunk : OpenChunk := ⟨0, [(0x20200, 5)], [0x20200 / 64], [], []⟩

/-- A row of a multiply's buffer, a weight column, the kinds of a drain, and the lines of an open chunk. -/
theorem wit_EngineWork : let w : Word := 0x100000008
    let o := op w 0 2 2
    let c := { op 1 0 2 2 with chunks := [chunk] }
    let m := { op 9 0 1 1 with leaveHeld := 3 }
    let h := (atHead 768 m []).updBy .hub fun p => p.settleHeads 0
    (h.pkg.op 768 = some m ∧ (h.pkg.berylHeads 0).filter h.pkg.ready = [] ∧ h.pkg.nextReader 0 = some 768 ∧ m.rows.length = 0) ∧
    (∃ as ls, h.engineFind 768 m (operandReads false 0 0 0 0) = .ok as ls ∧ h.pkg.errorAt (operandReads false 0 0 0 0) as = none ∧ ∀ a ∈ as, isForeign a = false) ∧
    ((running w 0).replaying = false ∧ ((running w 0).pkg.bench 0).halting = none ∧ (running w 0).pkg.op 768 = some o ∧ isCopy 768 = false ∧ o.kind = 8 ∧
      o.finished = false ∧ o.stopped = false ∧ { op 0x100000008 0 2 2 with prog := 0 }.n = 0 + 1) ∧
    (∃ as ls, (running w 0).engineFind 768 o (operandReads false 0 0x200 64 0) = .ok as ls ∧ (running w 0).pkg.errorAt (operandReads false 0 0x200 64 0) as = none ∧
      ∀ a ∈ as, isForeign a = false) ∧
    (bits (0x4000A : Word) 0 4 = 10 ∧ (0x4000A : Word).getLsbD 18 = true ∧ (10 : Word).getLsbD 18 = false ∧ (10 : Word).getLsbD 20 = false) ∧
    ((withOp 0 c).pkg.op 0 = some c ∧ c.chunks.find? (fun c => c.lines.contains (0x20200 / 64)) = some chunk) ∧
    ((withOp 0 c).pkg.applied = [] ∧ (withOp 0 c).pkg.recordSpace (homeOf 0x7F0000000000) 0 0 = some 0 ∧ 0x20200 % 64 + 2 ^ ropSize (bits c.cmd 22 4) ≤ 64 ∧
      chunk.elems.filter (fun e => e.1 / 64 == 0x20200 / 64) = [(0x20200, 5)] ∧ (withOp 0 c).flight = []) ∧ (withOp 0 c).pkg.plainAt 0x20200 ∧
    ({ c with chunks := [{ chunk with lines := [] }] }.chunks = [⟨0, [(0x20200, 5)], [], [], []⟩] ∧ chunk.lines ≠ []) :=
  ⟨by decide +kernel, ⟨(List.range 4).map (fun i => 0x10000 + 16 * i) ++ [0x10000, 0x10001], List.replicate 6 (leaf0, .load), by decide +kernel⟩, by decide +kernel,
    ⟨(List.range 4).map (fun i => 0x10000 + 16 * i) ++ [0x10200, 0x10201], List.replicate 6 (leaf0, .load), by decide +kernel⟩, by decide +kernel, by decide +kernel,
    by decide +kernel, .inl (by decide +kernel), by decide +kernel⟩

/-- Rows of drains as values, raw and with E; a drain whose last row is on its way; a running multiply; a line known at its home and one
without room for its record. -/
theorem wit_EngineWork_more : let n1 : Word := 0x10000000A
    let s := fun (o : Op) => words (withOp 768 o) [(0x4008, 0x200FF)]
    let d := op n1 0x10000 2 2
    let e := { op (n1 ||| 0x100000) 0x10000 2 2 with prog := 32, w3 := 0x10008 }
    let y : Access := { acc (.store 5) [] none with thread := 0x10000 + 768, replied := true, acc := [(⟨0x20300, 1, 0⟩, 512, 7, 1)] }
    let c := { op 1 0 2 2 with chunks := [chunk] }
    ((s d).writesOut 768 = false ∧ (s d).releaseRoom 0 = true ∧ d.kind = 10 ∧ d.n = 1 ∧ d.prog < 32 ∧ d.cmd.getLsbD 18 = false ∧ d.place = 2 ∧ d.state = 2 ∧
      ({ s d with flight := [y] }).writesOut 768 = true) ∧
    (∃ ls, (s d).engineFind 768 d [(.store, 0x10000, 4)] = .ok [0x20000] ls) ∧
    (e.prog = 32 ∧ e.cmd.getLsbD 20 = true ∧ (((s e).pkg.bench 0).tiles.get Tile.init e.tile).f32 = false) ∧
    (∃ ls, (s e).engineFind 768 e [(.store, 0x10008, 8)] = .ok [0x20008] ls) ∧
    ((op 9 0 2 2).kind = 9 ∧ (op (9 + 512 * 2 ^ 32) 0 2 2).n = 512) ∧
    (let k := pk (withOp 0 c) fun p => { p with applied := [(p.identity 0, 0, 0x20200 / 64, 7, 0)] }
     k.pkg.applied.find? (fun r => r.1 == k.pkg.identity 0 && r.2.1 == chunk.chunk && r.2.2.1 == 0x20200 / 64) = some (k.pkg.identity 0, 0, 0x20200 / 64, 7, 0)) ∧
    (let L := 0x7F0000000200 / 64
     let f := pk (withOp 0 { c with chunks := [chunk, ⟨1, [(0x7F0000000200, 5)], [L], [], []⟩] }) fun p => { p with applied := List.replicate 512 (1, 0, L, 7, 0) }
     f.pkg.applied.find? (fun r => r.1 == f.pkg.identity 0 && r.2.1 == 1 && r.2.2.1 == L) = none ∧ f.pkg.recordSpace (homeOf (64 * L)) 0 1 = none ∧
       [chunk, (⟨1, [(0x7F0000000200, 5)], [L], [], []⟩ : OpenChunk)].find? (fun c => c.lines.contains L) = some ⟨1, [(0x7F0000000200, 5)], [L], [], []⟩) :=
  ⟨by decide +kernel, ⟨[(⟨0x4008, 0x200FF, 1, 3⟩, .store)], by decide +kernel⟩, by decide +kernel, ⟨[(⟨0x4008, 0x200FF, 1, 3⟩, .store)], by decide +kernel⟩,
    by decide +kernel, by decide +kernel, by decide +kernel⟩

/-! ### Dispatch, the host, pages and tenants -/

/-- A ready record of the placed task's core, from a given slot. -/
def ready1 (slot : Nat) : Ready := ⟨slot, 0, 0, false, false, 0, false, none⟩

/-- Core 0 with a ready record, an entry of its hardware deque, or a message for the valid entry 0; its threads are free. -/
noncomputable def toDispatch (f : Core → Core) : State :=
  words (pk (me fun t => { t with task := none }) fun p => p.onCore 0 f) [(0x10000, 0x8000000000000000), (0x10008, 0)]

theorem wit_DispatchAndStealing : let r := toDispatch fun c => { c with ready := [ready1 0x7F0000004040] }
    let d := toDispatch fun c => { c with hwDeque := [0x7F0000004040] }
    let m := toDispatch fun c => { c with mail := [(0, [msg 1])] }
    let seen := r.pkg.used 0 (r.pkg.genAddr 0 0) .load
    let busy := { r with tick := 256, threads := [0, 1, 2, 3].foldl (fun t n => t.set Thread.init n { r.thr 0 with task := some placedTask }) r.threads }
    (r.replaying = false ∧ (r.pkg.bench 0).tenant = some 0 ∧ r.freeThread 0 = some 0) ∧
    ((firstOf (r.pkg.candidates 0)).map (·.pick) = some (.ready (ready1 0x7F0000004040)) ∧ (firstOf (r.pkg.candidates 0)).map (tied (r.pkg.candidates 0)) = some false) ∧
    ((firstOf (d.pkg.candidates 0)).map (·.pick) = some (.deque 0x7F0000004040) ∧ (d.pkg.core 0).hwDeque = [0x7F0000004040]) ∧
    ((firstOf (m.pkg.candidates 0)).map (·.pick) = some (.message (msg 1)) ∧ m.pkg.oldMessage (msg 1) = false ∧ (m.pkg.entryOf 0 0).isSome = true ∧
      m.pkg.freeSlot 0 = some 0x7F0000004000) ∧
    ((r.pkg.bench 0).trctl.getLsbD 63 = false ∧ (r.pkg.bench 0).tbuf = [] ∧ (r.pkg.record 0x7F0000004040).pre = false ∧ r.pkg.genAt 0 0 0 = some 0 ∧
      (r.pkg.record 0x7F0000004040).gen = 0 ∧
      seen.record 0x7F0000004040 = r.pkg.record 0x7F0000004040 ∧ (r.pkg.record 0x7F0000004040).link = 0 ∧ r.pkg.opsOf 0 0x7F0000004040 = [] ∧
      (r.pkg.core 0).launches = [] ∧ ((words r [(0x7F0000004048, 0x800000)]).pkg.record 0x7F0000004040).gen ≠ 0) ∧
    (base.freeThread 0 = some 1 ∧ firstOf (base.pkg.candidates 0) = none) ∧
    (busy.freeThread 0 = none ∧ busy.freeThread 1 = some 4 ∧ (busy.pkg.bench 0).gated = false ∧ (busy.pkg.bench 0).switching = false ∧ busy.pkg.candidates 1 = [] ∧
      (busy.pkg.candidates 0).map (·.pick) = [.ready (ready1 0x7F0000004040)] ∧ max 0 (busy.pkg.core 0).started + 256 ≤ busy.tick ∧ stealLevel 0 1 ≤ 0) ∧
    ((base.pkg.core 1).thief = none ∧ base.idleCore 1 = true ∧ 511 < 512 ∧ victimsOf 511 ≠ []) ∧
    (let f : Thief := ⟨[2], some 0, false, 0⟩
     let s := pk base fun p => p.onCore 1 fun c => { c with thief := some f }
     (s.pkg.core 1).thief = some f ∧ 1 ∉ (s.pkg.core 0).steals ∧ (s.pkg.core 0).steals.length < 8 ∧ (s.pkg.bench 0).switching = false ∧ s.idleCore 1 = true ∧
       s.tick < f.since + 2048 ∧ ¬{ s with tick := 2048 }.tick < f.since + 2048 ∧ s.idleCore 511 = false) ∧
    (let f : Thief := ⟨[0, 8], none, false, 0⟩
     let s := pk base fun p => p.onCore 1 fun c => { c with thief := some f }
     (s.pkg.core 1).thief = some f ∧ s.idleCore 1 = true ∧ s.tick < f.since + 32 ∧ f.since + 32 ≤ { s with tick := 32 }.tick ∧
       ((s.pkg.bench (0 / 8)).gated = false ∧ (s.pkg.bench (0 / 8)).tenant = (s.pkg.bench (1 / 8)).tenant) ∧ (s.pkg.bench (8 / 8)).gated = true) ∧
    (let f : Thief := ⟨[], none, true, 0⟩
     let s := pk base fun p => p.onCore 1 fun c => { c with thief := some f }
     (s.pkg.core 1).thief = some f ∧ s.tick < f.since + 4096 ∧ f.since + 4096 ≤ { s with tick := 4096 }.tick) := by decide +kernel

/-- A tenant that runs, and one of a retired package. -/
theorem wit_DispatchAndStealing_runs : let r := toDispatch fun c => { c with ready := [ready1 0x7F0000004040] }
    r.tenantRuns 0 = true ∧ (let x := ox r fun o => { o with lc := 4 }
      x.replaying = false ∧ (x.pkg.bench 0).tenant = some 0 ∧ x.tenantRuns 0 = false) := by decide +kernel

/-- The rest of the hypotheses: a record of an old generation, a victim asked already, one at its bound or switching, and thieves that
are no longer idle. -/
theorem wit_DispatchAndStealing_more : let r := toDispatch fun c => { c with ready := [ready1 0x7F0000004040] }
    let old := words r [(0x7F0000004048, 0x800000)]
    let busy := { r with tick := 256, threads := [0, 1, 2, 3].foldl (fun t n => t.set Thread.init n { r.thr 0 with task := some placedTask }) r.threads }
    let thief := fun (c v : Nat) (f : Thief) (ws : List Nat) (sw : Bool) =>
      pk base fun p => (p.onCore c fun x => { x with thief := some f }).onCore v (fun x => { x with steals := ws }) |>.onBench 0 fun b => { b with switching := sw }
    ((old.pkg.record 0x7F0000004040).gen ≠ 0 ∧ old.pkg.genAt 0 0 0 = some 0 ∧ (old.pkg.record 0x7F0000004040).link = 0 ∧
      (old.pkg.used 0 (old.pkg.genAddr 0 0) .load).record 0x7F0000004040 = old.pkg.record 0x7F0000004040 ∧
      (firstOf (old.pkg.candidates 0)).map (·.pick) = some (.ready (ready1 0x7F0000004040))) ∧
    ((busy.pkg.bench (1 / 8)).tenant = some 0 ∧ busy.pkg.jobStopped 0 0 0 = false ∧ (ready1 0x7F0000004040).handed = false ∧ (busy.pkg.record 0x7F0000004040).job = 0 ∧
      (busy.pkg.record 0x7F0000004040).dom = 0) ∧
    (let f : Thief := ⟨[2], some 0, false, 0⟩
     1 ∈ ((thief 1 0 f [1] false).pkg.core 0).steals ∧ ((thief 1 0 f [1] false).pkg.core 1).thief = some f ∧ (thief 1 0 f [1] false).idleCore 1 = true ∧
       f.since + 2048 ≤ { thief 1 0 f [1] false with tick := 2048 }.tick ∧
       8 ≤ ((thief 1 0 f [2, 3, 4, 5, 6, 7, 8, 9] false).pkg.core 0).steals.length ∧ ((thief 1 0 f [] true).pkg.bench 0).switching = true) ∧
    (let f : Thief := ⟨[2], some 1, false, 0⟩
     ((thief 0 1 f [0] true).pkg.core 0).thief = some f ∧ (thief 0 1 f [0] true).idleCore 0 = false) ∧
    (let f : Thief := ⟨[2], none, false, 0⟩
     ((thief 0 1 f [] true).pkg.core 0).thief = some f ∧ (thief 0 1 f [] true).idleCore 0 = false ∧
       ((thief 0 1 { f with backoff := true } [] true).pkg.core 0).thief = some { f with backoff := true } ∧ (thief 0 1 { f with backoff := true } [] true).idleCore 0 = false) := by decide +kernel

/-- A double fault, a pre-emption due, an interrupt pending, an idle at its limit, a trace that runs. -/
theorem wit_BreakIn : let f := me fun t => { t with park := some .doubleFault }
    let p := me fun t => { t with preemptDue := true }
    let i := me fun t => { t with irq := some 5 }
    (base.replaying = false ∧ f.me.task = some placedTask ∧ f.me.park = some .doubleFault ∧ f.me.ol = 0 ∧ f.me.os = 0 ∧ f.onyx.dbgOpen = false ∧
      f.pkg.opsOf 0 placedTask.slot = [] ∧ placedTask.slot ≠ 0 ∧ placedTask.link = 0 ∧ (f.pkg.core 0).launches = []) ∧
    (let l := { (me fun t => { t with preemptDue := true, tstat := 0x100000 }) with tick := 16000 }
     (l.thr 0).park ≠ some .doubleFault ∧ (l.thr 0).park ≠ some .debugger ∧ (l.thr 0).preemptDue = true ∧ (l.thr 0).sup = true ∧ (l.thr 0).dueAt + 16000 ≤ l.tick) ∧
    ((f.pkg.endRecord 0 placedTask.slot 10).entryOf 0 1023 = none ∧
      ((words f [(0x1FFC0, 0x8000000000000000), (0x1FFC8, 0)]).pkg.endRecord 0 placedTask.slot 10).entryOf 0 1023 ≠ none ∧
      f.pkg.occupied (bits (headerOf 0 0 1 false 0 1023 0) 0 9) (bits (headerOf 0 0 1 false 0 1023 0) 19 2) < 15 ∧
      15 ≤ (mailbox 15).pkg.occupied (bits (headerOf 0 0 1 false 0 1023 0) 0 9) (bits (headerOf 0 0 1 false 0 1023 0) 19 2)) ∧
    (p.canPreempt 0 = true ∧ base.canPreempt 0 = false ∧ p.pkg.desc 0 = some placedTenant ∧ ((p.withdraw 0).pkg.place 0 (saveArea placedTenant placedTask.slot) .store).isSome = true ∧
      p.me.stopDue = false ∧ p.pair.role = 0) ∧
    (i.me.irqNow = true ∧ i.me.irq = some 5 ∧ i.me.sup = false ∧ i.me.park = none ∧ i.me.preemptDue = false ∧ i.me.tf = false ∧ i.me.isBusy [.g 63] = false) ∧
    (let y := fun (irq : Option Word) (busy : List Reg) => me fun t => { t with tstat := 0x100000, stall := some (.idle (some 0) 2 false), irq := irq, busy := busy }
     (y none []).me.stall = some (.idle (some 0) 2 false) ∧ (y none []).me.irqNow = false ∧ (y (some 5) []).me.irqNow = true ∧ (y (some 5) []).me.isBusy [.g 63] = false ∧
       (y (some 5) []).me.tf = false ∧ (y (some 5) [.g 63]).me.isBusy [.g 63] = true ∧ 0 ≤ (y none []).tick ∧
       (me fun t => { t with stall := some (.idle (some 1) 2 false) }).tick < 1) ∧
    (let B := (pk base fun p => p.onBench 0 fun b => { b with trctl := 0x9000000000000000 }).pkg.bench 0
     B.trctl.getLsbD 63 = true ∧ B.trctl.getLsbD 60 = true ∧ B.samples.get 0 0 + 1024 * bits B.trctl 48 12 ≤ base.tick ∧ B.tlost = 0 ∧
       B.tbuf.length < 512 ∧ placedTenant.trsize = 0) ∧
    (let s := fun (c : Word) (at_ : Nat) => { (pk base fun p => p.onBench 0 fun b => { b with trctl := c }) with tick := at_ }
     let due := fun (s : State) => (s.pkg.bench 0).samples.get 0 0 + 1024 * bits (s.pkg.bench 0).trctl 48 12
     (s 0x9001000000000000 1023).tick < due (s 0x9001000000000000 1023) ∧ due (s 0x9001000000000000 1024) ≤ (s 0x9001000000000000 1024).tick ∧
       ((s 0x8001000000000000 0).pkg.bench 0).trctl.getLsbD 60 = false) ∧
    ((base.pkg.bench 0).trctl.getLsbD 63 = false ∧ (base.pkg.bench 0).tbuf = []) := by decide +kernel

/-- A failure with the mailbox of the handler's priority below its bound and at it, a task that owes only a rotate, and an interrupt
of a thread parked on a page. -/
theorem wit_BreakIn_more : let f := fun (n : Nat) => words (pk (me fun t => { t with park := some .doubleFault }) fun p =>
      p.onCore 0 fun c => { c with mail := [(0, (List.range n).map msg)] }) [(0x1FFC0, 0x8000000000000000), (0x1FFC8, 0)]
    let q := fun (n : Nat) => (f n).pkg.endRecord 0 placedTask.slot 10
    let h := headerOf 0 0 1 false 0 1023 0
    ((f 14).flight = [] ∧ (f 14).storesOwed 0 = 0 ∧ (f 14).me.ol = 0 ∧ ((q 14).entryOf 0 1023).map (fun e => (e.pri, e.home)) = some (0, 0) ∧
      (f 14).pkg.occupied (bits h 0 9) (bits h 19 2) < 15 ∧ ((q 15).entryOf 0 1023).isSome = true ∧ 15 ≤ (f 15).pkg.occupied (bits h 0 9) (bits h 19 2)) ∧
    ((me fun t => { t with os := 1 }).storesOwed 0 = 1 ∧ (base.thr 0).park = none ∧ (me fun t => { t with preemptDue := true }).flight = []) ∧
    (let i := me fun t => { t with irq := some 5, park := some (.page 4) }
     i.me.irqNow = true ∧ i.me.park = some (.page 4) ∧ i.me.sup = false ∧ i.me.preemptDue = false ∧ i.me.task.isSome = true ∧ i.me.tf = false ∧ i.me.isBusy [.g 63] = false) := by decide +kernel

/-- A message on its way for an entry that is not valid, one behind another of its sender's, one for a waiting task, and a full mailbox. -/
theorem wit_Arrivals : let x : Message := { msg 3 with header := 0x200000 }
    let ok := fun (s : State) => words s [(0x10000, 0x8000000000000000), (0x10008, 0)]
    let s := ok (pk base fun p => { p with messages := [x], sleepers := [⟨0x7F0000004040, 0, 5, 0⟩] }.onCore 0 fun c => { c with waiters := [⟨0x7F0000004040, 0, 0, 0⟩] })
    let u := pk base fun p => { p with messages := [msg 3] }
    (s.replaying = false ∧ s.pkg.messages.find? (fun m => m.id == 3) = some x ∧ s.pkg.overtakes x = false ∧ s.pkg.inMap x.tenant (x.dest / 8) = true ∧ x.wt = true ∧
      (s.pkg.entryOf 0 x.entry).isSome = true ∧ ((s.pkg.core 0).mail.get [] x.pri).length < 16) ∧
    (let two := (pk base fun p => { p with messages := [msg 2, msg 3] }).pkg
     two.messages.find? (fun m => m.id == 3) = some (msg 3) ∧ two.overtakes (msg 3) = true) ∧
    (let seen := s.pkg.noteEntry 0 0 x.entry
     let R := seen.record 0x7F0000004040
     let q := (seen.perform none ((R.args.head?.getD 0).toNat) 64 (wordsNat ([x.header, x.stamp, x.sendWord] ++ x.pay))).putRecord 0x7F0000004040 R
     seen.oldMessage x = false ∧ s.flight = [] ∧ s.pkg.sleepers.find? (fun z => z.slot == 0x7F0000004040) = some ⟨0x7F0000004040, 0, 5, 0⟩ ∧
       (s.pkg.core 0).waiters.find? (fun w => x.wt && w.tenant == x.tenant && w.tag == x.tag && w.job == x.job) = some ⟨0x7F0000004040, 0, 0, 0⟩ ∧
       (q.record 0x7F0000004040).bud = false ∧ (q.record 0x7F0000004040).state ≠ 10 ∧ q.outdated 0 0x7F0000004040 = false) ∧
    (u.pkg.messages.find? (fun m => m.id == 3) = some (msg 3) ∧ u.pkg.overtakes (msg 3) = false ∧ (msg 3).wt = false ∧ u.pkg.entryOf 0 0 = none) ∧
    16 ≤ (((mailbox 16).pkg.core 0).mail.get [] 0).length ∧
    (let w := fun (f : Pkg → Pkg) (l : List (Nat × Nat)) => words (pk base fun p => f (p.onBench 0 fun b => { b with gens := [(0, 1)] })) l
     let z := w (fun p => { p with sleepers := [⟨0x7F0000004040, 0, 5, 0⟩] }) [(0x7F0000004048, 0x800000)]
     ((w id []).pkg.bench 0).gens.get 0 (0 * 65536 + 0) ≠ 0 ∧ (w id []).pkg.cancelHeld.contains (0, 0) = false ∧ (w id []).pkg.generation 0 0 = some 0 ∧
       (w id []).pkg.cancels = [] ∧ (w id []).pkg.sleepers = [] ∧
       (z.pkg.sleepers.filter fun z' => z'.tenant == 0 && slotCore z'.slot / 8 == 0 && (z.pkg.record z'.slot).job == 0 && (z.pkg.record z'.slot).gen != 0 &&
         (z'.state == 12 || (decide (2 ≤ z'.state) && decide (z'.state ≤ 7)))).map (·.slot) = [0x7F0000004040] ∧
       (z.pkg.record 0x7F0000004040).link = 0 ∧ z.pkg.opsOf 0 0x7F0000004040 = [] ∧ (z.pkg.core 0).launches = []) ∧
    (let ws : List Word := [0, 1, 1]
     let seen := (ok base).pkg.noteEntry 0 0 0
     (64 % 64 = 0 ∧ 0xF80 < 0xFC0 ∧ ¬0xFC0 < 0xFC0) ∧ (ok base).pkg.launchCores 0 ws = [0] ∧ (ok base).pkg.freeSlot 0 = some 0x7F0000004000 ∧
       ((ok base).pkg.core 0).hwDeque.length < 64 ∧ (ok base).pkg.entryOf 0 0 ≠ none ∧ seen.entryOf 0 0 = (ok base).pkg.entryOf 0 0 ∧ base.pkg.entryOf 0 0 = none) := by decide +kernel

/-- A match that wakes its task under the generation its bench uses, a refused message for a waiting task, and a record to end. -/
theorem wit_Arrivals_more : let x : Message := { msg 3 with header := 0x200000 }
    let s := fun (valid : Nat) => words (pk base fun p => { p with messages := [x], sleepers := [⟨0x7F0000004040, 0, 5, 0⟩] }.onCore 0 fun c =>
      { c with waiters := [⟨0x7F0000004040, 0, 0, 0⟩] }) [(0x10000, valid), (0x10008, 0)]
    let at_ := ((s 0x8000000000000000).pkg.noteEntry 0 0 x.entry).useGen 0 x.tenant x.job
    let R := at_.record 0x7F0000004040
    let q := (at_.perform none ((R.args.head?.getD 0).toNat) 64 (wordsNat ([x.header, x.stamp, x.sendWord] ++ x.pay))).putRecord 0x7F0000004040
      { R with stamp := if x.stamp.toNat < R.stamp.toNat then x.stamp else R.stamp }
    let woken := q.useGen (slotCore 0x7F0000004040 / 8) 0 (q.record 0x7F0000004040).job
    ((s 0x8000000000000000).pkg.overtakes x = false ∧ ((s 0x8000000000000000).pkg.bench (0 / 8)).stopped.contains (x.tenant * 65536 + x.job) = false ∧
      at_.oldMessage x = false ∧ (q.record 0x7F0000004040).bud = false ∧ (q.record 0x7F0000004040).state ≠ 10 ∧ woken.outdated 0 0x7F0000004040 = false ∧
      (s 0x8000000000000000).flight = []) ∧
    (x.wt = true ∧ (s 0).pkg.entryOf 0 x.entry = none ∧ (s 0).pkg.overtakes x = false) ∧
    (let z := words (pk base fun p => { p.onBench 0 (fun b => { b with gens := [(0, 1)] }) with sleepers := [⟨0x7F0000004040, 0, 5, 0⟩] }) [(0x7F0000004048, 0x800000)]
     (z.pkg.record 0x7F0000004040).state ≠ 10 ∧ (z.pkg.record 0x7F0000004040).gen ≠ 0 ∧ (0 : Nat) < 0x7F0000004040 ∧ 0x7F0000004040 < 2 ^ 48) ∧
    (0 = bits ((0 : Word)) 54 10 ∧ ((0x1000000000000 : Word)).getLsbD 48 = true ∧ ([] : List Byte).length ≠ 64) := by decide +kernel

/-- An answer that closes a page request, one that closes a cancel's, and one of an unknown number. -/
theorem wit_HostRequests : let q : PageReq := ⟨4, 0, 0, 0, 3, false, 0x4008, 0, 1⟩
    let s := pk base fun p => { p with svcOpen := [(0, 7, 0, 4), (0, 8, 3, 0)], reqs := [q] }
    (s.replaying = false ∧ s.pkg.svcOpen.find? (fun x => x.1 == 0 && x.2.1 == 9) = none ∧ s.pkg.svcOpen.find? (fun x => x.1 == 0 && x.2.1 == 7) = some (0, 7, 0, 4) ∧
      s.pkg.svcOpen.find? (fun x => x.1 == 0 && x.2.1 == 8) = some (0, 8, 3, 0) ∧ s.pkg.svcWait = [] ∧ s.pkg.reqs.find? (fun r => r.id == 4) = some q ∧
      q.id = 4 ∧ (s.pkg.rd q.entry).getLsbD 0 = false ∧ (s.pkg.rd q.entry).getLsbD 52 = false ∧ ((words s [(0x4008, 1)]).pkg.rd q.entry).getLsbD 0 = true) ∧
    (gatesFit ⟨0, 10, [(1, 4), (2, 6)]⟩ = true ∧ gatesFit ⟨0, 11, [(1, 4), (2, 6)]⟩ = false ∧ (2 ≤ 64 ∧ 1000000 ≤ 1000000000) ∧ (some 9).getD 0 < 10) ∧
    (let w := pk base fun p => { p with descs := p.descs.set none 0 (some { placedTenant with imgw := [(1, 1)] }) }
     w.pkg.rangeInWindows 0 0x1FFF 1 = true ∧ w.pkg.imageByte 0 0x2000 = false ∧ w.pkg.imageByte 0 0xFFF = false) ∧
    (placedTenant.valid = true ∧ { placedTenant with valid := false }.valid = false ∧ base.accepts 0 placedTenant = false ∧ 1023 < 1024 ∧ 255 < 256) ∧
    (base.perst = false ∧ { base with perst := true, tick := 1600000000 }.perstAt + 1600000000 ≤ 1600000000) := by decide +kernel
/-- An acceptable descriptor, poisoned data, the status line of a launch window, and a port that is ready. -/
theorem wit_HostRequests_more : let s := words base [(0x4000, 0x200000000100FF)]
    let q : PageReq := ⟨4, 0, 0, 0, 3, false, 0x4008, 0, 1⟩
    (s.accepts 0 placedTenant = true ∧ placedTenant.valid = true) ∧
    (s.accepts 0 { placedTenant with ttbase := 4096 } = false ∧ ({ placedTenant with ttbase := 4096 } : TenantDesc).valid = true) ∧
    (([1] : List Byte).length ≠ 2 ∧ ([1] : List Byte) ≠ [] ∧ (∀ i, i < 1 → base.pkg.imageByte 0 (0x2000 + i) = false)) ∧
    (0x1000FC0 + 3 = 0x1000FC0 + 0x1000 * 0 + 3 ∧ 3 < 4 ∧ 0x1000FC0 + 63 = 0x1000FC0 + 0x1000 * 0 + 63 ∧ 0 + 0 < 0x1000000) ∧
    ({ base with perst := true, pcieReady := true }.pcieReady = true ∧ { base with perst := true }.perst = true) ∧
    ((∀ y ∈ s.pkg.svcWait, y.1 ≠ 0) ∧ (words s [(0x4008, 0x10000000000000)]).pkg.rd q.entry ≠ 0 ∧ (1 : BitVec 64) ≠ 0) ∧
    ((0x8000000000000000 : Word).getLsbD 63 = true ∧ (32 ≤ bits (32 : Word) 0 16 ∧ bits (320 : Word) 0 16 ≤ 320 ∧ ¬bits (321 : Word) 0 16 ≤ 320) ∧ 16 < 17 ∧ base.me.irq = none ∧
      (me fun t => { t with irq := some 1 }).me.irq.isSome = true) := by decide +kernel

/-- The horizon one past the stamp, and at it; a ready standby whose log is one short. -/
theorem wit_ReleaseBuffer : let h : Held := ⟨0x100000000000, [1], 0, 4, 6, none⟩
    let s := fun (H lack : Nat) => pk { base with released := [h], pair := { base.pair with role := 1, ready := true, lack := lack } } fun p => { p with horizons := [(0, H)] }
    (s 5 6).released = [h] ∧ (h.stamp.toNat < (s 5 6).pkg.horizons.get 0 h.cls ∧ h.pos ≤ (s 5 6).pair.lack) ∧ ¬h.stamp.toNat < (s 4 6).pkg.horizons.get 0 h.cls ∧
    (base.tenantOf 0 = 0 ∧ 255 < 256 ∧ { h with vector := some 255 }.vector = some 255) ∧
    ¬h.pos ≤ (s 5 5).pair.lack ∧ (s 5 6).pair.role ≠ 2 ∧ { (s 5 6).pair with role := 2 }.role = 2 := by decide +kernel

/-- The page tables' entry of page 1 absent, or leaves with COP or LOAN. -/
noncomputable def leaf1 (e : Nat) : State := words base [(0x4008, e)]

/-- A page of a policy, of none and of the spare tier; a page to spare, one that migrates, one on its way, and one that is settled. -/
theorem wit_Paging : let q : PageReq := ⟨4, 0, 0x10000, 0, 3, false, 0x4008, 0, 1⟩
    let s := pk base fun p => { p with reqs := [q], policies := [(0, [⟨0x10000, 0x10000, true, true, false, true⟩])] }
    let v := fun (e : Nat) (m : Option Moves) => pk (leaf1 e) fun p => { p with moves := [(pageKey 0 1, m)] }
    (s.pkg.reqs.find? (fun r => r.id == 4) = some q ∧ (s.pkg.rd q.entry).getLsbD 0 = false ∧ (s.pkg.rd q.entry).getLsbD 52 = false ∧ s.pkg.assisted 0 0 = false ∧ q.level = 3 ∧
      (s.pkg.policyOf 0 q.va).isSome = true ∧ (pk s fun p => { p with policies := [] }).pkg.policyOf 0 q.va = none) ∧
    (let z := words s [(0x4008, 2 ^ 52 + 8 * 2 ^ 18 + 3 * 2 ^ 16)]
     (z.pkg.rd q.entry).getLsbD 0 = false ∧ (z.pkg.rd q.entry).getLsbD 52 = true ∧ (z.pkg.spareBack 0 q.va).isSome = true) ∧
    (base.quiet 0 = true ∧ (flying (acc .home [here 8] none)).quiet 0 = false ∧ 0x10000 ≠ 0) ∧
    ((base.pkg.bench 1).gated = true ∧ base.pkg.spares = [] ∧ (leaf1 0x200FF).pkg.walk 0 0x10000 = .leaf 0x200FF 0x4008 3 ∧ isForeign (pteAddr 0x200FF) = false ∧
      (0x200FF : Word).getLsbD 53 = false ∧ (0x200000000200FF : Word).getLsbD 53 = true) ∧
    (let e := 0x400000000200FF
     (leaf1 e).pkg.assisted 0 4 = false ∧ (leaf1 e).pkg.walk 0 0x10000 = .leaf 0x400000000200FF 0x4008 3 ∧ (0x400000000200FF : Word).getLsbD 54 = true ∧
       (0, 0x10000) ∉ (leaf1 e).pkg.migrants ∧ ((v e none).pkg.moves.get none (pageKey 0 1)).isNone = true ∧
       ([0, 0, 0, 0].filter fun x => decide ((0 : Nat) < x + 8000000)).length = 4) ∧
    (let w := fun (m : Option Moves) => pk (v 0x400000000200FF m) fun p => { p with migrants := [(0, 0x10000)] }
     (0, 0x10000) ∈ (w none).pkg.migrants ∧ (w none).quiet 0 = true ∧ (w none).releasing (pteAddr 0x200FF) = false ∧
       { w none with released := [⟨0x20000, [1], 0, 0, 0, none⟩] }.releasing (pteAddr 0x200FF) = true ∧
       ((w (some ⟨[], none, false⟩)).pkg.moves.get none (pageKey 0 1)) = some ⟨[], none, false⟩) ∧
    (let m : Moves := ⟨[], some 0, true⟩
     (v 0x200FF (some m)).pkg.moves.get none (pageKey 0 1) = some m ∧ m.settled = some 0 ∧ (v 0x200FF (some m)).time < 0 + 128000000 ∧ 0 + 128000000 ≤ 128000000) := by
  decide +kernel

/-- A page due to come back: movable, not movable for each of its reasons, and four moves within a millisecond; a move out with an image. -/
theorem wit_Paging_more : let v := fun (e : Nat) (m : Moves) (mig : List (Nat × Nat)) =>
      (pk (leaf1 e) fun p => { p with moves := [(pageKey 0 1, some m)], migrants := mig })
    let away : Moves := ⟨[], none, false⟩
    let held := { v 0x400000000200FF ⟨[], none, true⟩ [(0, 0x10000)] with marks := [⟨0, [], [], [], some base.pkg, []⟩] }
    ((v 0x400000000200FF away []).pkg.moves.get none (pageKey 0 1) = some away ∧ away.here = false ∧ (v 0x400000000200FF away []).pkg.walk 0 0x10000 = .leaf 0x400000000200FF 0x4008 3 ∧
      (0x400000000200FF : Word).getLsbD 54 = true ∧ (0x400000000200FF : Word).getLsbD 53 = false ∧ away.settled = none ∧ (v 0x400000000200FF away []).pkg.assisted 0 4 = false) ∧
    ((0x200FF : Word).getLsbD 54 = false ∧ (0x600000000200FF : Word).getLsbD 53 = true ∧ (⟨[], some 0, false⟩ : Moves).settled.isSome = true) ∧
    (((⟨[0, 0, 0], none, false⟩ : Moves).times.filter fun x => decide (7999999 < x + 8000000)).length < 4 ∧
      4 ≤ ((⟨[0, 0, 0, 0], none, false⟩ : Moves).times.filter fun x => decide (7999999 < x + 8000000)).length) ∧
    ((pk (leaf1 0x400000000200FF) fun p => { p with descs := p.descs.set none 0 (some { placedTenant with mode := 16 }) }).pkg.assisted 0 4 = true) ∧
    ((0, 0x10000) ∈ held.pkg.migrants ∧ held.quiet 0 = true ∧ held.releasing (pteAddr 0x400000000200FF) = false ∧ held.marks.length = 1 ∧ held.marks.all (·.image.isSome) = true) ∧
    ((v 0x400000000200FF away [(0, 0x10000)]).quiet 0 = true ∧ (v 0x400000000200FF away [(0, 0x10000)]).releasing (pteAddr 0x400000000200FF) = false) ∧
    (keyCovers 0 0x10000 65536 (leafKey 0 3 0x10000) = true ∧ keyCovers 0 0x10000 65536 (leafKey 0 3 0x20000) = false) := by decide +kernel

/-- The tenant's first 4 MiB are two large pages, so the switch areas of bench 0 are there; no task runs on the bench. -/
noncomputable def switchable : State := words (me fun t => { t with task := none }) [(0x3000, 0x2000FF), (0x3008, 0x4000FF)]

/-- A region that is not valid, one with the least length that fits its window; a lock in each state; a switch in and out. -/
theorem wit_RegionsAndSwitch : let w := pk base fun p => { p with descs := p.descs.set none 0 (some { placedTenant with imgw := [(1, 1)] }) }
    let l := fun (v : Word) => (pk base fun p => { p with l2lk := v }).pkg.l2lk
    (base.replaying = false ∧ (w.pkg.region 7 255).kind = 0 ∧ w.pkg.regionOk 0 2 (imageBase + 0x1FF8) 8 = true ∧ w.pkg.regionOk 0 2 (imageBase + 0x2000) 8 = false ∧
      w.pkg.regionOk 0 1 (imageBase + 0x1FF8) 8 = true ∧ ((cycles 2).pkg.region 0 0).kind ≠ 0) ∧
    ((l 0).getLsbD 62 = false ∧ (l 0).getLsbD 63 = false ∧ (l 0x8000000000000000).getLsbD 63 = true ∧ (l 0xC000000000000000).getLsbD 62 = true) ∧
    (base.welcome 0 none = true ∧ (base.pkg.bench 0).tenant ≠ none ∧ base.pkg.spares = [] ∧ 0 ∈ base.busyThreads 0 ∧ (base.pkg.bench 0).switching = false) ∧
    (let w := { pk base (fun p => p.onBench 0 fun b => { b with switching := true }) with tick := 16000 }
     (w.pkg.bench 0).switching = true ∧ (w.pkg.bench 0).switchAt + 16000 ≤ w.tick ∧ ¬(w.pkg.bench 0).switchAt + 16000 ≤ 15999) ∧
    (switchable.busyThreads 0 = [] ∧ switchable.pkg.desc 0 = some placedTenant ∧ (switchable.pkg.bench 0).tenant = some 0 ∧
      switchable.pkg.areaOk 0 0 placedTenant .store = true ∧ switchable.pkg.benchOps 0 = [] ∧ base.pkg.areaOk 0 0 placedTenant .store = false) ∧
    (let e := ox (pk switchable fun p => p.onBench 0 fun b => { b with tenant := none }) fun o => { o with lc := 2 }
     (e.pkg.bench 0).tenant = none ∧ e.welcome 0 (some 0) = true ∧ e.pkg.areaReady 0 .load (some 0) = true ∧ e.busyThreads 0 = [] ∧ base.pkg.areaOk 0 0 placedTenant .load = false ∧ e.welcome 1 (some 0) = false) := by decide +kernel

/-- A package whose tenant 0 has one leaf of 1 GiB, at 1 GiB. -/
def Giant (p : Pkg) : Prop :=
  (∃ d, p.desc 0 = some d ∧ d.l0 = 0x1000) ∧ word (readMem p.mem 0x1000 8) = 0x2001 ∧ word (readMem p.mem 0x2000 8) = 0x400000FF

/-- Tenant 0 with one leaf of 1 GiB; no task runs on bench 0. -/
noncomputable def giant : State := words (me fun t => { t with task := none }) [(0x2000, 0x400000FF)]

theorem giant_is : Giant giant.pkg := by unfold Giant; decide +kernel

/-- Every byte of its first gigabyte is there, a gigabyte further. -/
theorem giant_place {p : Pkg} (hp : Giant p) (u : Use) (h : u ≠ .fetch) (va : Nat) (hv : va < 2 ^ 30) : p.place 0 va u = some (0x40000000 + va) := by
  obtain ⟨⟨d, hd, hl⟩, h0, h1⟩ := hp
  have hw : p.walk 0 va = .leaf 0x400000FF 0x2000 1 := by
    have e0 : va / 2 ^ 39 = 0 := Nat.div_eq_of_lt (by omega)
    have e1 : va / 2 ^ 30 = 0 := Nat.div_eq_of_lt hv
    have p0 : ((0x2001 : Word).getLsbD 0 = true ∧ malformed 0x2001 0 = false ∧ (0x2001 : Word).getLsbD 1 = false ∧ pteAddr 0x2001 = 0x2000) ∧
        (0x400000FF : Word).getLsbD 0 = true ∧ malformed 0x400000FF 1 = false ∧ (0x400000FF : Word).getLsbD 1 = true := by decide
    simp only [Pkg.walk, hd, hl, walkFrom, levelShift, e0, e1, Nat.zero_mod, Nat.mul_zero, Nat.add_zero, Nat.sub_self, h0, h1, p0, Nat.reduceSub,
      Nat.reduceEqDiff, if_false, if_true, Bool.not_true, Bool.false_eq_true, (by decide : (0 : Nat) = 3 ↔ False)]
  have hb : (word va).toNat = va := by simp [word]; omega
  have hh : bits (word va) 48 16 = 0 := by simp only [bits, hb]; omega
  have ha : pteAddr 1073742079#64 = 0x40000000 := by decide
  have hp : permits 1073742079#64 u true = true := by cases u <;> first | exact absurd rfl h | rfl
  have hx : va % 2 ^ 30 = va := Nat.mod_eq_of_lt hv
  have hy : va % 1073741824 = va := hx
  have hs : assigned (0x40000000 + va) = true := by
    have : 0x40000000 + va < dramEnd := by unfold dramEnd; omega
    simp only [assigned, this, decide_true, Bool.true_or]
  simp [Pkg.place, Pkg.check, hb, hh, hw, inWindowSpace, shelfBase, show ¬ 139637976727552 ≤ va by omega, Pkg.leafOutcome, Leaf.addr, levelShift, ha, hp, hx, hy, hs]

/-- A memory with k pages of N bytes written from 0x40400000 on. -/
noncomputable def savedMem (N : Nat) (f : Nat → Nat) (m : Store Byte) (k : Nat) : Store Byte :=
  (List.range k).foldl (fun m j => writeMem m (0x40400000 + N * j) (f j) N) m

theorem savedMem_succ (N : Nat) (f : Nat → Nat) (m : Store Byte) (k : Nat) :
    savedMem N f m (k + 1) = writeMem (savedMem N f m k) (0x40400000 + N * k) (f k) N := by
  simp only [savedMem, List.range_succ, List.foldl_append, List.foldl_cons, List.foldl_nil]

theorem savedMem_below (N : Nat) (f : Nat → Nat) (m : Store Byte) (k a n : Nat) (h : a + n ≤ 0x40400000) :
    readMem (savedMem N f m k) a n = readMem m a n := by
  induction k with
  | zero => rfl
  | succ k ih => rw [savedMem_succ, readMem_writeMem_ne _ _ _ _ _ _ (.inl (Nat.le_trans h (Nat.le_add_right _ _))), ih]

theorem savedMem_page (N : Nat) (f : Nat → Nat) (m : Store Byte) (k j : Nat) (hf : f j < 256 ^ N) (h : j < k) :
    readMem (savedMem N f m k) (0x40400000 + N * j) N = f j := by
  induction k with
  | zero => omega
  | succ k ih =>
    rw [savedMem_succ]
    by_cases e : j = k
    · subst e; rw [readMem_writeMem, Nat.mod_eq_of_lt hf]
    · have : N * (j + 1) ≤ N * k := Nat.mul_le_mul_left N (by omega)
      rw [readMem_writeMem_ne _ _ _ _ _ _ (.inl (by rw [Nat.mul_succ] at this; omega)), ih (by omega)]

/-- A package whose low memory is that of another is as large. -/
theorem Giant.of {p : Pkg} (h : Giant p) (m : Store Byte) (e : Store Weights) (hm : ∀ a n, a + n ≤ 0x40400000 → readMem m a n = readMem p.mem a n) :
    Giant { p with mem := m, engAway := e } :=
  ⟨h.1, (congrArg word (hm _ _ (by decide))).trans h.2.1, (congrArg word (hm _ _ (by decide))).trans h.2.2⟩

/-- `giant` with an engine of bench 0 saved, with free values from 0 on. -/
noncomputable def engineSaved : Pkg :=
  { giant.pkg with mem := savedMem 65536 (fun j => bytesNat (areaBytes 0 j)) giant.pkg.mem 12, engAway := [(0, ⟨[], [], some 0⟩)] }

theorem areaBytes_length (n j : Nat) : (areaBytes n j).length = 65536 := by rw [areaBytes, List.length_map, List.length_range]
theorem engineSaved_mem : engineSaved.mem = savedMem 65536 (fun j => bytesNat (areaBytes 0 j)) giant.pkg.mem 12 := by
  simp only [engineSaved]

theorem engineSaved_place (j : Nat) (hj : j < 12) : engineSaved.place 0 (engineAt placedTenant 0 j) .load = some (0x40400000 + 65536 * j) := by
  have h : Giant engineSaved := giant_is.of _ _ fun a n h => savedMem_below _ _ _ _ a n h
  have e : engineAt placedTenant 0 j = 0x400000 + 65536 * j := by simp only [engineAt, placedTenant, Nat.zero_add, Nat.mul_zero, Nat.add_zero]
  rw [e, giant_place h .load (by decide) _ (by omega), ← Nat.add_assoc]

/-- A saved engine whose area software has left as it was. -/
theorem wit_RegionsAndSwitch_engine : (engineSaved.engAway.get ⟨[], [], none⟩ (8 * 0 + 0)).bytes = some 0 ∧
    engineSaved.engineLost 0 0 placedTenant .load = none ∧
    ∀ j, j < 12 → readMem engineSaved.mem ((engineSaved.place 0 (engineAt placedTenant 0 j) .load).getD 0) 65536 = bytesNat (areaBytes 0 j) := by
  refine ⟨rfl, ?_, fun j hj => ?_⟩
  · refine List.find?_eq_none.mpr fun va hva => ?_
    obtain ⟨j, hj, rfl⟩ := List.mem_map.mp hva
    rw [engineSaved_place j (List.mem_range.mp hj)]
    exact fun h => Bool.noConfusion h
  · have h := bytesNat_lt (areaBytes 0 j)
    rw [areaBytes_length] at h
    rw [engineSaved_place j hj, engineSaved_mem]
    exact savedMem_page 65536 (fun j => bytesNat (areaBytes 0 j)) giant.pkg.mem 12 j h hj

/-- Bytes above every listed address read 0. -/
theorem readMem_unlisted (m : Store Byte) (b : Nat) (h : ∀ e ∈ m, e.1 < b) (a n : Nat) (ha : b ≤ a) : readMem m a n = 0 := by
  have g : ∀ x, b ≤ x → m.get 0 x = 0 := by
    intro x hx
    induction m with
    | nil => rfl
    | cons e r ih =>
      have := h e (by simp)
      rw [Store.get, if_neg (by omega)]
      exact ih fun e' he' => h e' (by simp [he'])
  induction n generalizing a with
  | zero => rfl
  | succ n ih => rw [readMem, g a ha, ih (a + 1) (by omega)]; rfl

/-- Switch areas whose every byte is there, apart from the shelf, for a core with nothing put away. -/
theorem wit_RegionsAndSwitch_cores : (∀ u, u ≠ .fetch → ∀ o, o < 0x70000 → giant.pkg.place 0 (switchAt placedTenant 0 o) u = some (0x40000000 + o)) ∧
    0x40000000 + 0x70000 ≤ shelfOf 0 ∧ (giant.pkg.away.get Away.init (0 * 512 + 0)).sleepers = [] ∧
    (giant.pkg.away.get Away.init (0 * 512 + 0)).core.waiters = [] ∧ (∀ i, i < 8 → (giant.pkg.core 0).signals.get 0 i < 2 ^ 32) ∧
    (∀ n, n < 96 → (readMem giant.pkg.mem (0x40000000 + 0x61020) 16).testBit n = false ∧ readMem giant.pkg.mem (shelfOf 0 + 4096 * n) 4096 = 0) := by
  have hm : ∀ e ∈ giant.pkg.mem, e.1 < 0x40000000 := by decide +kernel
  refine ⟨fun u hu o ho => ?_, by decide +kernel, by decide +kernel, by decide +kernel, by decide +kernel, fun n _ => ⟨?_, ?_⟩⟩
  · have e : switchAt placedTenant 0 o = o := by simp only [switchAt, placedTenant]; omega
    rw [e]; exact giant_place giant_is u hu o (by omega)
  · rw [readMem_unlisted _ _ hm _ _ (by omega)]; exact Nat.zero_testBit n
  · refine readMem_unlisted _ _ hm _ _ (by unfold shelfOf shelfBase; omega)

/-- A switch from one tenant to another, from a tenant whose descriptor is gone, and refused; a valid region that changes its kind; an engine
with something to save, and ops to stop and to bring back. -/
theorem wit_RegionsAndSwitch_more : let two := ox (pk giant fun p => { p with descs := p.descs.set none 1 (some placedTenant) }) fun o => { o with lc := 2 }
    let gone := pk giant fun p => { p with descs := [] }
    let e := pk giant fun p => p.onBench 0 fun b => { b with wdirty := [1] }
    let w := pk (cycles 2) fun p => { p with descs := p.descs.set none 0 (some { placedTenant with imgw := [(1, 1)] }) }
    let at_ := fun (g : Nat) => words w [(regionAddr 0 0, imageBase + 0x1000), (regionAddr 0 0 + 8, g * 2 ^ 62 + 2 ^ 32 + 8)]
    (two.welcome 0 (some 1) = true ∧ (two.pkg.bench 0).tenant = some 0 ∧ two.busyThreads 0 = [] ∧ two.pkg.benchOps 0 = [] ∧
      two.pkg.areaReady 0 .store (some 0) = true ∧ two.pkg.areaReady 0 .load (some 1) = true ∧ two.pkg.spares = [] ∧ two.pkg.desc 1 = some placedTenant) ∧
    ((gone.pkg.bench 0).tenant = some 0 ∧ gone.pkg.desc 0 = none ∧ gone.welcome 0 none = true ∧ gone.busyThreads 0 = [] ∧ gone.pkg.benchOps 0 = []) ∧
    (two.welcome 1 (some 1) = false ∧ 64 ≤ 64) ∧
    (((at_ 2).pkg.region 0 0).kind = 2 ∧ (at_ 2).pkg.regionOk 0 1 ((at_ 2).pkg.region 0 0).base ((at_ 2).pkg.region 0 0).len = true ∧
      (words (at_ 2) [(regionAddr 0 0, imageBase + 0x2000)]).pkg.regionOk 0 1 ((words (at_ 2) [(regionAddr 0 0, imageBase + 0x2000)]).pkg.region 0 0).base 8 = false) ∧
    ((e.pkg.bench 0).wdirty ≠ [] ∧ e.pkg.engineLost 0 0 placedTenant .store = none ∧ (e.pkg.engAway.get ⟨[], [], none⟩ (8 * 0 + 0)).bytes = none) ∧
    ((op 0 0 2 2).ended = false ∧ (op 0 0 2 2).homes.length < 3 ∧ base.pkg.place 0 (journalAt placedTenant 0 0) .store = some 0x10000) ∧
    (let o := { op 0 0 2 1 with written := [0, 0, 0, 0, 0, 0, 1, 0] }
     let s := pk (words base [(0x10030, 1)]) fun p => p.setOp (outKey 0 0) (some o)
     s.pkg.place 0 (journalAt placedTenant 0 0) .load = some 0x10000 ∧ s.pkg.op (outKey 0 0) = some o ∧ o.ended = false ∧
       o.written = (List.range 8).map (fun j => s.pkg.rd (0x10000 + 8 * j)) ∧ s.pkg.rd (0x10000 + 48) ≠ 0) := by decide +kernel

/-! ### Time, recovery, the pair, Onyx and debugging -/

/-- A step that passes starts, a slew at its edge, a class that may start, one that runs, budgets, graces and the epoch. -/
theorem wit_TimeAndClasses : let s := clocked 0 0
    let b := pk base fun p => { p with budgets := [(0, some ⟨0, false⟩)] }
    let g := me fun t => { t with stopDue := true, stopAt := 0 }
    (s.replaying = false ∧ (10000 : Int).natAbs ≤ 10000 ∧ (10000 : Int) < (-10001 : Int).natAbs ∧ (∀ n, n < 8 → (base.pkg.cls n).en = false)) ∧
    ((∀ m, m < 8 → m ≠ 0 → (s.pkg.cls m).en = false) ∧ (s.pkg.cls 0).en = true ∧ (s.pkg.cls 0).started = true ∧
      (s.pkg.cls 0).cyc.toNat < (8 * 31250 - (s.pkg.cls 0).phase) / (s.pkg.cls 0).period) ∧
    ((0x8001000000000000 : Word).getLsbD 63 = true ∧ (base.pkg.cls 0).en = false) ∧
    (b.pkg.budgets.get none (0 * 1024 + 0) = some ⟨0, false⟩) ∧
    (g.me.stopDue = true ∧ g.me.task.isSome = true ∧ g.me.isLeaving = false ∧ g.tick < g.me.stopAt + 16000 ∧ g.me.stopAt + 16000 ≤ { g with tick := 16000 }.tick) ∧
    (base.tick < base.epochTick + 400 ∧ base.epochTick + 400 ≤ { base with tick := 400 }.tick) ∧ base.pair.role ≠ 2 := by decide +kernel

/-- A class that may be enabled and one that may not, a stop that wakes a record of each kind, outstanding epochs, and a standby's V in each state. -/
theorem wit_TimeAndClasses_more : let v : Word := 0x8008000000000000
    let p : Word := 1000 * 2 ^ 30 + 1000
    let s := { pk base (fun q => { q with classes := [(0, { Class.init with pub := p })] }) with synced := true }
    let z := fun (st k : Nat) => pk (clocked 5 0) fun q => { q with sleepers := [⟨0x7F0000004040, 0, st, k⟩] }
    let a : Access := { acc (.store 5) [] none with acc := [(⟨0x20300, 1, 0⟩, 512, 7, 1)] }
    let st := fun (l : List (Nat × Nat × Option (List Nat))) => { base with pair := { base.pair with role := 2, pendingV := l }, flight := [a] }
    (s.synced = true ∧ v.getLsbD 63 = true ∧ (s.pkg.cls 0).en = false ∧ (1 ≤ bits v 48 15 ∧ bits v 48 15 ≤ 32000 ∧ bits v 0 30 < bits v 48 15 * 31250) ∧
      (bits (s.pkg.cls 0).pub 0 30 < bits v 48 15 * 31250 ∧ 1000 ≤ bits (s.pkg.cls 0).pub 30 30 ∧ bits (s.pkg.cls 0).pub 30 30 ≤ bits (s.pkg.cls 0).pub 0 30) ∧
      base.synced = false) ∧
    (((clocked 5 0).pkg.cls 0).en = true ∧ ((z 11 0).pkg.record 0x7F0000004040).cls = 0 ∧ ((z 6 5).pkg.record 0x7F0000004040).state ≠ 10 ∧
      ((z 6 5).pkg.useGen 0 0 0).outdated 0 0x7F0000004040 = false) ∧
    (base.pair.role ≠ 2 ∧ (flying a).flight = [a] ∧ 1 ≤ (flying a).pkg.ecur ∧ base.flight = []) ∧
    ((st [(0, 5, some [])]).pair.role = 2 ∧ a.id ∉ ([] : List Nat) ∧ (st [(0, 5, none)]).pairV (0, 5, none) = (0, 5, some [a.id]) ∧
      (st [(1, 5, none)]).pairV (1, 5, none) = (1, 5, none) ∧ a.acc ≠ []) ∧
    ((base.pkg.cls 0).started = false ∧ ((clocked 5 0).pkg.cls 0).started = true) := by decide +kernel

/-- Egress entry 0 takes part with class 0, in cycle 5 at its start. -/
noncomputable def egr : State := clocked 5 (250000 * 5) fun p =>
  { p with pubs := [(0, 0)], mem := writeMem (writeMem p.mem (imageBase + 0xF08000) (2 ^ 63 + 2 ^ 28 + 64) 8) (regionAddr 0 0 + 8) (2 * 2 ^ 62 + 1 * 2 ^ 32 + 8) 8 }

/-- Ingress entry 2 with word w: region 0 of class 0 takes 8 bytes of the frames of a filter, between the times of a gate. -/
noncomputable def mapped (w : Nat) : State := clocked 0 0 fun p =>
  { p with filters := [(2, some ⟨5, 3, false, 0, 8, none⟩)], gates := [(0, some ⟨0, [(0, 10)]⟩)],
           mem := writeMem (writeMem p.mem (imageBase + 0xF00040) w 8) (regionAddr 0 0 + 8) (2 ^ 62 + 8) 8 }

/-- The word of an entry that is enabled, of 8 bytes. -/
def entryOn : Nat := 2 ^ 63 + 8 * 2 ^ 32

/-- A frame of port 1 with a payload. -/
def frame (l : List Byte) : Frame := ⟨1, 5, 0, some 3, none, 64, true, 0, 0, l⟩

/-- Frames refused, closed out, misfitting, taken, and one that no filter takes. -/
theorem wit_ScanCycle_in : let f := frame [1, 2, 3, 4, 5, 6, 7, 8]
    let q : StreamFilter := ⟨5, 3, false, 0, 8, none⟩
    ((mapped entryOn).replaying = false ∧ f.fcsOk = true ∧ { f with fcsOk := false }.fcsOk = false ∧ f.size ≤ 1522 ∧ ¬{ f with size := 1523 }.size ≤ 1522 ∧
      ((mapped entryOn).pkg.recover q f).isSome = true ∧ (clocked 0 0).pkg.filterFor f = none ∧ (mapped entryOn).pkg.filterFor f = some (2, q)) ∧
    (let r := { q with recovery := some 0 }
     let s := pk (mapped entryOn) fun p => { p with recoveries := [(0, some ⟨16, 100, some 7, [7], 0⟩)] }
     s.pkg.recover r { f with rtag := some 7 } = none ∧ (s.pkg.recover r { f with rtag := some 8 }).isSome = true) ∧
    (f.payload.length ≤ q.maxSdu ∧ q.maxSdu < (0 :: f.payload).length ∧ ((mapped entryOn).pkg.rd (imageBase + 0xF00000 + 32 * 2)).getLsbD 63 = true ∧
      ((mapped 0).pkg.rd (imageBase + 0xF00000 + 32 * 2)).getLsbD 63 = false ∧ q.recovery = none) ∧
    ((mapped entryOn).pkg.gateAt 0 79 = true ∧ (mapped entryOn).pkg.gateAt 0 80 = false ∧ ((mapped entryOn).pkg.region 0 0).kind = 1 ∧
      ((mapped entryOn).pkg.region 0 0).len = 8 ∧ 0 + 8 ≤ f.payload.length ∧ ¬0 + 8 ≤ (frame [1]).payload.length) := by decide +kernel

/-- Cycle 0 of `clocked` at the end of its first period, its instant made, with the sleepers given. -/
noncomputable def ended (l : List Sleeper) (f : Pkg → Pkg := id) : State :=
  clocked 0 250000 fun p => f { p with classes := [(0, { p.cls 0 with cutDone := some 0 })], sleepers := l }

/-- A start before its time, over an instant still to be made, and with nothing to do, one that sleeps on the cycle, one input region
or (`released1`) one release. -/
theorem wit_ScanCycle_start : let c := (ended []).pkg.cls 0
    let z : Sleeper := ⟨0x7F0000004000, 0, 11, 0⟩
    let y : Sleeper := ⟨0x7F0000004000, 0, 6, 1⟩
    let allMade := fun (s : State) => (s.pkg.cls 0).cutDone = some 0 ∧ s.pkg.snaps = []
    (c.en = true ∧ c.started = true ∧ allMade (ended []) ∧ (ended []).pkg.inputRegions 0 = [] ∧ (ended []).pkg.entriesOf 0 = [] ∧
      (ended []).pkg.sleepers = [] ∧ (clocked 0 249999).time < c.phase + 1 * c.period ∧ c.phase + 1 * c.period ≤ (ended []).time ∧
      ((clocked 0 0).pkg.cls 0).cutDone = none) ∧
    ((ended [z]).pkg.sleepers = [z] ∧ (z.state = 11 ∧ z.key = 0) ∧ (y.state = 6 ∧ ((ended [y]).pkg.record y.slot).cls = 0 ∧ (1 - word y.key).toNat < 2 ^ 63) ∧
      ((ended [z]).pkg.noteTables.record z.slot).state ≠ 10 ∧ (ended [z]).pkg.inputRegions 0 = [] ∧ (ended [z]).pkg.entriesOf 0 = []) ∧
    (let t := pk (ended []) fun p => { p with descs := [(0, some placedTenant)], benches := base.pkg.benches, mem := base.pkg.mem }
     (t.pkg.useGen (slotCore z.slot / 8) z.tenant 0).outdated z.tenant z.slot = false) ∧
    (let l := ended [] fun p => { (mapped entryOn).pkg with classes := p.classes, filling := [⟨0, 0, 2, 0, 250000, [1, 2, 3, 4, 5, 6, 7, 8]⟩] }
     allMade l ∧ l.pkg.inputRegions 0 = [(0, 0)] ∧ l.pkg.filling = [⟨0, 0, 2, 0, 250000, [1, 2, 3, 4, 5, 6, 7, 8]⟩] ∧ (l.pkg.cls 0).startOf 1 = 250000 ∧ l.pkg.sleepers = [] ∧
       (l.pkg.region 0 0).base + 8 ≤ imageBase + 0xFF0000 ∧ l.pair.oldBanks = [] ∧
       (l.pkg.latch 0 0 250000 1 (some [1, 2, 3, 4, 5, 6, 7, 8])).entriesOf 0 = []) := by decide +kernel

/-- What entry 0 sends at the instant of cycle 5. -/
def snap (stamp : Word) : Snapshot := ⟨0, 0, 0, 0, 5, [1, 2, 3, 4, 5, 6, 7, 8], stamp, 0, true⟩

/-- `egr` past its cut-off, at the instant, with the horizon of class 0 and what was last committed. -/
noncomputable def instant (H : Nat) (stamp : Word) (last : Option (List Byte × Word)) : State :=
  { pk egr (fun p => { p with snaps := [snap stamp], horizons := [(0, H)], committed := [(0, last)], splits := [(0, some 1)],
                              classes := [(0, { p.cls 0 with cutDone := some 5 })] }) with time := 250000 * 5 + 8000 }

/-- The cut-off and the instant before and after their time, with no entry and with one: committed, the last committed, too old and none. -/
theorem wit_ScanCycle_out : let c := egr.pkg.cls 0
    let s := instant 6 4 none
    (c.started = true ∧ c.cutDone = none ∧ (clocked 5 0).time + c.cut < c.startOf 5 + c.puboff ∧ c.startOf 5 + c.puboff ≤ egr.time + c.cut ∧
      (∀ y, y < 256 → egr.pkg.takesPart 0 y = decide (y = 0)) ∧ (∀ y, y < 256 → (clocked 5 (250000 * 5)).pkg.takesPart 0 y = false) ∧ egr.pkg.snaps = [] ∧
      ((egr.pkg.egress 0).ten, (egr.pkg.egress 0).region) ∈ egr.pkg.pubs) ∧
    (s.pkg.snapsOf 0 5 = [snap 4] ∧ s.pkg.takesPart 0 0 = true ∧ s.pair.role ≠ 2 ∧ s.pair.sentCrcs = [] ∧ egr.pkg.snapsOf 0 5 = [] ∧
      s.pkg.sendable 0 = true ∧ (s.pkg.cls 0).cutDone = some 5 ∧ (s.pkg.cls 0).startOf 5 + (s.pkg.cls 0).puboff ≤ s.time) ∧
    ((snap 4).cycle < s.pkg.horizons.get 0 0 ∧ ¬(snap 4).cycle < (instant 5 4 none).pkg.horizons.get 0 0) ∧
    (word 5 - (4 : Word)).toInt ≤ ((s.pkg.region 0 0).limit : Int) ∧ ¬(word 5 - (3 : Word)).toInt ≤ ((s.pkg.region 0 0).limit : Int) ∧
    (instant 5 4 (some ([1], 4))).pkg.committed.get none 0 = some ([1], 4) ∧ (instant 5 4 none).pkg.committed.get none 0 = none ∧
    (s.pkg.splits.get none 0 = some 1 ∧ s.pkg.frameLen 0 ≤ portLimit 1) := by decide +kernel

/-- A port with a frame that waits behind its gate, one on a busy wire, one that may go and one that is late. -/
theorem wit_ScanCycle_port : let f : SentFrame × Nat × Nat := (⟨1, 0, 5, []⟩, 0, 0)
    let q : Port := { Port.init with waiting := [f] }
    let s := { pk base (fun p => { p with ports := [(1, q)] }) with time := 321 }
    s.pkg.ports.get Port.init 1 = q ∧ f.2.2 ≤ s.time ∧ q.isOpen f.2.1 321 (sendTime 1 8) = true ∧ q.wireFree 1 f.2.1 321 = true ∧
      { q with wire := [(0, 0, 1000)] }.wireFree 1 f.2.1 321 = false ∧ ¬(322 ≤ s.time) ∧ f.2.2 + 320 < s.time ∧ ¬f.2.2 + 320 < 320 := by decide +kernel
/-- An entry of the tenant's table that each start of class 0 releases. -/
noncomputable def released1 : State :=
  words (ended [] fun p => { p with descs := [(0, some { placedTenant with ttbase := 0x10000 })], benches := base.pkg.benches })
    [(0x1000, 0x2001), (0x2000, 0x3001), (0x3000, 0x4001), (0x4008, 0x200FF), (0x20000, 0xC000000000000000)]

theorem wit_ScanCycle_release : (released1.pkg.entryOf 0 0).map (fun e => (e.cls, e.cyc, e.blk, e.budget)) = some (0, true, false, 0) ∧
    ((released1.pkg.cls 0).cutDone = some 0 ∧ released1.pkg.snaps = [] ∧ released1.pkg.inputRegions 0 = [] ∧ released1.pkg.sleepers = []) ∧
    released1.pkg.inMap 0 0 = true ∧ released1.pkg.liveRel = [] ∧ (released1.pkg.core 0).releases = [] := by decide +kernel

/-- A mark open since tick 0 that waits for the threads given. -/
noncomputable def openMark (threads : List Nat) : Mark := ⟨0, threads, [], [], base.pkg, []⟩

/-- A mark due, one open with nothing and something to cross, one held for 1 ms, a journal that is full and a restore under way. -/
theorem wit_Recovery : let s := { base with time := 64 * 250000 }
    let o := { base with marks := [openMark [0], openMark []], tick := 1600000 }
    (base.time / (base.pair.mper * 250000) * (base.pair.mper * 250000) ≤ base.markAt ∧ s.markAt < s.time / (s.pair.mper * 250000) * (s.pair.mper * 250000) ∧
      (s.thr 0).task.isSome = true) ∧
    (base.marks = [] ∧ o.marks = [openMark [0], openMark []] ∧ (openMark [0]).threads ≠ [] ∧ (openMark []).threads = [] ∧ (openMark []).ops = [] ∧ (openMark []).msgs = []) ∧
    ((openMark [0]).opened + 1600000 ≤ o.tick ∧ 0 ∈ (openMark [0]).threads ∧ ¬(openMark [0]).opened + 1600000 ≤ 1599999) ∧
    (base.disarmed = false ∧ { base with disarmTill := 1 }.disarmed = true ∧ base.restoring = false ∧ { base with restoreTill := 1 }.restoring = true) ∧
    (∀ x ∈ base.pkg.benches, x.2.switching = false) := by decide +kernel

/-- No other thread than 0 runs a task in `base`. -/
theorem base_alone (n : Nat) (h : n ≠ 0) : (base.thr n).task = none := by
  have e : ∃ t, base.threads = [(0, t)] := ⟨_, rfl⟩
  obtain ⟨t, e⟩ := e
  have g : base.thr n = Thread.init := by unfold State.thr; rw [e]; simp only [Store.get, Ne.symm h, if_false]
  rw [g]; rfl

theorem wit_PowerAndResets : let idle := pk base fun p => p.onBench 63 fun b => { b with gated := false }
    let wake := pk base fun p => p.onBench 63 fun b => { b with waking := true }
    ((idle.pkg.bench 63).gated = false ∧ (idle.pkg.bench 63).keep = false ∧ (idle.pkg.bench 63).waking = false ∧ (idle.pkg.bench 63).switching = false ∧
      idle.pkg.liveBeryl 63 = 0 ∧ (idle.pkg.bench 63).tbuf = [] ∧ idle.hasWork 63 = false) ∧
    ((wake.pkg.bench 63).gated = true ∧ (wake.pkg.bench 63).waking = true ∧ (wake.pkg.bench 63).tenant = none ∧ wake.pkg.spares = []) ∧
    (((pk idle fun p => p.onBench 63 fun b => { b with tbuf := [[1]] }).pkg.bench 63).tbuf ≠ [] ∧ 109 < 110 ∧ (110 ≤ 110 ∧ 3 ∈ { idle with hot := [3] }.hot)) ∧
    (3 < 4 ∧ (114 < 115 ∧ 3 ∉ idle.hot) ∧ 63 / 16 = 3 ∧ (∀ c, c < 64 → 63 < c → (idle.pkg.bench c).gated = true) ∧ idle.busyThreads 63 = []) ∧
    ((idle.pkg.bench (511 / 8)).tenant = none ∧ (idle.pkg.core 511).hwDeque = []) ∧
    ((base.pkg.bench 0).tenant.isSome = true ∧ (∀ i, i < 4 → (base.thr i).park ≠ some .doubleFault)) ∧
    (idle.pkg.benchOps 63 = [] ∧ (idle.pkg.bench 63).tenant = none ∧ ∀ i, i < 8 → (idle.pkg.core (8 * 63 + i)).hwDeque = []) ∧
    (∀ n, coreOf n = 511 → (idle.thr n).task = none) ∧ ∀ n, n / 32 = 63 → (idle.thr n).task = none :=
  ⟨by decide +kernel, by decide +kernel, by decide +kernel, by decide +kernel, by decide +kernel, by decide +kernel, by decide +kernel,
    fun n h => base_alone n (by rintro rfl; exact absurd h (by decide)), fun n h => base_alone n (by omega)⟩
theorem wit_PowerCap : (450000 < 450001 ∧ 429999 < 430000 ∧ 430000 ≤ 450000) ∧ 64 < bits (base.pkg.pgov.get pgovReset 3) 16 12 := by decide +kernel

/-- A flit header with the next sequence number, and one with another. -/
def hdr (seq : BitVec 32) : FlitHdr := ⟨seq, 0, false, true, true⟩

theorem wit_Link : let P := base.pair
    let f : SentFlit := ⟨1, 1, 0, [], 0⟩
    ((hdr 0).crcOk = true ∧ (hdr 0).known = true ∧ (hdr 0).seq.toNat = P.rxSeq ∧ (hdr 1).seq.toNat ≠ P.rxSeq ∧ (hdr 0).nak = false ∧ P.backlog = [] ∧ P.unacked = []) ∧
    (P.role ≠ 2 ∧ { P with role := 2 }.role = 2 ∧ P.lost = false ∧ P.oldBanks = [] ∧ P.sentCrcs = [] ∧ P.retraining = false) ∧
    ([(5, 0, 0, [(1 : Byte)])].find? (fun b => b.1 == 5 && b.2.1 == 0 && b.2.2.1 == 0) = some (5, 0, 0, [1]) ∧ 32 ≤ 32) ∧
    (P.unacked.length < 8192 ∧ P.heartAt + P.hbi * 1600 ≤ 16000 ∧ 15999 < P.heartAt + P.hbi * 1600) ∧
    (P.aseqAt + 3200 ≤ 3200 ∧ 3199 < P.aseqAt + 3200 ∧ [f] ≠ [] ∧ { f with resends := 15 }.resends < 16 ∧ 16 ≤ { f with resends := 16 }.resends ∧ { P with retraining := true }.retraining = true) := by decide +kernel
theorem wit_Switchover : let s := base
    let P := s.pair
    (P.rxAt + P.loss * 1600 ≤ 64000 ∧ ¬P.rxAt + P.loss * 1600 ≤ 63999 ∧ P.peer = false ∧ { P with peer := true, role := 1 }.role = 1) ∧
    ({ P with inbox := [(1, ⟨2, 0, 0, 0⟩)] }.inbox ≠ [] ∧ P.inbox = [] ∧ P.hadHeart = false ∧ s.stopped = false ∧ P.unacked = [] ∧ P.backlog = []) ∧
    ({ P with lagTicks := [9, 3] }.lagTicks.getLast? = some 3 ∧ 3 + P.lagmax * 1600 < 3 + 800001 ∧ 3 + 800000 ≤ 3 + P.lagmax * 1600 ∧ { P with role := 1, ready := true }.ready = true) := by decide +kernel

/-- Steward 0's doorbell has rung; its block, in the stewards' pages, asks for an operation with a length. -/
noncomputable def asking (op len : Nat) (f : Onyx → Onyx) : State :=
  words (ox (pk base fun p => { p with descs := p.descs.set none 8 (some placedTenant) }) fun o => f { o with busy := [(0, 1)] })
    [(0x4000, 0x200000000100FF), (0x10000, op + len * 65536), (0x10008, 0x100), (0x10010, 0x400)]

/-- A walk of an address of the first page is the walk of address 0. -/
theorem walkFrom_low (m : Store Byte) (va : Nat) (h : va < 65536) (n : Nat) : ∀ t, walkFrom m va t n = walkFrom m 0 t n := by
  have hs : ∀ l, l ≤ 3 → va / 2 ^ levelShift l = 0 := fun l hl => Nat.div_eq_of_lt (by
    match l, hl with
    | 0, _ => simp only [levelShift]; omega
    | 1, _ => simp only [levelShift]; omega
    | 2, _ => simp only [levelShift]; omega
    | 3, _ => simp only [levelShift]; omega)
  have h16 : va / 2 ^ 16 = 0 := Nat.div_eq_of_lt (by omega)
  induction n with
  | zero => intro t; rfl
  | succ n ih => intro t; simp only [walkFrom, ih, h16, hs (3 - n) (by omega), Nat.zero_div, Nat.zero_mod]

/-- Pinned bytes are there where each is. -/
theorem pinnedBytes_isSome (p : Pkg) (va n : Nat) (h : ∀ i, i < n → (p.pinnedAt (va + i)).isSome) : (p.pinnedBytes va n).isSome := by
  unfold Pkg.pinnedBytes
  have : ∀ l : List Nat, (∀ i ∈ l, i < n) → (l.foldr (fun i (r : Option (List Byte)) => match p.pinnedAt (va + i), r with
      | some a, some bs => some (p.mem.get 0 a :: bs)
      | _, _ => none) (some [])).isSome := by
    intro l
    induction l with
    | nil => intro _; rfl
    | cons i l ih =>
      intro hl
      obtain ⟨a, ha⟩ := Option.isSome_iff_exists.mp (h i (hl i (by simp)))
      obtain ⟨bs, hb⟩ := Option.isSome_iff_exists.mp (ih fun j hj => hl j (by simp [hj]))
      rw [List.foldr_cons, ha, hb]; rfl
  exact this _ fun i hi => List.mem_range.mp hi

/-- The stewards' first page is pinned in `asking`. -/
theorem asking_pinned (op len : Nat) (f : Onyx → Onyx) (h : ((asking op len f).pkg.pinnedAt 0).isSome) (va n : Nat) (hn : va + n ≤ 65536) :
    ((asking op len f).pkg.pinnedBytes va n).isSome := by
  refine pinnedBytes_isSome _ _ _ fun i hi => ?_
  have e : (asking op len f).pkg.walk 8 (va + i) = (asking op len f).pkg.walk 8 0 := by
    unfold Pkg.walk
    split
    · exact walkFrom_low _ _ (by omega) _ _
    · rfl
  unfold Pkg.pinnedAt at h ⊢
  rw [e]
  split at h <;> simp_all

/-- Requests in and out of form, in each life-cycle state; what `Config.pssVerify` and `Config.oaepDecrypt` answer is free, so no
state can be shown to pass those two checks. -/
theorem wit_OnyxRequests : let s := fun (op len : Nat) => asking op len fun x => { x with lc := 2 }
    let a := fun (s : State) (op len : Nat) => bits (s.blockWord 0 0) 0 8 = op ∧ bits (s.blockWord 0 0) 8 8 = 0 ∧ bits (s.blockWord 0 0) 16 16 = len
    (s 1 448).onyx.serving = some 0 ∧ ((s 1 448).block 0 = some 0x10000 ∧ (words (s 1 448) [(0x4000, 0x100FF)]).block 0 = none) ∧ a (s 1 448) 1 448 ∧ a (s 2 0) 2 0 ∧ a (s 3 0) 3 0 ∧ a (s 4 32) 4 32 ∧ a (s 5 384) 5 384 ∧ a (s 6 0) 6 0 ∧ a (s 7 0) 7 0 ∧
    (bits ((s 1 447).blockWord 0 0) 0 8 = 1 ∧ bits ((s 1 447).blockWord 0 0) 16 16 ≠ 448 ∧ bits ((s 0 0).blockWord 0 0) 0 8 = 0 ∧ 7 < bits ((s 8 0).blockWord 0 0) 0 8) ∧
    (((s 1 448).blockWord 0 1).toNat % 64 = 0 ∧ (s 1 448).pkg.pinnedBytes 0x10000 1 = none) ∧
    ((s 3 0).onyx.present = 0 ∧ (asking 3 0 fun x => { x with keys := [(3, [1])] }).onyx.present ≠ 0 ∧ (s 3 0).onyx.pending = none ∧
      (asking 3 0 fun x => { x with pending := some 7 }).onyx.pending = some 7) ∧
    ((asking 4 32 fun x => { x with lc := 4 }).onyx.lc = 4 ∧ (s 4 32).onyx.lc ≠ 0 ∧ (s 4 32).onyx.lc ≠ 4) ∧
    (asking 6 0 fun x => { x with lc := 1 }).onyx.lc = 1 ∧
    (asking 7 0 fun x => { x with lc := 0 }).onyx.lc = 0 ∧
    ((s 3 0).onyx.burning = false ∧ (let b := fun (lc : Nat) => asking 3 0 fun x => { x with lc := lc, burning := true }
      (b 2).onyx.burning = true ∧ (b 2).onyx.serving = some 0 ∧ (b 2).onyx.lc ≠ 3 ∧ (b 3).onyx.lc = 3)) ∧
    ((asking 5 384 fun x => { x with lc := 2, identity := false }).onyx.identity = false ∧ (asking 5 384 fun x => { x with lc := 2, identity := true }).onyx.identity = true) := by decide +kernel
/-- The token, the nonce, the report's place and the wrapped key are there. -/
theorem wit_OnyxRequests_pinned : let P := (asking 4 32 fun x => { x with lc := 2 }).pkg
    (P.pinnedBytes 0x100 448).isSome = true ∧ (P.pinnedBytes 0x100 32).isSome = true ∧ (P.pinnedBytes 0x400 704).isSome = true ∧ (P.pinnedBytes 0x400 384).isSome = true :=
  have h : ((asking 4 32 fun x => { x with lc := 2 }).pkg.pinnedAt 0).isSome := by decide +kernel
  ⟨asking_pinned _ _ _ h _ _ (by decide), asking_pinned _ _ _ h _ _ (by decide), asking_pinned _ _ _ h _ _ (by decide), asking_pinned _ _ _ h _ _ (by decide)⟩

/-- Marks with and without an image, log segments for a host, a standby that cannot restore, a rollback and a power loss with nothing being burnt. -/
theorem wit_Recovery_more : let host := pk base fun p => { p with descs := p.descs.set none 0 (some { placedTenant with mode := 4 }) }
    ((openMark []).image.isSome = true ∧ { openMark [] with image := none }.image = none ∧ (openMark [0]).threads ≠ []) ∧
    ((∀ t, t < 8 → base.pkg.assisted t 2 = false) ∧ host.pkg.assisted 0 2 = true) ∧
    ({ base with disarmTill := 1, pair := { base.pair with role := 2 } }.disarmed = true ∧ base.disarmed = false ∧ base.restoring = false) ∧
    (base.onyx.burning = false ∧ base.onyx.serving = none) ∧
    (let s := asking 3 0 fun x => { x with lc := 2, pending := some 7, burning := true }
     s.onyx.serving = some 0 ∧ s.onyx.pending = some 7 ∧ s.onyx.burning = true) ∧
    ((asking 1 448 fun x => { x with lc := 2 }).onyx.serving = some 0 ∧ bits ((asking 1 448 fun x => { x with lc := 2 }).blockWord 0 0) 0 32 ≠ 3) ∧
    (let s := asking 3 0 fun x => { x with lc := 2, pending := some 7 }
     bits (s.blockWord 0 0) 0 32 = 3 ∧ s.onyx.present = 0) ∧ (ox base fun o => { o with recovery := true }).onyx.recovery = true := by decide +kernel

/-- A core whose one task is to be reset, with a handler for it and with none, and a bench with an op. -/
theorem wit_PowerAndResets_more : let t := fun (valid : Nat) => words (pk base fun p => p.onBench 0 fun b => { b with tenant := none }) [(0x1FFC0, valid), (0x1FFC8, 0)]
    let q := fun (valid : Nat) => (t valid).pkg.endRecord 0 placedTask.slot 10
    let dead := me fun t => { t with park := some .doubleFault }
    let o := pk base fun p => p.setOp (1024 * 63) (some (op 0 0 2 2))
    ((t 0).me.task = some placedTask ∧ ((t 0).pkg.bench 0).tenant = none ∧ (t 0).replaying = false ∧ (t 0).flight = [] ∧ ((t 0).pkg.core 0).hwDeque = [] ∧
      (t 0).pkg.opsOf 0 placedTask.slot = [] ∧ placedTask.link = 0 ∧ placedTask.slot ≠ 0 ∧ ((t 0).pkg.core (slotCore placedTask.slot)).launches = []) ∧
    ((q 0).entryOf 0 1023 = none ∧ ((q 0x8000000000000000).entryOf 0 1023).isSome = true) ∧
    ((dead.thr 0).park = some .doubleFault ∧ dead.onyx.dbgOpen = false) ∧
    (o.pkg.benchOps 63 ≠ [] ∧ (o.pkg.bench 63).tenant = none ∧ (o.pkg.bench 63).switching = false ∧ (o.thr 2016).task = none) ∧
    ((ox base id).hot = [] ∧ ¬(110 : Nat) < 110 ∧ (109 : Nat) < 110 ∧ { base with hot := [3] }.hot = [3]) ∧
    ((pk base fun p => p.onBench 63 fun b => { b with switching := true }).pkg.bench 63).switching = true := by decide +kernel

theorem wit_PowerAndResets_alone : ∀ m, m ≠ 0 → coreOf m = 0 → (base.thr m).task = none := fun m h _ => base_alone m h

/-- A standby that has caught up and one that has not, a HEART that ends READY for good, a lone CRC that agrees and one that does not. -/
theorem wit_Link_more : let P := base.pair
    let up := { P with role := 2, peerMark := 3, stored := 3 }
    ((up.role = 2 ∧ up.lost = false ∧ up.peerMark ≠ 0 ∧ up.peerMark ≤ up.stored ∧ up.inbox = []) ∧ ¬(P.peerMark ≠ 0)) ∧
    ({ P with ready := true }.ready = true ∧ P.ready = false ∧ P.peerMark = 0) ∧
    ({ P with sentCrcs := [(1, 5, 7)] }.sentCrcs = [(1, 5, 7)] ∧ 7 ≠ (8 : BitVec 32).toNat) ∧
    ((∀ b ∈ P.oldBanks, ¬(b.1 = 0 ∧ b.2.1 = 0 ∧ b.2.2.1 = 0)) ∧ (0 < 32 ∧ 32 ≤ 32)) ∧
    (hdr 0).crcOk = true ∧ { hdr 0 with crcOk := false }.crcOk = false := by decide +kernel

/-- A standby with class 0 one instant behind, whose one built snapshot has no committed data, committed data, and no class behind. -/
theorem wit_Switchover_behind : let x : Snapshot := snap 4
    let s := fun (H : Nat) (hearts : List Nat) => { pk egr (fun p => { p with horizons := [(0, H)], splits := [(0, some 1)], classes := [(0, { p.cls 0 with lastPub := 5 })] }) with
      pair := { egr.pair with role := 2, peer := true, hadHeart := true, lastHeart := hearts, built := [x] }, tick := 64000 }
    ((s 6 [4]).pair.peer = true ∧ (s 6 [4]).pair.rxAt + (s 6 [4]).pair.loss * 1600 ≤ (s 6 [4]).tick ∧ (s 6 [4]).pair.role = 2 ∧ (s 6 [4]).stopped = false ∧
      (s 6 [4]).pair.inbox = [] ∧ (s 6 [4]).pair.hadHeart = true) ∧
    (((s 6 [4]).pkg.cls 0).started = true ∧ (((s 6 [4]).pkg.cls 0).lastPub % 65536 + 65536 - (s 6 [4]).pair.lastHeart.getD 0 0 % 65536) % 65536 = 1 ∧
      ∀ n, n < 8 → n ≠ 0 → ((s 6 [4]).pkg.cls n).started = false) ∧
    ((s 6 [4]).pair.built.filter (fun y => y.cls == 0 && y.cycle == ((s 6 [4]).pkg.cls 0).lastPub) = [x] ∧ x.entry < 256 ∧ (s 6 [4]).pkg.takesPart 0 x.entry = true ∧
      (s 6 [4]).pkg.sendable x.entry = true) ∧
    ((s 5 [4]).pkg.horizons.get 0 0 ≤ x.cycle ∧ x.cycle < (s 6 [4]).pkg.horizons.get 0 0 ∧
      (word x.cycle - x.stamp).toInt ≤ (((s 6 [4]).pkg.region ((s 6 [4]).pkg.egress 0).ten ((s 6 [4]).pkg.egress 0).region).limit : Int)) ∧
    (((s 6 [5]).pkg.cls 0).lastPub % 65536 + 65536 - (s 6 [5]).pair.lastHeart.getD 0 0 % 65536) % 65536 = 0 := by decide +kernel

/-- A port about to open when the power fails. -/
theorem wit_Recovery_openPort : let s := asking 3 0 fun x => { x with lc := 2, pending := some 7 }
    s.onyx.serving = some 0 ∧ s.onyx.pending = some 7 ∧ bits (s.blockWord 0 0) 0 8 = 3 ∧ s.onyx.present = 0 := by decide +kernel

/-- Debug packets from the job, its debugger and a stranger; a stopped job with a saved context; the port open and shut. -/
theorem wit_Debugging : let m := fun (job : Nat) (cmd : Word) => { msg 1 with header := word (job * 2 ^ 48 + 1022 * 2 ^ 9), pay := [cmd, 0, 0x7F0000004040, 4] }
    let s := fun (x : Message) => words (core0 0 0 fun c => { c with mail := [(0, [x])], pool := [1] }) [(0x1FF80, 0x8000000000000000), (0x1FF88, 0), (0x7F0000004040, 2 ^ 59)]
    let own := m 0x8000
    ((s (own 1)).pkg.findMail 1 = some (0, own 1) ∧ (own 1).wt = false ∧ (own 1).dest = 0 ∧ (s (own 1)).pkg.inMap 0 0 = true ∧ ((s (own 1)).pkg.entryOf 0 1022).isSome = true) ∧
    ((own 1).entry = 1022 ∧ (own 1).job = bits ((own 1).payload 1) 0 16 + 0x8000 ∧ (m 0 1).job = 0 ∧ (m 5 1).job ≠ 0 ∧ (own 4).job ≠ 0) ∧
    (bits ((own 4).payload 0) 0 8 = 4 ∧ bits ((own 0).payload 0) 0 8 = 0 ∧ 4 < bits ((own 5).payload 0) 0 8 ∧ bits ((own 3).payload 3) 0 3 ≤ 4) ∧
    ((s (own 4)).pkg.oldMessage (own 4) = false ∧ (s (own 4)).pkg.occupied (own 4).src (own 4).pri < 16 ∧ (s (own 1)).jobRuns 0 (own 1) = true ∧ (s (m 0x8005 1)).pkg.findMail 1 = some (0, m 0x8005 1)) ∧ (((s (own 4)).pkg.recordOf (own 4)).map (fun r => (r.1, r.2.pre)) = some (0x7F0000004040, true)) ∧
    ((base.pkg.place 0 (saveArea placedTenant placedTask.slot) .load).isSome = true ∧ 4064 % 8 = 0 ∧ 4064 + 32 ≤ 4096) ∧
    (let o := ox base fun o => { o with dbgOpen := true }
     (∀ i, i < 8 → ((s (own 2)).pkg.core i).waiters = []) ∧ o.onyx.dbgOpen = true ∧ base.onyx.dbgOpen = false ∧ (o.thr 0).park ≠ some .doubleFault ∧ isForeign (dramEnd - 16) = false ∧ isForeign (dramEnd - 16 + 8) = false ∧ 8 < 2 ^ 44 ∧
       dramEnd - 2 + 2 ≤ dramEnd ∧ (o.pkg.inTable 0x20000 = false ∧ o.pkg.inTable 0x20001 = false)) := by decide +kernel

/-- The rest: a stopped job whose context is saved, a full mailbox, writes of registers and at addresses outside the package. -/
theorem wit_Debugging_more : let m := fun (job : Nat) (cmd : Word) => { msg 1 with header := word (job * 2 ^ 48 + 1022 * 2 ^ 9), pay := [cmd, 0, 0x7F0000004040, 4] }
    let s := fun (x : Message) (n : Nat) => words (pk (core0 0 0 fun c => { c with mail := [(0, x :: (List.range n).map fun i => msg (i + 2))], pool := [1] }) fun p =>
      p.onBench 0 fun b => { b with stopped := [0] }) [(0x1FF80, 0x8000000000000000), (0x1FF88, 0), (0x7F0000004040, 2 ^ 59)]
    let own := m 0x8000
    let o := ox base fun o => { o with dbgOpen := true }
    let rung := ox base fun o => { o with dbgOpen := true, busy := [(0, 1)] }
    ((0 * 65536 + bits ((own 4).payload 1) 0 16) ∈ ((s (own 4) 0).pkg.bench 0).stopped ∧ (s (own 4) 0).pkg.desc 0 = some placedTenant ∧
      ((s (own 4) 0).pkg.recordOf (own 4)).map (fun r => (r.1, r.2.pre)) = some (0x7F0000004040, true) ∧
      ((s (own 4) 0).pkg.place 0 (saveArea placedTenant 0x7F0000004040) .load).isSome = true ∧ (s (own 4) 0).pkg.findMail 1 = some (0, own 4)) ∧
    ((s (own 4) 0).pkg.occupied (own 4).src (own 4).pri < 15 ∧ 15 ≤ (s (own 4) 14).pkg.occupied (own 4).src (own 4).pri ∧
      (s { own 3 with pay := [3, 0, 0, 5] } 0).pkg.recordOf { own 3 with pay := [3, 0, 0, 5] } = none) ∧
    (isForeign 0x100000000000 = true ∧ isForeign 0x200000000000 = true ∧ ([1] : List Byte) ≠ [] ∧ o.onyx.dbgOpen = true) ∧
    ((0xFF : Nat) < 0x100 ∧ (0x1C1 : Nat) ≠ 0x1C0 ∧ isSteward 2048 = true ∧ o.onyx.busy.get 0 (dieOf 2048) = 0 ∧ rung.onyx.busy.get 0 (dieOf 2048) ≠ 0 ∧ isSteward 0 = false) := by decide +kernel

end Sys2Proof.Tests
end

section
/-! SUPPORT. Multiplication and division (R84, R85) in the terms of exact integers. -/

namespace Sys2Proof.Machine

/-- A three-register form writes any value that its function is known to give. -/
theorem WritesG.of_alu3_eq {i : Instr} {s : State} {d a b : BitVec 6} {f : Word → Word → Word} {v : Word}
    (hr : s.ready [.g a.toNat, .g b.toNat, .g d.toNat]) (h : exec i s = alu3 d a b f s)
    (hv : f (s.me.rg a.toNat) (s.me.rg b.toNat) = v) : WritesG i s d.toNat v 4 s.me.pp :=
  hv ▸ WritesG.of_alu3 hr h

theorem toInt_eq_zero_iff {w : Nat} (y : BitVec w) : y.toInt = 0 ↔ y = 0 := by
  rw [← BitVec.toInt_inj, BitVec.ofNat_eq_ofNat, BitVec.toInt_zero]

theorem natCast_toNat_eq_zero_iff {w : Nat} (y : BitVec w) : (y.toNat : Int) = 0 ↔ y = 0 := by
  rw [Int.natCast_eq_zero, ← BitVec.toNat_inj, BitVec.ofNat_eq_ofNat, BitVec.toNat_zero]

/-! ### Products -/

theorem word_eq_ofInt (n : Nat) : word n = BitVec.ofInt 64 n := (BitVec.ofInt_natCast 64 n).symm

/-- Only the low bits of the exact product reach a result: 64 of `mul`, 32 of `mul.w`. -/
theorem setWidth_mul_eq_ofInt (w : Nat) (h : w ≤ 64) (x y : Word) :
    (x * y).setWidth w = BitVec.ofInt w (x.toNat * y.toNat) := by
  rw [BitVec.setWidth_mul x y h, BitVec.ofInt_mul, BitVec.ofInt_natCast, BitVec.ofInt_natCast, BitVec.ofNat_toNat,
    BitVec.ofNat_toNat]

theorem mul_eq_ofInt (x y : Word) : x * y = BitVec.ofInt 64 (x.toNat * y.toNat) := by
  rw [← setWidth_mul_eq_ofInt 64 (Nat.le_refl 64), BitVec.setWidth_eq]

theorem clamp_eq_max_min {lo hi : Int} (h : lo ≤ hi) (z : Int) : clamp z lo hi = max lo (min hi z) := by
  unfold clamp
  split
  · omega
  · split <;> omega

theorem satS64_eq_ofInt (z : Int) : satS64 z = BitVec.ofInt 64 (max (-(2 ^ 63)) (min (2 ^ 63 - 1) z)) :=
  congrArg _ (clamp_eq_max_min (by decide) z)

/-! ### Quotients and remainders -/

/-- All ones in w bits, the quotient by zero, is -1. -/
theorem allOnes_eq_ofInt (w : Nat) : BitVec.allOnes w = BitVec.ofInt w (-1) := by
  rw [BitVec.ofInt_neg, ← BitVec.neg_one_eq_allOnes]; rfl

theorem divSigned_quotient {w : Nat} (x y : BitVec w) :
    (divSigned x y).1 = BitVec.ofInt w (if y.toInt = 0 then -1 else x.toInt.tdiv y.toInt) := by
  simp only [divSigned, toInt_eq_zero_iff]
  split
  · exact allOnes_eq_ofInt w
  · rfl

theorem divSigned_remainder {w : Nat} (x y : BitVec w) :
    (divSigned x y).2 = BitVec.ofInt w (if y.toInt = 0 then x.toInt else x.toInt - x.toInt.tdiv y.toInt * y.toInt) := by
  simp only [divSigned, toInt_eq_zero_iff]
  split
  · exact BitVec.ofInt_toInt.symm
  · rw [Int.tmod_def, Int.mul_comm]

theorem divUnsigned_quotient {w : Nat} (x y : BitVec w) :
    (divUnsigned x y).1 = BitVec.ofInt w (if (y.toNat : Int) = 0 then -1 else (x.toNat : Int) / y.toNat) := by
  simp only [divUnsigned, natCast_toNat_eq_zero_iff]
  split
  · exact allOnes_eq_ofInt w
  · rw [← Int.natCast_ediv, BitVec.ofInt_natCast, BitVec.udiv_def]

theorem divUnsigned_remainder {w : Nat} (x y : BitVec w) :
    (divUnsigned x y).2 =
      BitVec.ofInt w (if (y.toNat : Int) = 0 then x.toNat else (x.toNat : Int) - x.toNat / y.toNat * y.toNat) := by
  simp only [divUnsigned, natCast_toNat_eq_zero_iff]
  split
  · rw [BitVec.ofInt_natCast, BitVec.ofNat_toNat, BitVec.setWidth_eq]
  · rw [Int.mul_comm, ← Int.emod_def, ← Int.natCast_emod, BitVec.ofInt_natCast, BitVec.umod_def]

/-- Settles O2: each form is a three-register form whose function has the exact result that the lemmas above give. -/
theorem multiplyDivide : Obligations.MultiplyDivide := by
  unfold Obligations.MultiplyDivide
  intro d a b s x y ua ub sa sb u32 v32 s32 t32 W Ww hr
  have hu : u32 = ((x.setWidth 32).toNat : Int) := by rw [BitVec.toNat_setWidth]
  have hv : v32 = ((y.setWidth 32).toNat : Int) := by rw [BitVec.toNat_setWidth]
  simp only [hu, hv]
  refine ⟨?mul, ?mulh, ?mulhu, ?mulhsu, ?mulW, ?mulS, ?div, ?rem, ?divu, ?remu, ?divW, ?remW, ?divuW, ?remuW⟩
  case mul => exact .of_alu3_eq hr (exec_mul d a b s) (mul_eq_ofInt x y)
  case mulh => exact .of_alu3 hr (exec_mulh d a b s)
  case mulhu => exact .of_alu3_eq hr (exec_mulhu d a b s) (word_eq_ofInt _)
  case mulhsu => exact .of_alu3 hr (exec_mulhsu d a b s)
  case mulW => exact .of_alu3_eq hr (exec_mulW d a b s) (congrArg _ (setWidth_mul_eq_ofInt 32 (by decide) x y))
  case mulS => exact .of_alu3_eq hr (exec_mulS d a b s) (satS64_eq_ofInt _)
  case div => exact .of_alu3_eq hr (exec_div d a b s) (divSigned_quotient x y)
  case rem => exact .of_alu3_eq hr (exec_rem d a b s) (divSigned_remainder x y)
  case divu => exact .of_alu3_eq hr (exec_divu d a b s) (divUnsigned_quotient x y)
  case remu => exact .of_alu3_eq hr (exec_remu d a b s) (divUnsigned_remainder x y)
  case divW => exact .of_alu3_eq hr (exec_divW d a b s) (congrArg _ (divSigned_quotient _ _))
  case remW => exact .of_alu3_eq hr (exec_remW d a b s) (congrArg _ (divSigned_remainder _ _))
  case divuW => exact .of_alu3_eq hr (exec_divuW d a b s) (congrArg _ (divUnsigned_quotient _ _))
  case remuW => exact .of_alu3_eq hr (exec_remuW d a b s) (congrArg _ (divUnsigned_remainder _ _))

end Sys2Proof.Machine
end

section
/-! SUPPORT. The power cap (R384): bit fields read back, and CAP of each die through the governor's change of all four. -/

namespace Sys2Proof.Machine

/-! ### Bit fields read back -/

theorem testBit_bits {n : Nat} (w : BitVec n) (lo len i : Nat) :
    (bits w lo len).testBit i = (decide (i < len) && w.getLsbD (i + lo)) := by
  simp [bits, Nat.testBit_mod_two_pow, Nat.testBit_div_two_pow, BitVec.getLsbD]

theorem bits_setBits {n : Nat} (w : BitVec n) (lo len v : Nat) (h : lo + len ≤ n) :
    bits (setBits w lo len v) lo len = v % 2 ^ len := by
  apply Nat.eq_of_testBit_eq
  intro i
  rw [testBit_bits]
  by_cases hi : i < len
  · have hn : i + lo < n := by omega
    simp only [setBits, BitVec.getLsbD_or, BitVec.getLsbD_and, BitVec.getLsbD_not, BitVec.getLsbD_ofNat,
      Nat.testBit_mul_two_pow, Nat.testBit_two_pow_sub_one, Nat.testBit_mod_two_pow]
    simp [hi, hn]
  · simp [hi, Nat.testBit_mod_two_pow]

/-! ### CAP of a die -/

/-- CAP of a die of the package (R382). -/
def Pkg.cap (p : Pkg) (die : Nat) : Nat := bits (p.pgov.get pgovReset die) 16 12

theorem Pkg.cap_lt (p : Pkg) (die : Nat) : p.cap die < 4096 := Nat.mod_lt _ (by decide)

@[simp] theorem Pkg.setCap_mem (p : Pkg) (die c : Nat) : (p.setCap die c).mem = p.mem := rfl

theorem Pkg.cap_setCap_self (p : Pkg) (die : Nat) {c : Nat} (h : c < 4096) : (p.setCap die c).cap die = c := by
  rw [Pkg.cap, Pkg.setCap, Store.get_set_self, bits_setBits _ _ _ _ (by decide)]
  exact Nat.mod_eq_of_lt h

theorem Pkg.cap_setCap_ne (p : Pkg) (c : Nat) {die e : Nat} (h : e ≠ die) : (p.setCap die c).cap e = p.cap e := by
  rw [Pkg.cap, Pkg.setCap, Store.get_set_ne _ _ _ h, Pkg.cap]

/-! ### One change of CAP -/

/-- What CAP becomes at an average power of `mw` milliwatts, with the free value `x` (log 10). -/
def adjustedCap (mw x cap : Nat) : Nat :=
  if 450000 < mw then (if 64 < cap then 64 + x % (cap - 64) else cap)
  else if mw < 430000 then (if cap < 4095 then cap + 1 + x % (4095 - cap) else cap)
  else cap

theorem adjustedCap_of_above {mw : Nat} (h : 450000 < mw) (x cap : Nat) :
    if 64 < cap then 64 ≤ adjustedCap mw x cap ∧ adjustedCap mw x cap < cap else adjustedCap mw x cap = cap := by
  rw [adjustedCap, if_pos h]
  split
  · have hx : x % (cap - 64) < cap - 64 := Nat.mod_lt x (by omega)
    omega
  · rfl

theorem adjustedCap_of_below {mw : Nat} (h : mw < 430000) (x cap : Nat) :
    if cap < 4095 then cap < adjustedCap mw x cap else adjustedCap mw x cap = cap := by
  have hna : ¬ 450000 < mw := by omega
  rw [adjustedCap, if_neg hna, if_pos h]
  split
  · omega
  · rfl

theorem adjustedCap_of_between {mw : Nat} (hlo : 430000 ≤ mw) (hhi : mw ≤ 450000) (x cap : Nat) :
    adjustedCap mw x cap = cap := by
  rw [adjustedCap, if_neg (by omega), if_neg (by omega)]

/-- A CAP of 12 bits stays one of 12 bits: what rises reaches at most 4095. -/
theorem adjustedCap_lt (mw x : Nat) {cap : Nat} (hcap : cap < 4096) : adjustedCap mw x cap < 4096 := by
  by_cases habove : 450000 < mw
  · have h := adjustedCap_of_above habove x cap
    split at h <;> omega
  · by_cases hbelow : mw < 430000
    · rw [adjustedCap, if_neg habove, if_pos hbelow]
      split
      · have hx : x % (4095 - cap) < 4095 - cap := Nat.mod_lt x (by omega)
        omega
      · exact hcap
    · rw [adjustedCap_of_between (by omega) (by omega)]
      exact hcap

/-- The change that POWER_CAP_ADJUST makes for one die. -/
def Pkg.adjustCap (mw x : Nat) (p : Pkg) (die : Nat) : Pkg :=
  if 450000 < mw then (if 64 < p.cap die then p.setCap die (64 + x % (p.cap die - 64)) else p)
  else if mw < 430000 then (if p.cap die < 4095 then p.setCap die (p.cap die + 1 + x % (4095 - p.cap die)) else p)
  else p

/-- The meaning of POWER_CAP_ADJUST as one change per die. -/
theorem execPowerCapAdjust_eq (mw : Nat) (s : State) :
    execPowerCapAdjust mw s =
      .next { s.updBy .hub fun p => (List.range 4).foldl (Pkg.adjustCap mw (Config.powerCap s.free)) p with
        free := s.free + 1 } := rfl

/-- One die's change writes `adjustedCap` to its CAP, or leaves the package where that is no change. -/
theorem Pkg.adjustCap_cases (mw x : Nat) (p : Pkg) (die : Nat) :
    p.adjustCap mw x die = p.setCap die (adjustedCap mw x (p.cap die)) ∨
      p.adjustCap mw x die = p ∧ adjustedCap mw x (p.cap die) = p.cap die := by
  unfold Pkg.adjustCap adjustedCap
  by_cases habove : 450000 < mw
  · rw [if_pos habove, if_pos habove]
    by_cases hcap : 64 < p.cap die
    · rw [if_pos hcap, if_pos hcap]
      exact .inl rfl
    · rw [if_neg hcap, if_neg hcap]
      exact .inr ⟨rfl, rfl⟩
  · rw [if_neg habove, if_neg habove]
    by_cases hbelow : mw < 430000
    · rw [if_pos hbelow, if_pos hbelow]
      by_cases hcap : p.cap die < 4095
      · rw [if_pos hcap, if_pos hcap]
        exact .inl rfl
      · rw [if_neg hcap, if_neg hcap]
        exact .inr ⟨rfl, rfl⟩
    · rw [if_neg hbelow, if_neg hbelow]
      exact .inr ⟨rfl, rfl⟩

@[simp] theorem Pkg.adjustCap_mem (mw x : Nat) (p : Pkg) (die : Nat) : (p.adjustCap mw x die).mem = p.mem := by
  obtain h | ⟨h, -⟩ := p.adjustCap_cases mw x die
  · rw [h, Pkg.setCap_mem]
  · rw [h]

theorem Pkg.cap_adjustCap_self (mw x : Nat) (p : Pkg) (die : Nat) :
    (p.adjustCap mw x die).cap die = adjustedCap mw x (p.cap die) := by
  obtain h | ⟨h, hsame⟩ := p.adjustCap_cases mw x die
  · rw [h, p.cap_setCap_self die (adjustedCap_lt mw x (p.cap_lt die))]
  · rw [h, hsame]

theorem Pkg.cap_adjustCap_ne (mw x : Nat) (p : Pkg) {die e : Nat} (h : e ≠ die) :
    (p.adjustCap mw x die).cap e = p.cap e := by
  obtain hset | ⟨hkeep, -⟩ := p.adjustCap_cases mw x die
  · rw [hset, p.cap_setCap_ne _ h]
  · rw [hkeep]

/-! ### The change of every die -/

theorem foldl_adjustCap_mem (mw x : Nat) (l : List Nat) (p : Pkg) : (l.foldl (Pkg.adjustCap mw x) p).mem = p.mem := by
  induction l generalizing p with
  | nil => rfl
  | cons d l ih => rw [List.foldl_cons, ih, Pkg.adjustCap_mem]

theorem cap_foldl_adjustCap_of_notMem (mw x : Nat) {l : List Nat} {e : Nat} (he : e ∉ l) (p : Pkg) :
    (l.foldl (Pkg.adjustCap mw x) p).cap e = p.cap e := by
  induction l generalizing p with
  | nil => rfl
  | cons d l ih =>
    rw [List.foldl_cons, ih (List.not_mem_of_not_mem_cons he), p.cap_adjustCap_ne mw x (List.ne_of_not_mem_cons he)]

/-- Each die of the list is changed once, whatever is done to the others before and after it. -/
theorem cap_foldl_adjustCap_of_mem (mw x : Nat) {l : List Nat} (hl : l.Nodup) {e : Nat} (he : e ∈ l) (p : Pkg) :
    (l.foldl (Pkg.adjustCap mw x) p).cap e = adjustedCap mw x (p.cap e) := by
  induction l generalizing p with
  | nil => exact absurd he List.not_mem_nil
  | cons d l ih =>
    obtain ⟨hd, hl⟩ := List.nodup_cons.mp hl
    rw [List.foldl_cons]
    rcases List.mem_cons.mp he with rfl | he
    · rw [cap_foldl_adjustCap_of_notMem mw x hd, Pkg.cap_adjustCap_self]
    · rw [ih hl he, p.cap_adjustCap_ne mw x (ne_of_mem_of_not_mem he hd)]

/-- What POWER_CAP_ADJUST does: it answers, changes no thread and no memory, and adjusts CAP of each of the four dies. -/
theorem exec_powerCapAdjust_spec (mw : Nat) (s : State) :
    ∃ u, exec (.powerCapAdjust mw) s = .next u ∧ u.threads = s.threads ∧ u.pkg.mem = s.pkg.mem ∧
      ∀ die, die < 4 → u.pkg.cap die = adjustedCap mw (Config.powerCap s.free) (s.pkg.cap die) :=
  ⟨_, (exec_powerCapAdjust mw s).trans (execPowerCapAdjust_eq mw s), rfl, foldl_adjustCap_mem mw _ _ s.pkg,
    fun _ hdie => cap_foldl_adjustCap_of_mem mw _ List.nodup_range (List.mem_range.mpr hdie) s.pkg⟩

/-- Settles O56: each die's CAP becomes `adjustedCap` of what it was, which the three facts about `adjustedCap` bound. -/
theorem powerCap : Obligations.PowerCap := by
  unfold Obligations.PowerCap
  intro mw s
  obtain ⟨u, hexec, hthreads, hmem, hcap⟩ := exec_powerCapAdjust_spec mw s
  refine ⟨u, hexec, hthreads, hmem, ?_⟩
  intro die hdie cap
  have hu : cap u = adjustedCap mw (Config.powerCap s.free) (cap s) := hcap die hdie
  rw [hu]
  exact ⟨fun habove => adjustedCap_of_above habove _ _, fun hbelow => adjustedCap_of_below hbelow _ _,
    fun hlo hhi => adjustedCap_of_between hlo hhi _ _⟩

end Sys2Proof.Machine
end
